-- ==== Sys2Proof/Word.lean ====
section
/-! DEFINITION. The words of the part and their plainest arithmetic (00_scope R5, R8). -/

namespace Sys2Proof

abbrev Byte := BitVec 8
abbrev W16 := BitVec 16
abbrev W32 := BitVec 32
abbrev W64 := BitVec 64
/-- A line is 64 B, byte 0 in bits 7:0 (00 R8, R5: little-endian). -/
abbrev Line := BitVec 512
/-- The 128 side bits of a line (06 R123). -/
abbrev Side := BitVec 128
/-- A key is a pair of 256-bit AES keys (05 R96). -/
abbrev Key := BitVec 512
/-- Device page number: DPA[43:12] (02). -/
abbrev Dpn := BitVec 32
/-- Frame number (02 R28). -/
abbrev Frame := BitVec 32

end Sys2Proof
end

