-- ==== Sys2Proof/Syntax.lean ====
section
/-! DEFINITION. The commands of the block: one constructor of `Instr` per row of spec/opcode_table.json, with the operands
that the environment supplies. What a hardware event finds (a bit error, a training result, a measured rate) is an
operand; what the device decides is computed in Machine/. -/

namespace Sys2Proof

/-- The path on which a software command arrives (14 R338). -/
inductive Path where
  | mailbox (ld : Fin 32) (secondary : Bool)
  | eyelet (ld : Fin 32) (ch : Fin 16) (tag : W32)
  | doe (ld : Fin 32)
  | fmLd (head : Fin 4)
  | mctpFm
  | mctpBmc
  deriving DecidableEq, Repr

/-- A command message: its path, the SPDM secured session that carries it if any, the bytes of its input payload and the
output space (14 R344, R345). -/
structure Msg where
  path : Path
  session : Option (Fin 8)
  inLen : Nat
  outLen : Nat
  deriving DecidableEq, Repr

/-- A host M2S request (02, 12 R290): LD, head, HPA, the TSP CKID it carries, whether another head presents the same line in
the same hub cycle (01 R20), and the frame from which the allocator looks for a free one when the write needs it. -/
structure Access where
  ld : Fin 32
  head : Fin 4
  hpa : W64
  ckid : Option (BitVec 13)
  tie : Option (Fin 4)
  hint : Frame
  deriving DecidableEq, Repr

/-- What one line read from DRAM meets: the ERR mark, and the bits that come back flipped (06 R143, 08 R192). -/
structure Upset where
  err : Bool
  flipData : Line
  flipSide : Side
  deriving DecidableEq, Repr

/-- The read of the group member on one channel, for a rebuild (06 R140). A channel not listed reads without upset. -/
structure MemberRead where
  channel : Fin 12
  upset : Upset
  deriving DecidableEq, Repr

/-- Why a migration starts (02 R49, R50; 03 R58, R62, R64; 06 R146, R160; 07 R176). -/
inductive MigKind where
  | writePromotion | readPromotion | poqPromotion | demotion | emergencyDemotion | compaction | relocation
  | aggressor | rebalance | retirement
  deriving DecidableEq, Repr

/-- The block in which an on-chip byte-parity error falls, and how much of it (06 R129, R130, R136, R138). -/
inductive ParityBlock where
  | parityCache (group : BitVec 28) (line : Fin 64)
  | mergeBuffer (dpn : Dpn) (line : Fin 64)
  | writeBuffer (dpn : Dpn) (line : Fin 64) (both : Bool)
  | lastCache (dpn : Dpn) (both : Bool)
  | codecEngine (n : Fin 26)
  | core (n : Fin 8)
  | other
  deriving DecidableEq, Repr

/-- The two ends of a Lace module. -/
inductive LaceEnd where
  | hub | die
  deriving DecidableEq, Repr

/-- A 256-byte flit as received (08 R188): header, payload byte 0 in bits 7:0, CRC. -/
structure Flit where
  header : W64
  payload : BitVec 1920
  crc : W64
  deriving DecidableEq, Repr

/-- Header slot of a READ or WRITE (08 R192). -/
structure ReqSlot where
  channel : Fin 12
  master : Fin 39
  priority : Fin 8
  rt : Bool
  tag : BitVec 13
  line : Fin 64
  countM1 : Fin 16
  frame : Frame
  deriving DecidableEq, Repr

/-- CHANNEL_COMMAND kinds (08 R192). -/
inductive ChanCmd where
  | park | rateChange | repair | training
  deriving DecidableEq, Repr

/-- One entry of a LINE_DATA message (08 R192). -/
structure LineEntry where
  tag : BitVec 13
  last : Bool
  upset : Upset
  deriving DecidableEq, Repr

/-- The module in one slot (07 R162, R163, R170). -/
structure Dimm where
  threeDS : Bool
  x8 : Bool
  density : Fin 4
  ranks2 : Bool
  height : Fin 4
  rate : W16
  id : W64
  deriving DecidableEq, Repr

/-- What the training of a channel found (07 R165, R169, R171, R175, R176, R181; 18 R434): the least read and write margins in percent of UI, whether the modules
require refresh management and support directed RFM, the devices that report no hard repair resource in a bank (RANKSEL, BANK, position), and the SPD of the
modules where it reads otherwise than before. -/
structure TrainResult where
  cachedCheckOk : Bool
  rankOk : BitVec 32
  rdMargin : Nat
  wrMargin : Nat
  temp : Byte
  rfm : Bool
  drfm : Bool := false
  noSpares : List (BitVec 6 × BitVec 5 × Fin 20)
  spd : List (Fin 2 × Dimm) := []
  deriving DecidableEq, Repr

/-- The board configuration block (18 R437). -/
structure Board where
  valid : Bool
  flags : W16
  subsysVendor : W16
  subsysId : W16
  chargeMa : W32
  vsenseRatio : W16
  vFullMv : W16
  vMinMv : W16
  cNomMf : W16
  effPct : Byte
  drivePlp : Byte
  pSaveW : W16
  gpio : List (Byte × Byte)
  deriving DecidableEq, Repr

/-- A CXL_IDE_KM message to a key set of a stream (05 R121): a key for the set, the switch to it, for CXL.cachemem in skid or containment mode, and its
end. -/
inductive IdeKm where
  | keyProg (key : BitVec 256)
  | setGo (containment : Bool)
  | setStop
  deriving DecidableEq, Repr

/-- The chunks of a page that the compressor's verify decoder finds different after the first and after the second coding (04 R89). -/
structure VerifyFails where
  first : BitVec 4 := 0
  again : BitVec 4 := 0
  deriving DecidableEq, Repr

/-- What bring-up meets at a reset (18 R430, R432, R433; 07 R163, R460). -/
structure BringUp where
  board : Board
  dimms : List (Fin 12 × Fin 2 × Dimm)
  present : BitVec 12
  records : BitVec 12
  slackPs : List Nat
  roSlow : Nat
  coreOk : BitVec 8
  engineOk : BitVec 26
  insoleCrcOk : Bool
  vbankMv : Nat
  deriving DecidableEq, Repr

/-- Which of the parts of an image a read finds valid, and the candidates (10 R252, R270; 09 R239). -/
structure ImageFound where
  candidate : Bool
  versionOk : Bool
  keyWrapOk : Bool
  unwrapFails : List (BitVec 12)
  regionOkA : Bool
  regionOkB : Bool
  heatOkA : Bool
  heatOkB : Bool
  insoleOk : Bool
  epochBad : List Nat := []
  deriving DecidableEq, Repr

/-- A NVMe drive as it answers on its link (09 R234, R235); margin of its weakest lane in percent of UI (18 R434). -/
structure DriveInfo where
  gen : Fin 8
  margin : Nat
  nvmeOk : Bool
  atomicLbas : Nat
  blocks : W64
  nguid : BitVec 128
  candidate : Bool
  tag : BitVec 128
  deriving DecidableEq, Repr

/-- What a head trained to (12 R293). Rate in GT/s, width in lanes, weakest lane margin in percent of UI. -/
structure LinkState where
  rate : Fin 4
  width : Fin 17
  flit256 : Bool
  latencyOpt : Bool
  mld : Bool
  margin : Nat
  deriving DecidableEq, Repr

/-- A submission entry (13 R320). -/
structure Descriptor where
  opcode : Byte
  version : Byte
  flags : W16
  tag : W16
  dpa : W64
  length : W32
  bufLen : W32
  hostAddr : W64
  aux : W64
  deriving DecidableEq, Repr

/-- A command block header (14 R350). -/
structure CmdBlock where
  opcode : W16
  inLen : W32
  outAddr : W64
  outLen : W32
  tag : W32
  deriving DecidableEq, Repr

/-- A party that reads a management lock (14 R355). -/
inductive Party where
  | ld (n : Fin 32)
  | bmc
  | fm (head : Fin 4)
  deriving DecidableEq, Repr

/-- An Awl descriptor (16 R400). -/
structure AwlDesc where
  kind : Byte
  flags : Byte
  count : W16
  target : W32
  address : W64
  mask : W64
  delayMs : W32
  intervalUs : W32
  deriving DecidableEq, Repr

/-- A dynamic-capacity extent as the FM names it (02 R25, 10 R263). -/
structure Extent where
  tag : BitVec 128
  ldDpn : W32
  devDpn : W32
  pages : W32
  region : Fin 8
  shared : Bool
  poisonUnwritten : Bool
  deriving DecidableEq, Repr

/-- A firmware package as verification meets it (15 R383). -/
structure FwPackage where
  secureDigest : BitVec 384
  normalDigest : BitVec 384
  manifest : BitVec 384
  secureSvn : W32
  normalSvn : W32
  secureSignature : List Byte
  normalSignature : List Byte
  deriving DecidableEq, Repr

/-- A world of the control processors (15 R365). -/
inductive World where
  | normal | secure
  deriving DecidableEq, Repr

/-- Who makes an access to internal memory (15 R368); `secureFor` is a secure core at an address that a normal-world message names (R374). -/
inductive Requester where
  | normalCore (n : Fin 6)
  | secureCore (n : Fin 2)
  | secureFor (n : Fin 2)
  | engine
  deriving DecidableEq, Repr

/-- Owner of a page of internal memory (15 R368). -/
inductive PageOwner where
  | secure | normal | shared | engine
  deriving DecidableEq, Repr

/-- A block with a clock or power gate, and the world it belongs to (15 R367). -/
inductive HubBlock where
  | keyStore | fuses | pageOwnerTable | xspi | normalWatchdog | secureWatchdog | mailboxes | engines | observers
  | powerManager | alwaysOn
  deriving DecidableEq, Repr

/-- Configuration of one performance counter (17 R410 to R412). -/
structure CounterCfg where
  group : Byte
  mask : W32
  threshold : W16
  enable : Bool
  deriving DecidableEq, Repr

/-- One priority request of a restore (10 R259). -/
inductive PriorityReq where
  | region (r : Byte)
  | tag (t : BitVec 128)
  | static
  deriving DecidableEq, Repr

/-- The commands. The docstring of a meaning names its rule; the order is the table's. An operand with a default takes it in the plain case: no chunk fails
its verify, no list goes on in another message, the first line of a page. -/
inductive Instr where
  | cxlMemRead (a : Access)
  | cxlMemWrite (a : Access) (data : Line) (poison : Bool)
  | partialLineWrite (a : Access) (data : Line) (be : W64)
  | mergeOldLineArrived (dpn : Dpn) (line : Fin 64) (upset : Upset)
  | lastEntryReturned (dpn : Dpn)
  | lastCacheClean
  | weltDeltaWrite (dpn : Dpn) (line : Fin 64) (old : Upset) (reads : List MemberRead)
  | rebuildComplete (frame : Frame) (line : Fin 64) (reads : List MemberRead)
  | verifyReadResult (frame : Frame) (line : Fin 64) (upset : Upset)
  | chunkDecodeDone (tag : BitVec 13) (decomp : Fin 16) (bad : Bool) (retryBad : Bool) (rereads : List Upset)
  | shadowRepairRecordRead (dpn : Dpn) (chunk : Fin 4) (ok : Bool) (hint : Frame)
  | migrationStart (dpn : Dpn) (kind : MigKind) (hint : Frame)
  | migrationCopyRoundDone (t : Fin 256)
  | migrationSourceRelease (t : Fin 256)
  | decaySweepVisit
  | queuedPromotionStart (hint : Frame)
  | backgroundDemotionStart (hint : Frame)
  | binCompaction (bin : Frame) (hint : Frame)
  | releaseReevaluation
  | chunkCoded (t : Fin 256) (chunk : Fin 4) (engine : Fin 8) (mismatch : Bool)
  | onchipParityError (b : ParityBlock) (reads : List MemberRead)
  | parityCacheClean
  | candidateExpiry (ch : Fin 12) (idx : Fin 256)
  | rowRepairStart (ch : Fin 12) (idx : Fin 256)
  | repairWaitExpiry (ch : Fin 12) (idx : Fin 256)
  | postPackageRepairDone (ch : Fin 12) (idx : Fin 256) (ok : Bool)
  | rowRetired (ch : Fin 12) (idx : Fin 256)
  | scrubLine (upset : Upset) (reads : List MemberRead)
  | ecsRead (ch : Fin 12) (ranksel : BitVec 6) (device : Fin 20) (count : W16) (bank : BitVec 5) (row : BitVec 18)
  | unitRebuildStep (slot : Fin 4) (reads : List MemberRead)
  | unitMapResolve (slot : Fin 4) (reads : List MemberRead)
  | rebalance (dpn : Dpn) (hint : Frame)
  | refreshDue (ch : Fin 12) (rank : Fin 4)
  | owedRefreshDrain (ch : Fin 12) (rank : Fin 4)
  | periodicTracking (ch : Fin 12) (lr : Fin 32)
  | moduleTempRead (ch : Fin 12) (temps : List (Fin 2 × Option Byte)) (mr4Hot : Bool)
  | activationWindowStart (ch : Fin 12)
  | requestAgePromote (ch : Fin 12) (tag : BitVec 13)
  | trainingComplete (ch : Fin 12) (r : TrainResult)
  | slotPresenceChange (ch : Fin 12) (high : Bool)
  | pmicPowerGoodTimeout (ch : Fin 12)
  | caParityAlert (ch : Fin 12) (rank : Fin 4)
  | writeCrcAlert (ch : Fin 12) (rank : Fin 4)
  | pmicFault (ch : Fin 12)
  | trainMcuWatchdog (die : Fin 2)
  | dataFlitReceived (m : Fin 4) (e : LaceEnd) (f : Flit)
  | creditFlit (m : Fin 4) (e : LaceEnd) (f : Flit)
  | retrainRequest (m : Fin 4) (e : LaceEnd) (f : Flit)
  | handover (m : Fin 4) (e : LaceEnd) (f : Flit)
  | returnFlit (m : Fin 4) (e : LaceEnd) (f : Flit)
  | trainPattern (m : Fin 4) (e : LaceEnd) (f : Flit)
  | trainParameters (m : Fin 4) (e : LaceEnd) (f : Flit)
  | trainDone (m : Fin 4) (e : LaceEnd) (f : Flit) (margin : Nat) (repaired : Byte)
  | dieRead (m : Fin 4) (r : ReqSlot)
  | dieWrite (m : Fin 4) (r : ReqSlot) (data : Line) (side : Side)
  | channelCommand (m : Fin 4) (ch : Fin 12) (k : ChanCmd) (tag : BitVec 13)
  | dieEvent (m : Fin 4) (num : W16) (source : BitVec 11)
  | lineData (m : Fin 4) (entries : List LineEntry)
  | writeDone (m : Fin 4) (tags : List (BitVec 13))
  | commandDone (m : Fin 4) (tag : BitVec 13) (ok : Bool)
  | eventTaken (m : Fin 4) (nums : List W16)
  | ackDue (m : Fin 4) (e : LaceEnd)
  | ctrlFlitDue (m : Fin 4) (e : LaceEnd)
  | replayTimerExpiry (m : Fin 4) (e : LaceEnd)
  | creditLeakDetected (m : Fin 4) (e : LaceEnd)
  | leakRetrainStart (m : Fin 4)
  | silenceTimeout (m : Fin 4)
  | retrainTimeout (m : Fin 4)
  | handoverTimeout (die : Fin 2)
  | returnAttempt (m : Fin 4) (trained : Bool)
  | returnSoakEnd (m : Fin 4) (clean : Bool)
  | shadowRecord (v : VerifyFails := {})
  | driveCommandComplete (n : Fin 4) (id : Nat)
  | epochEnd
  | epochClose
  | refreshLapStep
  | windowRecompute (saturatedRate : Option Nat)
  | holdupSample (senseMv : Nat)
  | gpfPhase1 (head : Fin 4)
  | gpfPhase2 (head : Fin 4)
  | saveStart
  | gpfTimeout
  | saveQueueEmpty
  | saveFlushComplete
  | parityWritebackDone
  | pwrfailReturn
  | resumeInPlace
  | driveSaveTimeout (n : Fin 4)
  | driveFail (n : Fin 4) (timeout : Bool)
  | driveRebuildStep (n : Fin 4) (blocks : Nat)
  | imageCreate (calibrationRate : Nat)
  | coldReset (b : BringUp)
  | pwrgoodFall
  | warmReset
  | portReset (p : Fin 2)
  | perstRelease (p : Fin 2)
  | poolInitGroup
  | imageRead (f : ImageFound)
  | restoreIndexBuilt
  | voidOverwriteStep (blocks : Nat)
  | restoreRecordRead (ok : Bool) (hint : Frame)
  | restoreExtentDone
  | upspeedRetry (head : Fin 4) (success : Bool)
  | accountingInterval
  | linkTrained (head : Fin 4) (l : LinkState)
  | linkDown (head : Fin 4)
  | l0pRequest (head : Fin 4) (width : Fin 17)
  | ldReset (fn : Fin 36)
  | configRequest (head : Fin 4) (fn : Fin 36) (offset : BitVec 12)
  | mmioBadAccess (fn : Fin 36) (offset : BitVec 25) (read : Bool)
  | registerWrite (fn : Fin 36) (offset : BitVec 25) (value : W64) (four : Bool)
  | doorbell (ld : Fin 32) (page : Fin 64) (value : W64) (pasid : Option (BitVec 20))
  | descriptorFetch (q : BitVec 20) (ds : Option (List Descriptor))
  | zeroRange (q : BitVec 20) (id : W16)
  | copyRange (q : BitVec 20) (id : W16) (hint : Frame)
  | pinHot (q : BitVec 20) (id : W16) (hint : Frame)
  | unpin (q : BitVec 20) (id : W16)
  | promote (q : BitVec 20) (id : W16) (hint : Frame)
  | demote (q : BitVec 20) (id : W16) (hint : Frame)
  | hardenRange (q : BitVec 20) (id : W16)
  | compressOut (q : BitVec 20) (id : W16) (dmaOk : Bool)
  | decompressIn (q : BitVec 20) (id : W16) (buf : Option (List Byte)) (hint : Frame)
  | heatReport (q : BitVec 20) (id : W16) (dmaOk : Bool)
  | fence (q : BitVec 20) (id : W16)
  | poqCompletion (q : BitVec 20) (id : W16) (dmaOk : Bool)
  | coalesceTimer (q : BitVec 20)
  | queueDrained (q : BitVec 20)
  | eyeletNotice (ld : Fin 32) (ch : Fin 16) (value : W64) (pasid : Option (BitVec 20))
  | eyeletDequeue (ld : Fin 32) (ch : Fin 16)
  | commandBlockRead (ld : Fin 32) (ch : Fin 16) (b : Option CmdBlock)
  | eyeletConfigWrite (ld : Fin 32) (ch : Fin 16) (value : W64)
  | eventRingEnable (ld : Fin 32) (value : W64)
  | lockRegisterRead (lock : Fin 8) (readers : List Party)
  | lockReleaseWrite (lock : Fin 8) (p : Party) (value : W64)
  | lockLeaseExpiry (lock : Fin 8)
  | identifyMemoryDevice (m : Msg)
  | getHealthInfo (m : Msg)
  | getAlertConfiguration (m : Msg)
  | setAlertConfiguration (m : Msg) (cfg : BitVec 96)
  | getShutdownState (m : Msg)
  | setShutdownState (m : Msg) (st : Byte)
  | getTimestamp (m : Msg)
  | setTimestamp (m : Msg) (t : W64)
  | getEventRecords (m : Msg) (log : Byte)
  | clearEventRecords (m : Msg) (log : Byte) (all : Bool) (handles : List W16)
  | getEventInterruptPolicy (m : Msg)
  | setEventInterruptPolicy (m : Msg) (p : W32)
  | getSupportedLogs (m : Msg)
  | getLog (m : Msg) (cel : Bool) (offset : W32) (length : W32)
  | getFwInfo (m : Msg)
  | transferFw (m : Msg) (slot : Byte) (p : FwPackage)
  | activateFw (m : Msg) (online : Bool) (slot : Byte)
  | getPartitionInfo (m : Msg)
  | setPartitionInfo (m : Msg) (volatile : W64)
  | getDynamicCapacityConfiguration (m : Msg)
  | getDynamicCapacityExtentList (m : Msg) (start : W32) (count : W32)
  | addDynamicCapacityResponse (m : Msg) (tag : BitVec 128) (accept : Bool)
  | releaseDynamicCapacity (m : Msg) (dpa : W64) (length : W64) (more : Bool := false)
  | getPoisonList (m : Msg) (dpa : W64) (length : W64)
  | injectPoison (m : Msg) (dpa : W64)
  | clearPoison (m : Msg) (dpa : W64) (data : Line)
  | sanitize (m : Msg)
  | secureErase (m : Msg)
  | backgroundOperationStatus (m : Msg)
  | unsupportedCommand (m : Msg) (opcode : W16)
  | getLdInfo (m : Msg)
  | getLdAllocations (m : Msg) (start : Byte) (limit : Byte)
  | setLdAllocations (m : Msg) (start : Byte) (allocs : List (Nat × Option (List Extent)))
  | getQosControl (m : Msg) (ld : Byte)
  | setQosControl (m : Msg) (ld : Byte) (ctl : Byte)
  | getQosStatus (m : Msg) (ld : Byte)
  | getQosAllocatedBw (m : Msg) (start : Byte) (number : Byte)
  | setQosAllocatedBw (m : Msg) (start : Byte) (fractions : List W16)
  | getQosBwLimit (m : Msg) (start : Byte) (number : Byte)
  | setQosBwLimit (m : Msg) (start : Byte) (fractions : List W16)
  | getMultiHeadedInfo (m : Msg)
  | getHeadInfo (m : Msg) (start : Byte) (number : Byte)
  | getDcdInfo (m : Msg)
  | getHostDcRegionConfiguration (m : Msg) (ld : Byte) (start : Byte) (number : Byte)
  | setDcRegionConfiguration (m : Msg) (region : Byte) (blockSize : W64) (sanitizeOnRelease : Bool)
  | getDcRegionExtentLists (m : Msg) (ld : Byte) (start : W32) (count : W32)
  | initiateDynamicCapacityAdd (m : Msg) (ld : Byte) (e : Extent)
  | initiateDynamicCapacityRelease (m : Msg) (ld : Byte) (tag : BitVec 128)
  | slafinUndefinedOpcode (m : Msg) (opcode : W16)
  | getSlafinInfo (m : Msg)
  | setSlafinVersion (m : Msg) (version : W16)
  | setOwnerKey (m : Msg) (hash : BitVec 384)
  | readRegisters (m : Msg) (capId : Byte) (ld : Byte) (offset : W16) (length : W32)
  | lockCommand (m : Msg) (lock : Byte) (op : Byte)
  | setTierPolicy (m : Msg) (mask : Byte) (policy : W64) (watermark : W64) (rate : W64)
  | setRangeAttr (m : Msg) (ld : Byte) (poisonUnwritten : Byte) (devDpn : W32) (pages : W32)
  | setPageOwner (m : Msg) (devDpn : W32) (pages : W32) (owner : W16)
  | setHostCapacity (m : Msg) (pages : W32)
  | setShadowPolicy (m : Msg) (policy : W64)
  | setRegionDurable (m : Msg) (region : Byte) (durable : Byte)
  | restorePriority (m : Msg) (req : PriorityReq)
  | getLossList (m : Msg) (cursor : W32) (max : W32)
  | reofferExtent (m : Msg) (ld : Byte) (tag : BitVec 128)
  | setRestorePolicy (m : Msg) (policy : W64)
  | retryRestore (m : Msg) (f : ImageFound)
  | createQueue (m : Msg) (sqBase : W64) (cqBase : W64) (pasid : W32) (log2 : Byte) (vector : W16)
      (coalCount : W16) (coalTime : W16) (index : BitVec 20)
  | destroyQueue (m : Msg) (q : W32)
  | setCoalesce (m : Msg) (q : W32) (vector : W16) (coalCount : W16) (coalTime : W16)
  | bindDoorbell (m : Msg) (page : Byte) (mode : Byte) (pasid : W32)
  | setPoqShare (m : Msg) (ld : Byte) (weight : Byte) (quota : W32)
  | setMasters (m : Msg) (entries : List (Byte × W64))
  | setRegPolicy (m : Msg) (policy : W64)
  | setSource (m : Msg) (source : W16) (config : W64)
  | clearSource (m : Msg) (source : W16) (count : W16)
  | getSources (m : Msg) (first : W16) (max : W16)
  | awlArm (m : Msg) (d : AwlDesc)
  | awlDisarm (m : Msg) (injection : W32)
  | readInsole (m : Msg) (cursor : W32) (max : W32)
  | unfreezeInsole (m : Msg)
  | setWeltPolicy (m : Msg) (policy : W64)
  | quiesceChannel (m : Msg) (channel : Byte)
  | rejoinChannel (m : Msg) (channel : Byte)
  | setChannelControl (m : Msg) (channel : Byte) (control : W64)
  | setLacePoint (m : Msg) (module : Byte) (rate : Byte) (half : Byte)
  | getRepairTable (m : Msg) (channel : Byte) (cursor : W32) (max : W32)
  | programKey (m : Msg) (keyId : W16) (flags : Byte) (ldMask : W32) (ckid : W16) (ld : Byte) (key : Key)
  | destroyKey (m : Msg) (keyId : W16)
  | slotDestructionComplete (keyId : BitVec 12)
  | queryKey (m : Msg) (keyId : W16)
  | setDefaultKey (m : Msg) (ld : Byte) (keyId : W16)
  | setKeyQuota (m : Msg) (ld : Byte) (quota : W16)
  | grantShare (m : Msg) (keyId : W16) (ldMask : W32)
  | getMarginReport (m : Msg)
  | setPortRate (m : Msg) (head : Byte) (maxRate : Byte)
  | compatRemap (m : Msg) (dpa : W64)
  | compatClear (m : Msg) (entry : Byte)
  | compatList (m : Msg)
  | driveRelease (m : Msg) (drive : Byte) (confirm : Byte)
  | driveRemove (m : Msg) (drive : Byte)
  | getTargetTspVersion (ld : Fin 32) (session : Fin 8)
  | getTargetCapabilities (ld : Fin 32) (session : Fin 8)
  | setTargetConfiguration (ld : Fin 32) (session : Fin 8) (ckidEnable : Bool)
  | getTargetConfiguration (ld : Fin 32) (session : Fin 8)
  | getTargetConfigurationReport (ld : Fin 32) (session : Fin 8)
  | lockTargetConfiguration (ld : Fin 32) (session : Fin 8)
  | setTargetCkidSpecificKey (ld : Fin 32) (session : Fin 8) (ckid : BitVec 13) (slot : BitVec 12) (key : Key)
  | setTargetCkidRandomKey (ld : Fin 32) (session : Fin 8) (ckid : BitVec 13) (slot : BitVec 12)
  | clearTargetCkidKey (ld : Fin 32) (session : Fin 8) (ckid : BitVec 13)
  | tspUnsupportedRequest (ld : Fin 32) (session : Fin 8) (opcode : Byte)
  | ideKmMessage (p : Fin 2) (session : Fin 8) (stream : Fin 6) (set : Bool) (km : IdeKm)
  | getVersion (m : Msg)
  | getCapabilities (m : Msg)
  | negotiateAlgorithms (m : Msg) (algsOk : Bool)
  | getDigests (m : Msg)
  | getCertificate (m : Msg) (slot : Byte)
  | challenge (m : Msg) (slot : Byte) (nonce : BitVec 256)
  | getMeasurements (m : Msg) (index : Byte) (signed : Bool)
  | keyExchange (m : Msg) (keyHash : BitVec 384)
  | finish (m : Msg) (sid : Fin 8) (authenticated : Bool)
  | keyUpdate (m : Msg) (sid : Fin 8)
  | heartbeat (m : Msg) (sid : Fin 8)
  | endSession (m : Msg) (sid : Fin 8)
  | vendorDefinedRequest (m : Msg) (serial : BitVec 512) (nonce : BitVec 256) (signature : List Byte)
  | mctpControlMessage (setEid : Option Byte) (reset : Bool)
  | doeDiscovery (ld : Fin 32) (index : Byte)
  | cdatTableAccess (ld : Fin 32) (entry : W16)
  | secureWatchdogExpiry
  | normalWatchdogExpiry
  | coreException (core : Fin 8)
  | secureWorldReady (activeOk : Bool) (otherOk : Bool) (inTime : Bool)
  | svnRaise (w : World)
  | ownerTableChange (page : BitVec 21) (o : PageOwner)
  | gateRequest (core : Fin 8) (b : HubBlock) (gated : Bool)
  | ownerViolation (r : Requester) (page : BitVec 21) (write : Bool) (line : Fin 64 := 0)
  | extest (boundary : BitVec 64)
  | idcode
  | samplePreload (boundary : BitVec 64)
  | clamp
  | highz
  | bypass (code : Byte)
  | eventArrival (events : List (BitVec 11 × Fin 4 × Option (Fin 32)))
  | insoleExportWrite
  | classReturn
  | aliveToggle
  | heartbeatLost
  | awlInjection (slot : Fin 16)
  | insoleExportEnable (head : Fin 4) (value : W64)
  | freezeAll (fn : Fin 36) (value : W64)
  | cpmuConfigWrite (fn : Fin 36) (unit : Fin 21) (counter : Fin 8) (cfg : CounterCfg)
  | sampleCfgWrite (fn : Fin 36) (p : Fin 2) (value : W64)
  | dumpRingEnable (fn : Fin 36) (value : W64)
  | periodicDump (fn : Fin 36)
  | avsPoll (ack : Bool) (mv : W16) (icore : W16)
  | thermalSensorRead (tj : Int)
  | xtalLoss
  | pllUnlock
  | channelPllUnlock (pair : Fin 6)
  | thermAlert
  | drivePresenceChange (n : Fin 4) (present : Bool)
  | priorityHoldEnd (master : Fin 39) (rowHold : Bool)
  | arbiterWaitAge (tag : BitVec 13)
  | pmicPowerGood (ch : Fin 12)
  | slotSupplySettled (ch : Fin 12) (dimms : List (Fin 2 × Dimm))
  | slotSupplyOff (ch : Fin 12)
  | driveLinkUp (n : Fin 4) (d : DriveInfo)
  | backgroundOperationDone (fn : Fin 36)
  | normalWorldReady
  | aonSupplyLoss
  | resetNRelease (b : BringUp)
  | changeDeferralTimeout (target : Fin 20)
  | msixVectorUnmask (fn : Fin 36) (vector : Fin 2048)
  | hdmDecoderCommit (ld : Fin 32) (n : Fin 4) (base : W64) (size : W64) (ways : Fin 17) (gran : W16)
  deriving DecidableEq, Repr

end Sys2Proof
end

