-- ==== Sys2Proof/Config.lean ====
section
/-! DEFINITION. What the part fixes and the spec leaves open. A constant without a body is a free value: no proof can see
what it is, so a statement about it holds whatever it is. The numbers of the spec stand as plain definitions. -/

namespace Sys2Proof.Config

/-- The AES-256 block cipher under one key, on 16-byte blocks (05 R96, R113, R116). The spec names it and gives none of its values; that it is a permutation
is all the model uses. DESIGN CHOICE, log 12. -/
opaque aes : BitVec 256 → Equiv.Perm (BitVec 128)

/-- The device root secret in fuses (05 R111), which the spec does not give. Log 13. -/
opaque drs : BitVec 256
/-- HMAC-SHA-256 of a message under a key (05 R111), 32 bytes. Log 13. -/
opaque hmac256 : BitVec 256 → List Byte → BitVec 256
/-- The n-th seed of the on-die entropy source (05 R116). Log 13. -/
opaque entropy : Nat → BitVec 384
/-- The n-th random number of the on-die entropy source: the nonce of 15 R387. Log 13. -/
opaque nonce : Nat → BitVec 256
/-- The n-th draw of the free-running LFSR of heat sampling (03 R55). Log 14. -/
opaque lfsr : Nat → W32
/-- The share of stage k of a sampled request's time (17 R415, log 117). -/
opaque stageShare : Nat → Nat → Nat
/-- The n-th value that the spec leaves open, 64 bits of it. Log 15. -/
opaque freeWord : Nat → W64
/-- The n-th byte that the spec leaves open. Log 15. -/
opaque freeByte : Nat → Byte
/-- The n-th line that the spec leaves open: the data that stands under poison. Log 15. -/
opaque freeLine : Nat → Line
/-- The n-th open choice between two outcomes. Log 15. -/
opaque freeBit : Nat → Bool
/-- SHA-384 over a list of bytes (15 R377), named by the spec and not given. Log 13. -/
opaque sha384 : List Byte → BitVec 384
/-- RAAIMT and RAAMMT of the modules that need refresh management: the SPD's values, which the spec does not give (07 R175). Log 47. -/
opaque raaimt : Nat
opaque raammt : Nat

/-- DATA of a training cache record: the training's own values (07 R170). Log 13. -/
opaque trainData : Nat → Nat → Byte
/-- The firmware's training revision (07 R170), which the spec does not give. Log 47. -/
opaque trainRev : Byte
/-- Whether an ECDSA P-384 signature by the vendor key verifies over a digest (15 R383, R387). Log 13. -/
opaque ecdsaOk : BitVec 384 → List Byte → Bool

/-- The vector of CPMU overflow, which the standard's message-number field names (12 R308, 17 R412). Log 64. -/
opaque cpmuVector : Fin 16
/-- Cycles of a channel controller's clock after a device time at a data rate; the spec does not give that clock (17 R408). Log 65. -/
opaque channelCycles : Nat → Nat → Nat
/-- Whether the host of a head has enabled CXL Viral; the standard's control bit, which the spec does not place (16 R393). Log 70. -/
opaque viralEnabled : Nat → Bool
/-- Where the capability chain of a function has the Palfa DVSEC (12 R302: software finds it by walking). Log 63. -/
opaque dvsecAt : Nat
/-- Its next pointer. Log 63. -/
opaque dvsecNext : BitVec 12
/-- Where the capability chain of a function has the standard's DVSECs, by DVSEC ID (12 R301). Log 63. -/
opaque dvsecOf : Nat → Nat

/-- Effects word of an opcode in the Command Effects Log: the standard's, which the spec does not give (14 R341). Log 44. -/
opaque celEffect : Nat → W16
/-- Digest of the boot ROM, block 1 of 15 R384, which the spec does not give. Log 13. -/
opaque bootRomDigest : BitVec 384
/-- Digest of the fuse configuration, the fused SVNs and the life-cycle state, block 2 of 15 R384. Log 13. -/
opaque fuseDigest : W32 → W32 → Nat → BitVec 384
/-- Digest of the bytes of the board configuration block, block 6 of 15 R384. Log 13. -/
opaque boardDigest : Option Board → BitVec 384
/-- The serial number of the device (15 R387), which the spec does not give. Log 82. -/
opaque serial : BitVec 512

/-- Members of a Welt group on the EV8840 (00 R8). -/
def wFull : Nat := 12
/-- Members of a Welt group on the EV8820 (00 R3). -/
def wHalf : Nat := 6
/-- Tracker tags per port (01 R21). -/
def tagsPerPort : Nat := 2048
/-- Migration trackers, and those kept for promotions (02 R50). -/
def trackers : Nat := 256
def promoTrackers : Nat := 32
/-- Groups of the shadow queue area (02 R40). -/
def queueGroups : Nat := 6554
/-- Entries of the shadow queue (09 R215). -/
def shadowQueueMax : Nat := 16777216
/-- Merge buffer entries, and those the Welt engine may hold (06 R139). -/
def mergeEntries : Nat := 512
def mergeWelt : Nat := 128
/-- Lines of the parity cache (06 R135). -/
def parityLines : Nat := 393216
/-- Sets and ways of the Last cache (02 R43). -/
def lastSets : Nat := 131072
def lastWays : Nat := 16
/-- Entries of the read-promotion queue (03 R59). -/
def promoQueueMax : Nat := 4096
/-- Entries of one candidate bucket (03 R57). -/
def bucketMax : Nat := 8192
/-- Frame exception table entries (06 R146). -/
def exceptionMax : Nat := 16384

/-- The hash that selects the set of a parity cache line from its group and its line offset; not given (06 R135; log 24). -/
opaque parityHash : Nat → Nat → Nat
/-- The set of the L2 that a line of a page of internal memory maps to; not given (15 R371; log 128). -/
opaque l2Set : Nat → Nat → Nat
/-- 24 h, 7 days and 30 days in device time (06 R144, R145). -/
def nsHour : Nat := 3600000000000
def nsDay : Nat := 86400000000000
def nsMs : Nat := 1000000
def nsUs : Nat := 1000

end Sys2Proof.Config
end

