-- ==== Sys2Proof/Machine/State.lean ====
section
/-! DEFINITION. The state of the block as plain data: every register, table, queue, mode and pin the spec gives it, and the
queue of waiting commands. Sparse tables are lists of key and value in one canonical form (keys strictly rising, no entry
equal to what an unlisted key reads as); the operations on them are in Machine/Ops.lean. -/

namespace Sys2Proof.Machine

/-- A sparse table. -/
abbrev Tab (β : Type) := List (Nat × β)

/-- Severity classes (16 R391). -/
inductive Class where
  | info | degrade | severe | fatal
  deriving DecidableEq, Repr

/-! ### The Last table (02) -/

/-- STATE of a Last entry (02 R30). -/
inductive PState where
  | unwritten | zero | hot | warm | inMotion | restoring | lost
  deriving DecidableEq, Repr

/-- A CHUNK field (02 R30). -/
structure Chunk where
  off : BitVec 6
  cnt : BitVec 5
  deriving DecidableEq, Repr

/-- A Last entry (02 R30). -/
structure LastEntry where
  state : PState
  span : Bool
  dirty : Bool
  pinned : Bool
  durable : Bool
  heat : Byte
  owner : BitVec 12
  key : BitVec 12
  gen : Byte
  frame : Frame
  c0 : Chunk
  c1 : Chunk
  c2 : Chunk
  c3 : Chunk
  deriving DecidableEq, Repr

/-- KIND of a frame record (02 R42). -/
inductive FKind where
  | free | hot | bin | metadata | retired | spare
  deriving DecidableEq, Repr

/-- A frame record (02 R42). -/
structure FrameRec where
  map : W64
  dpns : List Dpn
  kind : FKind
  owner : BitVec 12
  deriving DecidableEq, Repr

/-- A capacity map entry (02 R25), with the tag of its extent. -/
structure MapEntry where
  ldBase : W32
  devBase : W32
  pages : W32
  valid : Bool
  shared : Bool
  poisonUnw : Bool
  durable : Bool
  dc : Bool
  region : Fin 8
  tag : BitVec 128
  deriving DecidableEq, Repr

/-- One way of a Last cache set (02 R43, R45). -/
structure Way where
  dpn : Dpn
  isSpan : Bool
  entry : LastEntry
  modified : Bool
  deriving DecidableEq, Repr

/-- A set: its 16 ways and the 15 tree bits of its pseudo-LRU (02 R43). -/
structure CacheSet where
  ways : Tab (Option Way)
  tree : BitVec 16
  deriving DecidableEq, Repr

/-- What has been coded for one chunk of a demotion: COUNT and its granules in plaintext; a poisoned line of a raw chunk is none. -/
structure Coded where
  cnt : BitVec 5
  granules : List (Option Line)
  deriving DecidableEq, Repr

/-- A migration tracker (02 R50 to R54). `place` holds the chunk fields at a warm destination, `recode` the chunks not yet
written there; `urgent` is the class of its traffic and jobs (03 R71). -/
structure Tracker where
  dpn : Dpn
  kind : MigKind
  source : LastEntry
  dest : Option Frame
  place : List Chunk
  gen : Byte
  map : W64
  round : Nat
  urgent : Bool
  holdWrites : Bool
  coded : Tab (Option Coded)
  recode : BitVec 4
  mismatched : BitVec 4
  flipped : Bool
  deriving DecidableEq, Repr

/-- `waiting` are the migrations that found no tracker free and wait for one (02 R50), with the frame the allocator begins at. -/
structure Last where
  hostPages : Nat
  maps : Tab (List MapEntry)
  table : Tab LastEntry
  frames : Tab FrameRec
  cache : Tab CacheSet
  modified : Nat
  missq : List Dpn
  trackers : Tab (Option Tracker)
  waiting : List (Dpn × MigKind × Frame)
  deriving DecidableEq, Repr

/-! ### Stored lines (06) -/

/-- A line as stored: data and side bits (06 R123). -/
structure Raw where
  data : Line
  side : Side
  deriving DecidableEq, Repr

structure Dram where
  data : List Host.Cell
  side : Tab Side
  deriving DecidableEq, Repr

/-! ### Host requests (01) -/

/-- Where a request in the tracker stands. -/
inductive Phase where
  | miss | line | chunk | decode | rebuild | merge | order | tie | promote | frame | window | copyHold | mergeFull
  deriving DecidableEq, Repr

/-- The sample record that a request is chosen for (17 R415), without its stage times: the function whose ring takes it, SEQ, TIME,
HPA, STATE and LAST_HIT at lookup, REBUILD. -/
structure Sample where
  fn : Nat
  port : Nat
  seq : W32
  time : Nat
  hpa : W64
  state : Nat
  hit : Bool
  rebuilt : Bool
  deriving DecidableEq, Repr

/-- A host request in the request tracker (01 R19 to R21; 02 R51, R52). -/
structure Req where
  tag : BitVec 13
  head : Fin 4
  ld : Fin 32
  dpn : Dpn
  line : Fin 64
  gen : Byte
  key : Option (BitVec 12)
  poisonUnw : Bool
  shared : Bool
  durable : Bool
  write : Option Line
  be : W64
  poison : Bool
  phase : Phase
  sampled : Bool
  got : List (Option Raw)
  frame : Frame
  off : Nat
  cnt : Nat
  raw : Bool
  hint : Frame
  smp : Option Sample
  deriving DecidableEq, Repr

/-- A write buffer line (06 R130), held in two banks that agree. -/
structure WbEntry where
  dpn : Dpn
  line : Fin 64
  data : Line
  poison : Bool
  ld : Option (Fin 32)
  deriving DecidableEq, Repr

/-- A merge buffer entry (06 R138). -/
structure MergeEntry where
  dpn : Dpn
  line : Fin 64
  data : Line
  be : W64
  filled : Bool
  entered : Bool
  ld : Fin 32
  tags : List (BitVec 13)
  deriving DecidableEq, Repr

/-- A request in the regulation arbiter or a channel queue (11 R279, 07 R177). -/
structure ChanReq where
  tag : BitVec 13
  master : Fin 39
  priority : Fin 8
  rt : Bool
  write : Bool
  frame : Frame
  line : Fin 64
  count : Nat
  aged : Bool
  moved : W64 := 0
  deriving DecidableEq, Repr

/-- A request that a port has received and that finds no tracker tag free: it waits in the port, which withholds its credit (01 R21; 12 R290, R296). -/
structure HeldReq where
  a : Access
  write : Option Line
  be : W64
  poison : Bool
  deriving DecidableEq, Repr

structure PathSt where
  rr : Fin 4
  reqs : List Req
  held : List HeldReq
  wbuf : List WbEntry
  merge : List MergeEntry
  fenced : Bool
  deriving DecidableEq, Repr

/-! ### Tiers (03) -/

structure TierPolicy where
  sampleShift : Nat
  promoteThreshold : Nat
  decayMs : Nat
  demoteMaxHeat : Nat
  demoteMinGain : Nat
  deriving DecidableEq, Repr

structure TierWatermark where
  freeHigh : Nat
  freeLow : Nat
  pressure : Nat
  reserve : Nat
  pinLimit : Nat
  deriving DecidableEq, Repr

structure TierRate where
  sweepBw : Nat
  releaseRetryMs : Nat
  deriving DecidableEq, Repr

/-- `reserved` are the aligned 512-page blocks whose frames the allocator keeps in channel order for a run of first writes, with the
frame of page 0 (02 R47); `emergencyBin` is the bin of the emergency demotion under way (03 R66); `sweepDirty` says that the sweep has changed the table line it stands in (03 R56). -/
structure Tier where
  policy : TierPolicy
  watermark : TierWatermark
  rate : TierRate
  freeFrames : Nat
  poolFrames : Nat
  exhausted : Bool
  releasePending : Bool
  effectiveDecay : Nat
  pinnedPages : Nat
  counts : Tab W64
  buckets : Tab (List Dpn)
  promoQueue : List Dpn
  emergencyBins : Nat
  emergencyBin : Option Frame
  setPointer : Nat
  demoting : Bool
  sweepPos : Nat
  passStart : Nat
  decayCarry : Nat
  passShift : Nat
  heatMapWork : Tab Byte
  reserved : Tab (Option Frame)
  sweepDirty : Bool
  release : List (Fin 32 × BitVec 128 × W32)
  deriving DecidableEq, Repr

/-! ### Codec (04) -/

/-- An entry of the repair table (04 R91). `granule` marks an entry made for one granule of a raw chunk. -/
structure RepairJob where
  dpn : Dpn
  chunk : Fin 4
  gen : Byte
  granule : Option (Fin 16)
  deriving DecidableEq, Repr

/-- The user of a codec job (04 Table — Engine priority). The rows that Table — Engine priority gives and that are not here are carried out within one
command, for which a free engine must stand. -/
inductive CodecUser where
  | urgentDemotion | demotion
  | hostRead (tag : BitVec 13) | writePromotion | promotion
  | harden (q : BitVec 20) (id : W16) | compressOut (q : BitVec 20) (id : W16)
  deriving DecidableEq, Repr

/-- A codec job, waiting or on its engine (04 R87, R88, R93, R94). `since` numbers the starts on engines; `avoid` is the engine that may not code the
chunk again (04 R89). -/
structure CodecJob where
  user : CodecUser
  engine : Option (Fin 26)
  since : Nat
  generation : Byte
  avoid : Option (Fin 26)
  dpn : Dpn
  chunk : Nat
  owner : BitVec 12
  key : BitVec 12
  deriving DecidableEq, Repr

/-- `jobs` stand in the order in which they came; `late` are the jobs that a fence took from their engines, whose old results may still arrive (04 R94);
`holds` is OWNER and KEY_ID of the job whose data stand in an engine's buffers (04 R93). -/
structure Codec where
  fenced : BitVec 26
  errors : BitVec 26
  repair : List RepairJob
  counts : Tab W64
  jobs : List CodecJob
  starts : Nat
  late : List CodecJob
  holds : Tab (Option (BitVec 12 × BitVec 12))
  deriving DecidableEq, Repr

/-! ### Keys (05) -/

inductive SlotState where
  | empty | loaded | destroyed
  deriving DecidableEq, Repr

/-- A key slot (05 R105, R113, R116, R119, R120). -/
structure KeySlot where
  state : SlotState
  key : Key
  persistent : Bool
  mask : W32
  programmer : Byte
  pages : Nat
  grant : W32
  destroying : Bool
  waiters : List Msg
  tspWaiters : List (Fin 32)
  wrapped : Bool
  zeroSerial : Option Nat
  zeroEpoch : Option Nat
  resumed : Option Nat
  deriving DecidableEq, Repr

/-- The CKID set-up of one LD (05 R106, R117). -/
structure Tsp where
  enabled : Bool
  locked : Bool
  ckids : Tab (Option (BitVec 12))
  deriving DecidableEq, Repr

/-- An IDE stream of a port (05 R121): its two key sets, the one in use, none while the stream is insecure, and the mode of CXL.cachemem. -/
structure IdeStream where
  setA : Option (BitVec 256)
  setB : Option (BitVec 256)
  active : Option Bool
  containment : Bool
  deriving DecidableEq, Repr

/-- `kekValid` says that the KEK of DKE stands in the key store; `drbg` is the state of the CTR_DRBG, Key and V, none while it holds zeros. -/
structure Keys where
  slots : Tab KeySlot
  defaultKey : Tab (BitVec 12)
  tsp : Tab Tsp
  quota : Tab Nat
  dke : W32
  kekValid : Bool
  drbg : Option (BitVec 384)
  ide : Tab IdeStream
  deriving DecidableEq, Repr

/-! ### Welt (06) -/

/-- Member state of a unit map entry (06 R151). -/
inductive Member where
  | current | stale | spared (ordinal : Nat) | withdrawn
  deriving DecidableEq, Repr

inductive RowState where
  | free | candidate | hard | repaired | relocating | retired
  deriving DecidableEq, Repr

/-- Repair-candidate entry (06 R143). -/
structure RowEntry where
  firstTime : W64
  lastTime : W64
  row : BitVec 18
  ranksel : BitVec 6
  bank : BitVec 5
  state : RowState
  count : Byte
  mask : BitVec 20
  deriving DecidableEq, Repr

/-- A parity cache line (06 R135). -/
structure ParityLine where
  group : BitVec 28
  line : Fin 64
  way : Fin 16
  raw : Raw
  dirty : Bool
  deriving DecidableEq, Repr

/-- WELT_UNITn with its unit map (06 R151, R161); `base` is the state of every group the map does not list, `exhausted` says that
its rebuild has run out of spare frames once, `left` that a member was left STALE (06 R153); `repair` is the row that it is out for (R145), `copies` the spare
ordinals that hold the two copies of the map (R151). -/
structure UnitSlot where
  channel : Fin 12
  wholeChannel : Bool
  ranksel : BitVec 3
  cause : Fin 3
  state : Fin 7
  progress : Nat
  exhausted : Bool
  left : Bool := false
  repair : Option Nat := none
  base : Member
  map : Tab (Option Member)
  copies : List Nat := []
  deriving DecidableEq, Repr

/-- The unit record of the XSPI flash (06 R460). -/
structure UnitRecord where
  channel : Fin 12
  wholeChannel : Bool
  ranksel : BitVec 3
  cause : Fin 3
  dimm0 : W64
  dimm1 : W64
  deriving DecidableEq, Repr

/-- A 4410 compatibility entry (06 R147). -/
structure Compat where
  dpa : W64
  raw : Raw
  deriving DecidableEq, Repr

/-- A rebuilt line whose write-back waits until the request that it was rebuilt for has been answered (01 R14), or, with no tag, whose place a buffered
host write takes (06 R141). -/
structure WriteBack where
  frame : Frame
  line : Fin 64
  raw : Raw
  tag : Option (BitVec 13)
  deriving DecidableEq, Repr

/-- A row that failed: channel, place and time; kept for 1 s (06 R150). -/
structure RowFail where
  channel : Nat
  ranksel : BitVec 6
  bank : BitVec 5
  row : Nat
  time : Nat
  deriving DecidableEq, Repr

/-- For whom a rebuild runs (06 R140 to R142). -/
inductive RebuildFor where
  | request (tag : BitVec 13)
  | scrub
  | unit
  deriving DecidableEq, Repr

/-- A rebuild in progress: the line as read. -/
structure Rebuild where
  frame : Frame
  line : Fin 64
  asRead : Raw
  err : Bool
  forWhom : RebuildFor
  deriving DecidableEq, Repr

structure WeltPolicy where
  scrubDays : Nat
  sparePermille : Nat
  quietPct : Nat
  rebuildBw : Nat
  ecsLimit : Nat
  deriving DecidableEq, Repr

structure Welt where
  policy : WeltPolicy
  spareFrames : Nat
  counts : Tab W64
  units : Tab (Option UnitSlot)
  records : List UnitRecord
  rows : Tab RowEntry
  exceptions : List (Frame × Option Nat)
  compat : Tab (Option Compat)
  mirror : List Nat
  pcache : List ParityLine
  ptree : Tab (BitVec 16)
  fails : List RowFail
  rebalance : Option (Fin 12)
  rebuilds : List Rebuild
  backs : List WriteBack
  verifies : List (Frame × Fin 64 × Raw)
  scrubPos : Nat
  deriving DecidableEq, Repr

/-! ### DDR5 channels (07) -/

/-- A row tracked in a bank's hot-row table (07 R176). -/
structure HotRow where
  bank : Nat
  row : Nat
  count : Nat
  mitigations : Nat
  spaced : Bool
  last : Nat := 0
  deriving DecidableEq, Repr

/-- A training cache record (07 R170). DATA is the training's own: a free value, named by its index. `sound` says that MAGIC, VERSION, CHANNEL and CRC of
the flash copy match. -/
structure TrainRecord where
  dimm0 : W64
  dimm1 : W64
  rate : Nat
  temp : Byte
  trainRev : Byte
  hours : W32
  data : Nat := 0
  sound : Bool := true
  deriving DecidableEq, Repr

structure DdrControl where
  fgr : Bool
  sameBank : Bool
  relocateEn : Bool
  relocateAfter : Nat
  actWarn : Nat
  actMitigate : Nat
  rateCap : Nat
  deriving DecidableEq, Repr

/-- Where the slot power sequence of a channel stands (07 R182). -/
inductive SlotStep where
  | off | parking | powering | spdRead | powered
  deriving DecidableEq, Repr

/-- A channel (07). The queue holds what the controller has taken (R177), `incoming` what waits in the Lace receive pool for a place in it; `current` is the
command being served, `batch` the writes served in the present batch, `rows` the open row of each bank. `alerts` are the times of a rank's last alerts. -/
structure Chan where
  dimms : Tab (Option Dimm)
  rate : Nat
  frames : Nat
  control : DdrControl
  state : Fin 5
  cached : Bool
  pwrEn : Bool
  present : Bool
  full : Bool
  hotRefresh : Bool
  rfm : Bool
  temp : Byte
  tfawDoubled : Bool
  owed : Tab Nat
  alerts : Tab (List Nat)
  failures : Tab Nat
  unusable : BitVec 32
  noSpares : List (BitVec 6 × BitVec 5 × Fin 20)
  hotRows : List HotRow
  raa : Tab Nat
  queue : List ChanReq
  incoming : List ChanReq
  current : Option (BitVec 13 × Bool)
  batch : Nat
  rows : Tab (Option Nat)
  drfm : Bool
  selfRefresh : Bool
  refBank : Tab Nat
  slotStep : SlotStep
  record : Option TrainRecord
  pendingRate : Option Nat
  oldRate : Nat
  rateDeferred : Option (Msg × DdrControl)
  quiesceWait : Option Msg
  rejoinWait : Option Msg
  counts : Tab W64
  deriving DecidableEq, Repr

structure Ddr where
  chans : Tab Chan
  populationOk : Bool
  mcuRestarts : Nat
  mcuDown : BitVec 2
  i2c : BitVec 6
  deriving DecidableEq, Repr

/-! ### Lace (08) -/

/-- Class of a link message (08 R192). -/
inductive LClass where
  | req | rsp
  deriving DecidableEq, Repr

/-- A link message that waits to be sent (08 R192): its slots, and the channel that it belongs to. -/
structure LinkMsg where
  cls : LClass
  channel : Option (Fin 12)
  slots : List (BitVec 128)
  deriving DecidableEq, Repr

/-- A DATA flit in a replay buffer (08 R193), with the messages that it carries. -/
structure SentFlit where
  seq : Nat
  cls : LClass
  msgs : List LinkMsg
  deriving DecidableEq, Repr

/-- One end of a Lace module (08 R193 to R202): its sender's sequence, replay buffer and credits, and its receiver's pool. `peer…`
is the occupancy last reported by the other end, `cont…` the slots of a message that continue in the next flit of the class. -/
structure LaceSide where
  nextSeq : Nat
  replay : List SentFlit
  ready : List LinkMsg
  expected : Nat
  uReq : Nat
  uRsp : Nat
  occReq : Nat
  occRsp : Nat
  incReq : Nat
  incRsp : Nat
  peerReq : Nat
  peerRsp : Nat
  contReq : Nat
  contRsp : Nat
  nakAt : Option Nat
  sinceAck : Nat
  leak : Nat
  leakRun : Bool
  timeouts : Nat
  crcTimes : List Nat
  trainSeen : Bool
  synced : Bool
  deriving DecidableEq, Repr

structure LaceMod where
  hub : LaceSide
  die : LaceSide
  state : Fin 5
  carryAll : Bool
  rate : Fin 3
  half : Bool
  version : Nat
  lanesRepaired : Nat
  returnAttempts : Nat
  leakScheduled : Bool
  failedRetrains : Nat
  pendingPoint : Option (Fin 3 × Bool)
  pointWait : Option (Msg × Fin 3 × Bool)
  handoverSeen : Nat
  returnSeen : Nat
  soaking : Bool
  returning : Bool
  returnSent : Bool
  margin : Nat
  events : List W16
  commands : List (BitVec 13 × Fin 12 × ChanCmd)
  counts : Tab W64
  deriving DecidableEq, Repr

structure Lace where
  mods : Tab LaceMod
  versionFault : Bool
  lost : BitVec 2
  deriving DecidableEq, Repr

/-! ### Insole records (16) -/

inductive RecKind where
  | event | lossRange | security | reset | config
  deriving DecidableEq, Repr

/-- An Insole record (16 R404); DETAIL as a list of values in the order of Table — Record detail. -/
structure InsoleRec where
  seq : W32
  kind : RecKind
  inj : Bool
  sameCycle : Bool
  firstFault : Bool
  escalated : Bool
  fenced : Bool
  dry : Bool
  source : W16
  time : Nat
  cls : Class
  clsAfter : Class
  ld : Option (Fin 32)
  detail : List Nat
  deriving DecidableEq, Repr

/-! ### Shank and the image (09) -/

inductive QKind where
  | changed | tombstone
  deriving DecidableEq, Repr

/-- A shadow queue entry (09 R215); `serial` numbers the entries, so that the entries of a moment are known later (05 R120). -/
structure QEntry where
  dpn : Dpn
  kind : QKind
  serial : Nat
  deriving DecidableEq, Repr

/-- FORM of a page record (09 R244). -/
inductive Form where
  | hot | warm | zero | unwritten | lost
  deriving DecidableEq, Repr

/-- A page record (09 R244): header fields and the granules of its payload. -/
structure Record where
  form : Form
  pinned : Bool
  hardened : Bool
  lap : Bool
  gen : Byte
  heat : Byte
  dpn : Dpn
  key : BitVec 12
  owner : BitVec 12
  epoch : Nat
  lsn : Nat
  counts : List (BitVec 5)
  granules : List Line
  poisonMap : W64
  bad : Bool
  deriving DecidableEq, Repr

/-- KIND of an epoch log entry (09 R241). -/
inductive CloseKind where
  | close | saveClose | hardenClose
  deriving DecidableEq, Repr

structure EpochEntry where
  epoch : Nat
  kind : CloseKind
  records : Nat
  lsnFirst : Nat
  lsnEnd : Nat
  tailLsn : Nat
  time : Nat
  deriving DecidableEq, Repr

/-- A superblock copy (09 R239). -/
structure Superblock where
  formatVersion : Nat
  layout : Fin 3
  drives : Nat
  dke : W32
  seq : Nat
  tag : BitVec 128
  driveIds : List (BitVec 128)
  blocks : Nat
  clean : Bool
  degraded : Bool
  saveFailed : Bool
  shutdownState : Byte
  copies : BitVec 3
  failedDrive : Byte
  lastClosed : Nat
  tailLsn : Nat
  headLsn : Nat
  dsc : W32
  rebuildIb : Nat
  time : Nat
  voids : List (Nat × Nat)
  deriving DecidableEq, Repr

/-- Wrapped key entry (05 R113); `wrapped` are the nine semiblocks of WRAPPED. -/
structure KeyWrap where
  keyId : BitVec 12
  destroyed : Bool
  programmer : Byte
  mask : W32
  dke : W32
  wrapped : List W64
  deriving DecidableEq, Repr

/-- A region table entry (09 R242). -/
structure RegionEntry where
  devDpn : W32
  pages : W32
  addedLsn : Nat
  region : Option (Fin 8)
  ld : Fin 32
  shared : Bool
  poisonUnw : Bool
  tag : BitVec 128
  deriving DecidableEq, Repr

/-- The image on the drives (09 R238): it survives every reset and power loss. `regionsOld` and `heatOld` are the copies that are
not current. -/
structure Image where
  supA : Option Superblock
  supB : Option Superblock
  keyWrapSeq : Nat
  keyWrap : List KeyWrap
  regionSeq : Nat
  regions : List RegionEntry
  regionsOld : List RegionEntry
  heatSeq : Nat
  heat : Tab Byte
  heatOld : Tab Byte
  epochs : List EpochEntry
  log : List Record
  insole : List InsoleRec
  deriving DecidableEq, Repr

/-- SHADOW_DRIVEn and what the device knows of drive n (09 R234 to R237, R248). -/
structure Drive where
  state : Fin 5
  x8 : Bool
  speed : Fin 8
  position : Nat
  rate : Nat
  rebuilt : Nat
  blocks : Nat
  nguid : BitVec 128
  fit : Bool
  written : Nat
  margin : Nat
  perst : Bool
  prsnt : Bool
  commands : List Nat
  deriving DecidableEq, Repr

structure ShadowPolicy where
  epochMs : Nat
  gpfTimeoutMs : Nat
  softPct : Nat
  lapHours : Nat
  rebuildBw : Nat
  deriving DecidableEq, Repr

/-- A record write on its way to the drives, with what it counts in DIRTY_BYTES. -/
structure RecWrite where
  page : Record
  amount : Nat
  deriving DecidableEq, Repr

structure Shank where
  policy : ShadowPolicy
  window : Nat
  rFlush : Nat
  rFlushLog : List (Option Nat)
  capMf : Nat
  vbankMv : Nat
  eUsableMj : Nat
  probed : Bool
  probeFail : Bool
  storedCapMf : Option Nat
  probeT40 : Option Nat
  probeDone : Bool
  lastSample : Nat
  vSamples : List Nat
  short : Bool
  logLow : Bool
  logFull : Bool
  lastClosed : Nat
  noticeState : Fin 4
  queue : List QEntry
  serial : Nat
  epoch : Nat
  epochEnded : List Nat
  epochRecords : Tab Nat
  epochFirst : Tab Nat
  headLsn : Nat
  segRecords : Nat
  voids : List (Nat × Nat)
  voidBlocks : Nat
  tailLsn : Nat
  lapPos : Nat
  lapStart : Nat
  prevLapStart : Nat
  regionDirty : Bool
  writes : List RecWrite
  drives : Tab Drive
  members : List (Fin 4)
  failedMember : Option (Fin 4)
  imageExists : Bool
  imageBlocks : Nat
  firstLap : Bool
  shutdownState : Byte
  dsc : W32
  saveStep : Nat
  emergency : Bool
  saveFailed : Bool
  gpfHeads : BitVec 4
  savedParity : Bool
  saveDone : Bool
  pwrfailLow : Bool
  harden : List (BitVec 20 × W16 × Nat)
  counts : Tab W64
  deriving DecidableEq, Repr

/-! ### Resume (10) -/

inductive ExtState where
  | pending | running | restored
  deriving DecidableEq, Repr

/-- A durable extent under restore (10 R258, R263): its region table entries, one for each LD; the static partition is one extent. -/
structure RExtent where
  entries : List RegionEntry
  state : ExtState
  deriving DecidableEq, Repr

structure Resume where
  restorePct : Nat
  upspeedDelayS : Nat
  level : Fin 4
  image : Fin 7
  incomplete : Bool
  degraded : Bool
  noHeat : Bool
  initDone : Bool
  truncated : Bool
  pagesDone : Nat
  pagesTotal : Nat
  lostPages : Nat
  revertedPages : Nat
  tableZeroed : Bool
  initGroups : Nat
  imageStep : Nat
  ec : Nat
  lsnEnd : Nat
  index : List (Dpn × Record)
  extents : List RExtent
  priority : List PriorityReq
  losses : List (Dpn × Nat × Bool)
  upspeed : Tab Nat
  heat : Tab Byte
  deriving DecidableEq, Repr

/-! ### Regulation (11) -/

/-- Settings and running figures of one master (11 R272, R278, R287). Rates in 0.25 GB/s; charge in bytes. -/
structure Master where
  outstanding : Nat
  priority : Fin 8
  rt : Bool
  minRead : Nat
  minWrite : Nat
  budget : Nat
  pending : Option W64
  charge : Nat
  interval : Nat
  overBudget : Bool
  overLast : Bool
  holdRow : Bool
  holdSoft : Bool
  inflight : Nat
  deriving DecidableEq, Repr

structure Regul where
  masters : Tab Master
  optimalPct : Nat
  moderatePct : Nat
  ageUs : Nat
  usable : Nat
  scale : Nat
  lastTotal : Nat
  arbiter : List ChanReq
  /-- The master served last in class 3 at priority p, entry p, and in class 4, entry 8 (11 R279). -/
  rr : Tab Nat
  telemetry : Tab Byte
  counts : Tab W64
  deriving DecidableEq, Repr

/-! ### Ports and LDs (12) -/

structure Head where
  up : Bool
  link : Option LinkState
  l0p : Nat
  maxRate : Nat
  viral : Bool
  rateWait : Option (Nat × Msg)
  deriving DecidableEq, Repr

structure HdmDecoder where
  base : W64
  size : W64
  ways : Nat
  gran : Nat
  deriving DecidableEq, Repr

/-- State of one function: LDs 0 to 31 and, at 32 + h, the FM-owned LD of head h (12 R289). -/
structure Func where
  head : Option (Fin 4)
  allocation : Nat
  bound : Bool
  hdm : Tab (Option HdmDecoder)
  mask : Tab Bool
  msixPending : Tab Bool
  cdatSeq : Nat
  regs : Tab W64
  deriving DecidableEq, Repr

structure Port where
  heads : Tab Head
  funcs : Tab Func
  perstLow : BitVec 2
  deriving DecidableEq, Repr

/-! ### Page operation queues (13) -/

inductive QState where
  | free | active | error | draining
  deriving DecidableEq, Repr

/-- A descriptor read and not yet completed. `pos` is how far its operation has come in its range, `bufPos` in its buffer; `acting` says
that the page at `pos` is in a migration that the operation started, `waits` that a HARDEN_CLOSE is awaited; `passed` are the keys with which the
pages of the piece it stands at have passed their checks (05 R119), `out` is what COMPRESS_OUT at levels 1 to 9 has coded (04 R88). -/
structure Exec where
  id : W16
  d : Descriptor
  started : Bool
  held : Bool
  pos : Nat
  bufPos : Nat
  acting : Bool
  dataLost : Bool
  waits : Bool
  passed : List (BitVec 12)
  out : List Byte
  finished : Option (W16 × W32)
  deriving DecidableEq, Repr

/-- A queue context (13 R313); `failed` says that a DMA of its rings has failed (R333). -/
structure QueueCtx where
  sqBase : W64
  cqBase : W64
  pasid : Option (BitVec 20)
  ld : Fin 32
  log2 : Nat
  state : QState
  sqTail : Nat
  sqFetch : Nat
  cqTail : Nat
  cqPhase : Bool
  vector : W16
  coalCount : Nat
  coalTime : Nat
  done : W64
  opened : Nat
  pendingInts : Nat
  execs : List Exec
  nextId : W16
  failed : Bool
  destroyer : Option Msg
  deriving DecidableEq, Repr

/-- Per-LD POQ state (13 R337); `rr` is the queue after which the next free slot looks (R334). -/
structure PoqLd where
  quota : Nat
  weight : Nat
  queues : Nat
  rr : Nat
  binds : Tab (Fin 4 × BitVec 20)
  counts : Tab W64
  deriving DecidableEq, Repr

/-- `cached` are the ways of the context cache, each with a queue index and whether its context is modified; `tree` is the pseudo-LRU. -/
structure Poq where
  ctxs : Tab (Option QueueCtx)
  lds : Tab PoqLd
  cached : Tab (Option (BitVec 20 × Bool))
  tree : BitVec 8192
  deriving DecidableEq, Repr

/-! ### Command channels (14) -/

/-- An Eyelet channel (14 R347 to R351). `orphans` are commands in execution when the LD was reset: they finish and write nothing. -/
structure EyeCh where
  overrun : Bool
  taken : W16
  done : W16
  enable : Bool
  notice : Option (W64 × Option (BitVec 20))
  reading : List (W64 × Option (BitVec 20))
  running : List (CmdBlock × W64 × Option (BitVec 20))
  orphans : List CmdBlock
  deriving DecidableEq, Repr

/-- Event ring and command state of one LD (14 R352, R363, R359). -/
structure CmdLd where
  ringLog2 : Nat
  ringEnable : Bool
  ringBase : W64
  vector : W16
  head : Nat
  tail : Nat
  overflow : Bool
  phase : Bool
  seq : W32
  version : Nat
  background : Option (W16 × Bool)
  alert : BitVec 96
  policy : W32
  timeOffset : W64
  eyeCounts : Tab W64
  deriving DecidableEq, Repr

/-- A management lock (14 R355). -/
structure Lock where
  holder : Option (Fin 34)
  fmVia : Option (Fin 4)
  leaseEnd : Nat
  deriving DecidableEq, Repr

/-- Configuration of a dynamic-capacity region. -/
structure DcRegion where
  durable : Bool
  blockSize : W64
  sanitize : Bool
  deriving DecidableEq, Repr

/-- A change that removes capacity and waits for the requests to it (12 R311): the command, unless a restart has answered it (15 R382),
the
entries taken out of the maps, and those that other LDs receive once the pages have returned to UNWRITTEN (02 R27). -/
structure Removal where
  m : Option Msg
  op : Nat
  entries : List (Fin 32 × MapEntry)
  follow : List (Fin 32 × MapEntry)
  deriving DecidableEq, Repr

/-- Inject Poison (no data) or Clear Poison under way: its line, and the place where the allocator looks (14 R341). -/
structure LineJob where
  m : Msg
  op : Nat
  ld : Fin 32
  dpa : Nat
  data : Option Line
  deriving DecidableEq, Repr

structure Cmd where
  eyes : Tab EyeCh
  lds : Tab CmdLd
  locks : Tab Lock
  lockPtr : Fin 34
  owner : Option (BitVec 384)
  bmcVersion : Nat
  eid : Byte
  regions : Tab DcRegion
  adds : List (Fin 32 × Extent)
  offers : List (Fin 32 × RegionEntry)
  declined : List (Fin 32 × RegionEntry)
  removals : List Removal
  lineJobs : List LineJob
  logs : Tab (List (Nat × Nat))
  deriving DecidableEq, Repr

/-! ### Control processors (15) -/

inductive WState where
  | up | restarting | down
  deriving DecidableEq, Repr

/-- A SPDM secured session. -/
structure Session where
  ld : Option (Fin 32)
  owner : Bool
  keyHash : BitVec 384
  finished : Bool
  keys : Nat
  deriving DecidableEq, Repr

structure LifeCycle where
  manufacture : Bool
  rma : Bool
  deriving DecidableEq, Repr

/-- A line of internal memory in the L2 (15 R371). -/
structure L2Line where
  page : BitVec 21
  line : Fin 64
  dirty : Bool
  deriving DecidableEq, Repr

structure WorldsSt where
  cores : Tab (Bool × Nat × Option Nat)
  assignLock : Bool
  pages : Tab PageOwner
  secure : WState
  normal : WState
  cause : Nat
  restarts : W32
  normalRestarts : W32
  faultTimes : List Nat
  m : BitVec 384
  fwA : Option FwPackage
  fwB : Option FwPackage
  activeB : Bool
  nextB : Bool
  secureB : Bool
  noFirmware : Bool
  staged : Option Bool
  activatedBy : Option Msg
  svnSecure : W32
  svnNormal : W32
  imageStart : Nat
  secureStart : Nat
  recovery : Bool
  sessions : Tab (Option Session)
  negotiated : List Path
  life : LifeCycle
  nonce : Option (BitVec 256)
  gates : Tab Bool
  tap : Byte
  boundary : W64
  manifest : BitVec 384
  l2 : Tab (Option L2Line)
  deriving DecidableEq, Repr

/-! ### Faults (16) -/

/-- Registers of one event source (16 R394). -/
structure Source where
  cls : Class
  sticky : Bool
  inj : Bool
  winCount : Nat
  count : Nat
  lastTime : Nat
  winStart : Nat
  escN : Nat
  escW : Nat
  escLimit : Nat
  notify : Bool
  fence : Bool
  deriving DecidableEq, Repr

/-- FIRST_FAULT (16 R398). -/
structure FirstFault where
  sameCycle : Bool
  cls : Class
  source : Nat
  seq : W32
  deriving DecidableEq, Repr

/-- An armed Awl injection (16 R400). -/
structure Injection where
  d : AwlDesc
  number : W32
  left : Nat
  due : Bool
  marked : Bool
  deriving DecidableEq, Repr

structure FaultSt where
  sources : Tab Source
  insole : List InsoleRec
  insoleLost : Bool
  frozen : Bool
  nextSeq : W32
  first : Option FirstFault
  fatal : Bool
  alive : Bool
  aliveSeen : Bool
  heartbeat : Bool
  awl : Tab (Option Injection)
  awlApplied : W16
  awlSkipped : W16
  awlNext : W32
  expLog2 : Nat
  expEnable : Bool
  expBase : W64
  expHead : W16
  expTail : W16
  expDropped : Nat
  dumpsLost : Nat
  expWaiting : List W32
  deriving DecidableEq, Repr

/-! ### Performance monitoring (17) -/

/-- The monitoring state of one function (17 R409, R418). -/
structure PerfFn where
  freeze : Bool
  unitFreeze : Tab (BitVec 9)
  cfg : Tab CounterCfg
  counters : Tab (BitVec 48)
  fixed : Tab W64
  fixedSince : Tab Nat
  overflow : Tab Bool
  periodUs : Nat
  ringLog2 : Nat
  ringEnable : Bool
  ringBase : W64
  dumpHead : Nat
  dumpTail : Nat
  dumpLost : Nat
  dumpSeq : W64
  sampRate : Tab Nat
  sampDir : Tab (Fin 4)
  sampLog2 : Tab Nat
  sampBase : Tab W64
  sampHead : Tab Nat
  sampTail : Tab Nat
  sampDropped : Tab Nat
  deriving DecidableEq, Repr

/-- The sampler of one port (17 R414). -/
structure Sampler where
  owner : Option (Fin 36)
  inBlock : Nat
  pick : Nat
  seq : W32
  deriving DecidableEq, Repr

structure Perf where
  fns : Tab PerfFn
  samplers : Tab Sampler
  deriving DecidableEq, Repr

/-! ### Power, clocks, reset, ageing (18) -/

structure Power where
  state : Fin 4
  throttle : Bool
  xtalFallback : Bool
  vcoreReadMv : Nat
  icore : Nat
  tj : Int
  vcoreMv : Nat
  storedTarget : Nat
  kind : Fin 3
  floorMiss : Bool
  hubDerated : Bool
  slackPs : Nat
  roSlow : Nat
  hours : W32
  avsTries : Nat
  avsFail : Bool
  railFault : Bool
  railBad : Bool
  recovery : Bool
  derateCh : Tab Nat
  derateHead : Tab Nat
  derateLace : Tab Nat
  derateDrive : Tab Nat
  margins : Tab (Nat × Nat)
  reportTime : Nat
  board : Option Board
  boardOk : Bool
  gpio : Tab (Byte × Byte)
  bringup : Nat
  pwrgood : Bool
  resetNLow : Bool
  tjCritSince : Option (Nat × Bool)
  gpioThermLow : Bool
  deriving DecidableEq, Repr

/-! ### Outputs -/

/-- What a write to the image carries (09 R238 to R244): a superblock copy, a key-wrap copy, the Insole copy, an epoch log entry, a region table copy, a
heat map copy with its time and its number of blocks, a page record, the summary of a segment, zeros over image blocks. -/
inductive ImageWrite where
  | super (copyB : Bool) (x : Superblock)
  | keyWrap (seq : Nat) (entries : List KeyWrap)
  | insole (records : List InsoleRec)
  | epoch (x : EpochEntry)
  | regions (seq : Nat) (entries : List RegionEntry)
  | heat (seq : Nat) (time : Nat) (blocks : Nat) (map : Tab Byte)
  | record (r : Record)
  | summary (segment : Nat) (records : List Record)
  | clear (block : Nat) (blocks : Nat)
  deriving DecidableEq, Repr

/-- What leaves the device. `resp` is the answer to a standard command, `slafin` to a Slafin command (14 R343). -/
inductive Output where
  | s2mData (ld : Fin 32) (tag : BitVec 13) (data : Line) (poison : Bool) (devLoad : Fin 4)
  | s2mNdr (ld : Fin 32) (tag : BitVec 13) (devLoad : Fin 4)
  | msix (fn : Nat) (vector : Nat)
  | dma (ld : Nat) (pasid : Option (BitVec 20)) (addr : Nat) (bytes : List Byte)
  | slafin (m : Msg) (status : W16) (body : List Byte)
  | resp (m : Msg) (code : W16) (body : List Nat)
  | notice (ld : Nat) (kind : Nat) (data : List Nat)
  | flit (m : Fin 4) (e : LaceEnd) (f : Flit)
  | chanReq (ch : Fin 12) (r : ChanReq)
  | ddr (ch : Fin 12) (what : String) (rank : Nat)
  | drive (n : Fin 4) (what : String) (arg : Nat)
  | image (w : ImageWrite)
  | port (head : Fin 4) (what : String) (value : Nat)
  | mmio (fn : Nat) (offset : Nat) (value : Nat)
  | pin (name : String) (level : Bool)
  | releaseRequest (ld : Fin 32) (tag : BitVec 128)
  | offer (ld : Fin 32) (dpa : Nat) (length : Nat) (tag : BitVec 128) (region : Nat)
  | spdm (p : Path) (what : String) (vals : List Nat)
  | mctp (vals : List Nat)
  | background (fn : Nat) (op : Nat)
  | doe (ld : Fin 32) (vals : List Nat)
  | tsp (ld : Fin 32) (what : String) (vals : List Nat)
  | tap (value : Nat)
  deriving DecidableEq, Repr

/-- The machine. -/
structure State where
  ev8820 : Bool
  path : PathSt
  last : Last
  tier : Tier
  codec : Codec
  keys : Keys
  dram : Dram
  welt : Welt
  ddr : Ddr
  lace : Lace
  shank : Shank
  image : Image
  resume : Resume
  reg : Regul
  port : Port
  poq : Poq
  cmd : Cmd
  world : WorldsSt
  fault : FaultSt
  perf : Perf
  power : Power
  time : Nat
  free : Nat
  out : List Output
  pending : List Instr
  deriving DecidableEq, Repr

/-- Why a step can stop with a fault. -/
inductive Fault where
  /-- Raised by a meaning whose operands no step of the hardware can carry (`WellFormed` refuses them); safe. -/
  | illFormed
  deriving DecidableEq, Repr

/-- Why a step has no meaning. -/
inductive Refusal where
  /-- Raised by an arm of Dispatch.lean whose command has no meaning yet; safe. -/
  | notModelled (mnemonic : String)
  deriving DecidableEq, Repr

/-! ### Reset: every field at the value the spec gives; a value the model names has its log entry. Tables list nothing: what
an unlisted key reads as is the reset value of that register, in the accessors of Machine/Ops.lean. -/

namespace State

def resetPath : PathSt := { rr := 0, reqs := [], held := [], wbuf := [], merge := [], fenced := false }

def resetLast : Last :=
  { hostPages := 4294967296, maps := [], table := [], frames := [], cache := [], modified := 0, missq := [], trackers := [], waiting := [] }

def resetTier : Tier :=
  { policy := { sampleShift := 3, promoteThreshold := 4, decayMs := 1000, demoteMaxHeat := 16, demoteMinGain := 8 }
    watermark := { freeHigh := 8, freeLow := 4, pressure := 2, reserve := 1, pinLimit := 500 }
    rate := { sweepBw := 16, releaseRetryMs := 100 }
    freeFrames := 0, poolFrames := 0, exhausted := false, releasePending := false, effectiveDecay := 0, pinnedPages := 0
    counts := [], buckets := [], promoQueue := [], emergencyBins := 0, emergencyBin := none, setPointer := 0, demoting := false, sweepPos := 0
    passStart := 0, decayCarry := 0, passShift := 0, heatMapWork := [], reserved := [], sweepDirty := false, release := [] }

def resetCodec : Codec := { fenced := 0, errors := 0, repair := [], counts := [], jobs := [], starts := 0, late := [], holds := [] }

def resetKeys : Keys :=
  { slots := [], defaultKey := [], tsp := [], quota := [], dke := 0, kekValid := true, drbg := none, ide := [] }

def resetDram : Dram := { data := [], side := [] }

def resetWelt : Welt :=
  { policy := { scrubDays := 7, sparePermille := 30, quietPct := 25, rebuildBw := 32, ecsLimit := 256 }
    spareFrames := 0, counts := [], units := [], records := [], rows := []
    exceptions := [], compat := [], mirror := [], pcache := [], ptree := [], fails := [], rebalance := none, rebuilds := [], backs := [], verifies := [], scrubPos := 0 }

def resetDdr : Ddr := { chans := [], populationOk := true, mcuRestarts := 0, mcuDown := 0, i2c := 0 }

def resetLace : Lace := { mods := [], versionFault := false, lost := 0 }

def resetShank (ev8820 : Bool) : Shank :=
  { policy := { epochMs := 100, gpfTimeoutMs := 10, softPct := 80, lapHours := 24, rebuildBw := 8 }
    window := if ev8820 then 64 else 128, rFlush := 0, rFlushLog := []
    capMf := 0, vbankMv := 0, eUsableMj := 0, probed := false, probeFail := false, storedCapMf := none
    probeT40 := none, probeDone := false, lastSample := 0, vSamples := [], short := false, logLow := false
    logFull := false, lastClosed := 0, noticeState := 0, queue := [], serial := 0, epoch := 1, epochEnded := [], epochRecords := []
    epochFirst := [], headLsn := 0, segRecords := 0, voids := [], voidBlocks := 0, tailLsn := 0, lapPos := 0, lapStart := 0, prevLapStart := 0, regionDirty := false
    writes := [], drives := [], members := [], failedMember := none, imageExists := false, imageBlocks := 0
    firstLap := false, shutdownState := 0, dsc := 0, saveStep := 0, emergency := false
    saveFailed := false, gpfHeads := 0, savedParity := false, saveDone := false, pwrfailLow := false, harden := []
    counts := [] }

def resetImage : Image :=
  { supA := none, supB := none, keyWrapSeq := 0, keyWrap := [], regionSeq := 0, regions := [], regionsOld := [], heatSeq := 0, heat := [], heatOld := []
    epochs := [], log := [], insole := [] }

def resetResume : Resume :=
  { restorePct := 50, upspeedDelayS := 60, level := 0, image := 0, incomplete := false, degraded := false, noHeat := false
    initDone := false, truncated := false, pagesDone := 0, pagesTotal := 0, lostPages := 0, revertedPages := 0
    tableZeroed := false, initGroups := 0, imageStep := 0, ec := 0, lsnEnd := 0, index := [], extents := [], priority := []
    losses := [], upspeed := [], heat := [] }

def resetReg : Regul :=
  { masters := [], optimalPct := 70, moderatePct := 90, ageUs := 8, usable := 0, scale := 1024, lastTotal := 0
    arbiter := [], rr := [], telemetry := [], counts := [] }

def resetPort : Port := { heads := [], funcs := [], perstLow := 0 }

def resetPoq : Poq := { ctxs := [], lds := [], cached := [], tree := 0 }

def resetCmd : Cmd :=
  { eyes := [], lds := [], locks := [], lockPtr := 0, owner := none, bmcVersion := 1, eid := 0, regions := [], adds := []
    offers := [], declined := [], removals := [], lineJobs := [], logs := [] }

def resetWorld : WorldsSt :=
  { cores := [], assignLock := false, pages := [], secure := .restarting, normal := .restarting, cause := 0, restarts := 0
    normalRestarts := 0, faultTimes := [], m := 0, fwA := none, fwB := none, activeB := false, nextB := false, secureB := false, noFirmware := false
    staged := none, activatedBy := none, svnSecure := 0, svnNormal := 0, imageStart := 0, secureStart := 0, recovery := false, sessions := []
    negotiated := [], life := { manufacture := false, rma := false }, nonce := none, gates := [], tap := 1
    boundary := 0, manifest := 0, l2 := [] }

def resetFault : FaultSt :=
  { sources := [], insole := [], insoleLost := false, frozen := false, nextSeq := 0, first := none, fatal := false, alive := false
    aliveSeen := false, heartbeat := false, awl := [], awlApplied := 0, awlSkipped := 0, awlNext := 0, expLog2 := 4
    expEnable := false, expBase := 0, expHead := 0, expTail := 0, expDropped := 0, dumpsLost := 0, expWaiting := [] }

def resetPerf : Perf := { fns := [], samplers := [] }

def resetPower : Power :=
  { state := 3, throttle := false, xtalFallback := false, vcoreReadMv := 0, icore := 0, tj := 0, vcoreMv := 950
    storedTarget := 0, kind := 0, floorMiss := false, hubDerated := false, slackPs := 0, roSlow := 0, hours := 0, avsTries := 0
    avsFail := false, railFault := false, railBad := false, recovery := false, derateCh := [], derateHead := [], derateLace := [], derateDrive := []
    margins := [], reportTime := 0, board := none, boardOk := false, gpio := [], bringup := 0, pwrgood := true
    resetNLow := false, tjCritSince := none, gpioThermLow := false }

/-- The machine right after reset: an EV8840 that no board, module, drive or host has touched yet. Logs 1 to 9. -/
def reset : State :=
  { ev8820 := false, path := resetPath, last := resetLast, tier := resetTier, codec := resetCodec, keys := resetKeys
    dram := resetDram, welt := resetWelt, ddr := resetDdr, lace := resetLace, shank := resetShank false
    image := resetImage, resume := resetResume, reg := resetReg, port := resetPort, poq := resetPoq, cmd := resetCmd
    world := resetWorld, fault := resetFault, perf := resetPerf, power := resetPower, time := 0, free := 0, out := []
    pending := [] }

end State

end Sys2Proof.Machine
end

