-- ==== Sys2Proof/Machine/Flags.lean ====
section
/-! DEFINITION. Every check value and computed figure of the spec: CRC-32C, CRC-64, byte parity, the line check, META, field
packing, regulation figures, thresholds, the dirty window. Pure functions of their arguments. -/

namespace Sys2Proof.Machine

/-! ### Bytes and bits -/

/-- Byte i of a word, byte 0 in bits 7:0 (00 R5). -/
def byteAt {n : Nat} (w : BitVec n) (i : Nat) : Byte := w.extractLsb' (8 * i) 8

/-- The first k bytes of a word. -/
def leBytes {n : Nat} (k : Nat) (w : BitVec n) : List Byte := (List.range k).map (byteAt w)

/-- k bytes of a number, little-endian. -/
def leNat (k : Nat) (v : Nat) : List Byte := (List.range k).map fun i => BitVec.ofNat 8 (v >>> (8 * i))

/-- The number that bytes hold, little-endian. -/
def natOfBytes : List Byte → Nat
  | [] => 0
  | b :: r => b.toNat + 256 * natOfBytes r

/-- The word that bytes hold, little-endian. -/
def ofBytes (n : Nat) (bs : List Byte) : BitVec n := BitVec.ofNat n (natOfBytes bs)

/-- k zero bytes. -/
def zeros (k : Nat) : List Byte := List.replicate k 0

/-- Field [lo+len-1:lo] of a word as a number. -/
def fld {n : Nat} (w : BitVec n) (lo len : Nat) : Nat := (w.extractLsb' lo len).toNat

/-- A value placed at bit lo of a 64-bit register, cut to len bits. -/
def put (lo len : Nat) (v : Nat) : W64 := BitVec.ofNat 64 ((v % 2 ^ len) <<< lo)

/-- A flag placed at bit lo. -/
def putB (lo : Nat) (b : Bool) : W64 := if b then put lo 1 1 else 0

/-- Saturation at 2^len - 1. -/
def sat (len : Nat) (v : Nat) : Nat := min v (2 ^ len - 1)

/-! ### CRCs (04 R77, 08 R189, 06 R126) -/

/-- One byte through a bitwise CRC, most significant bit first. -/
def crcByteMsb {n : Nat} (poly : BitVec n) (r : BitVec n) (b : Byte) : BitVec n :=
  (List.range 8).foldl (fun r i => let top := r.msb ^^ b.getLsbD (7 - i)
                                   let s := r <<< 1
                                   if top then s ^^^ poly else s) r

/-- One byte through a reflected CRC. -/
def crcByteRefl (poly : W32) (r : W32) (b : Byte) : W32 :=
  (List.range 8).foldl (fun r _ => if r.getLsbD 0 then (r >>> 1) ^^^ poly else r >>> 1) (r ^^^ b.setWidth 32)

/-- CRC-32C of 04 R77. 0x82F63B78 is the reflection of 0x1EDC6F41. -/
def crc32c (bs : List Byte) : W32 := (bs.foldl (crcByteRefl 0x82F63B78) 0xFFFFFFFF) ^^^ 0xFFFFFFFF

/-- CRC-64 of 08 R189. -/
def crc64 (bs : List Byte) : W64 := bs.foldl (crcByteMsb 0x42F0E1EBA9EA3693) 0

/-- The message of the line check: data, physical line address, META (06 R126). -/
def lcrcMsg (data : Line) (pla : Nat) (mta : W16) : List Byte := leBytes 64 data ++ leNat 8 pla ++ leBytes 2 mta

/-- Line check of 06 R126. -/
def lcrc (data : Line) (pla : Nat) (mta : W16) : BitVec 48 := (lcrcMsg data pla mta).foldl (crcByteMsb 0x6A5B2E8D93C7) 0

/-- Parity of the ones of a byte: the bit that makes the count even (06 R124). -/
def parityBit (b : Byte) : Bool := (List.range 8).foldl (fun p i => p ^^ b.getLsbD i) false

/-- BPAR (06 R124). -/
def bpar (data : Line) : W64 :=
  (List.range 64).foldl (fun w i => if parityBit (byteAt data i) then w ||| put i 1 1 else w) 0

/-! ### META and side bits (06 R123) -/

def kindData : Nat := 0
def kindParity : Nat := 1
def kindMeta : Nat := 2
def kindGranule : Nat := 3

/-- META of a line that is no parity line. -/
def metaOf (kind : Nat) (poison written : Bool) : W16 :=
  BitVec.ofNat 16 (kind % 8 + (if poison then 8 else 0) + (if written then 16 else 0))

def sideOf (bp : W64) (lc : BitVec 48) (mta : W16) : Side := mta ++ lc ++ bp
def sideBpar (s : Side) : W64 := s.extractLsb' 0 64
def sideLcrc (s : Side) : BitVec 48 := s.extractLsb' 64 48
def sideMeta (s : Side) : W16 := s.extractLsb' 112 16
def metaKind (m : W16) : Nat := fld m 0 3
def metaPoison (m : W16) : Bool := m.getLsbD 3
def metaWritten (m : W16) : Bool := m.getLsbD 4

/-- A line with fresh side bits for its physical line address (06 R123). -/
def freshRaw (data : Line) (pla : Nat) (mta : W16) : Raw := { data, side := sideOf (bpar data) (lcrc data pla mta) mta }

/-- The check of a data line (06 R132). -/
def checkData (r : Raw) (pla : Nat) : Bool :=
  sideBpar r.side == bpar r.data && sideLcrc r.side == lcrc r.data pla (sideMeta r.side)
    && [0, 2, 3, 4].contains (metaKind (sideMeta r.side))

/-- M_x of a parity line's META (06 R132). -/
def parityMx (m : W16) : W16 :=
  BitVec.ofNat 16 (fld m 5 3 + (if metaPoison m then 8 else 0) + (if metaWritten m then 16 else 0))

/-- The check of a parity line; `ax` is the XOR of the data members' PLAs (06 R132). -/
def checkParity (r : Raw) (ax : Nat) : Bool :=
  metaKind (sideMeta r.side) == 1 && sideBpar r.side == bpar r.data
    && sideLcrc r.side == lcrc r.data ax (parityMx (sideMeta r.side))

def xorRaw (a b : Raw) : Raw := { data := a.data ^^^ b.data, side := a.side ^^^ b.side }

def zeroRaw : Raw := { data := 0, side := 0 }

/-- META of a parity line from the XOR of its members' META (06 R131). -/
def parityMeta (x : W16) : W16 :=
  BitVec.ofNat 16 (1 + (if metaPoison x then 8 else 0) + (if metaWritten x then 16 else 0) + 32 * metaKind x)

/-- The parity line of the XOR of the data members (06 R131). -/
def parityOf (x : Raw) : Raw :=
  { data := x.data, side := sideOf (sideBpar x.side) (sideLcrc x.side) (parityMeta (sideMeta x.side)) }

/-- The XOR of the data members, back from their parity line (06 R140). -/
def unparity (p : Raw) : Raw :=
  { data := p.data, side := sideOf (sideBpar p.side) (sideLcrc p.side) (parityMx (sideMeta p.side)) }

/-- A line as it comes back from a read that meets an upset. -/
def Raw.flip (r : Raw) (u : Upset) : Raw := { data := r.data ^^^ u.flipData, side := r.side ^^^ u.flipSide }

def Upset.none : Upset := { err := false, flipData := 0, flipSide := 0 }

/-- DEVICE_MASK of the bits in which two lines differ, for x4 or x8 modules (06 R143, R127). -/
def deviceMask (x8 : Bool) (a b : Raw) : BitVec 20 :=
  let dd := a.data ^^^ b.data
  let ds := a.side ^^^ b.side
  let dataBits := (List.range 512).filter fun i => dd.getLsbD i
  let sideBits := (List.range 128).filter fun i => ds.getLsbD i
  -- data byte 4b + k of a half lies on DQ[8k+7:8k]
  let posD := dataBits.map fun i =>
    let half := i / 256; let byte := (i % 256) / 8; let dq := 8 * (byte % 4) + i % 8
    10 * half + (if x8 then dq / 8 else dq / 4)
  let posS := sideBits.map fun i =>
    let half := if i < 64 then i / 32 else if i < 112 then (if i < 88 then 0 else 1) else (if i < 120 then 0 else 1)
    let inHalf := if i < 64 then i % 32 else if i < 112 then 32 + (i - 64) % 24 else 56 + (i - 112) % 8
    let dq := 32 + inHalf % 8
    10 * half + (if x8 then 4 else dq / 4)
  (posD ++ posS).foldl (fun m p => m ||| (1#20 <<< p)) 0

/-! ### Last entries as words (02 R30) -/

def PState.code : PState → Nat
  | .unwritten => 0 | .zero => 1 | .hot => 2 | .warm => 3 | .inMotion => 4 | .restoring => 5 | .lost => 6

def Chunk.word (c : Chunk) : Nat := c.off.toNat + 64 * c.cnt.toNat
def Chunk.none : Chunk := { off := 0, cnt := 0 }

/-- The 128-bit word of a Last entry (02 R30). -/
def LastEntry.word (e : LastEntry) : BitVec 128 :=
  BitVec.ofNat 128 (e.state.code + (if e.span then 8 else 0) + (if e.dirty then 16 else 0) + (if e.pinned then 32 else 0)
    + (if e.durable then 64 else 0) + e.heat.toNat <<< 8 + e.owner.toNat <<< 16 + e.key.toNat <<< 28 + e.gen.toNat <<< 40
    + e.frame.toNat <<< 48 + e.c0.word <<< 80 + e.c1.word <<< 91 + e.c2.word <<< 102 + e.c3.word <<< 113)

/-- The entry that is zero in every field (02 R30: UNWRITTEN, GEN 0). -/
def LastEntry.zero : LastEntry :=
  { state := .unwritten, span := false, dirty := false, pinned := false, durable := false, heat := 0, owner := 0, key := 0
    gen := 0, frame := 0, c0 := Chunk.none, c1 := Chunk.none, c2 := Chunk.none, c3 := Chunk.none }

def FKind.code : FKind → Nat
  | .free => 0 | .hot => 1 | .bin => 2 | .metadata => 3 | .retired => 4 | .spare => 5

/-- The 32-byte frame record (02 R42): GRANULE_MAP, DPN0 to DPN3 with 0xFFFF_FFFF where unused, KIND, PAGES, OWNER. -/
def FrameRec.word (r : FrameRec) : BitVec 256 :=
  let dpn (i : Nat) : BitVec 32 := r.dpns.getD i 0xFFFFFFFF
  let pages : Byte := if r.kind = .bin then BitVec.ofNat 8 r.dpns.length else 0
  (0#32) ++ ((0#4) ++ r.owner) ++ pages ++ BitVec.ofNat 8 r.kind.code ++ dpn 3 ++ dpn 2 ++ dpn 1 ++ dpn 0 ++ r.map

def QKind.code : QKind → Nat
  | .changed => 1 | .tombstone => 2

/-- An 8-byte shadow queue entry (02 R41): device DPN and kind. -/
def QEntry.word (q : QEntry) : W64 := put 0 32 q.dpn.toNat ||| put 32 2 q.kind.code

def LastEntry.chunk (e : LastEntry) : Nat → Chunk
  | 0 => e.c0 | 1 => e.c1 | 2 => e.c2 | _ => e.c3

def LastEntry.chunks (e : LastEntry) : List Chunk := [e.c0, e.c1, e.c2, e.c3]

/-- Granules that a warm page's chunks hold. -/
def LastEntry.granules (e : LastEntry) : Nat := e.c0.cnt.toNat + e.c1.cnt.toNat + e.c2.cnt.toNat + e.c3.cnt.toNat

/-- An entry with storage in warm form, or in motion from it (02 Table Fields by state, R31). -/
def LastEntry.warmSource (e : LastEntry) : Bool := e.granules != 0

/-! ### Thresholds of the tier manager (03 R61) -/

/-- floor(POOL_FRAMES × value / 1,000). -/
def perMille (pool value : Nat) : Nat := pool * value / 1000

def Tier.thHigh (t : Tier) (pool : Nat) : Nat := perMille pool t.watermark.freeHigh
def Tier.thLow (t : Tier) (pool : Nat) : Nat := perMille pool t.watermark.freeLow
def Tier.thPressure (t : Tier) (pool : Nat) : Nat := perMille pool t.watermark.pressure
def Tier.thReserve (t : Tier) (pool : Nat) : Nat := perMille pool t.watermark.reserve
def Tier.pinMax (t : Tier) : Nat := perMille t.poolFrames t.watermark.pinLimit

/-- The order that the thresholds of TIER_WATERMARK must keep, in frames of a pool of `pool` frames (03 R61). -/
def watermarkOk (pool : Nat) (w : TierWatermark) : Bool :=
  perMille pool w.freeHigh > perMille pool w.freeLow && perMille pool w.freeLow > perMille pool w.pressure
    && perMille pool w.pressure > perMille pool w.reserve && perMille pool w.reserve ≥ 1
    && w.freeHigh ≤ 1000 && w.pinLimit ≤ 1000

/-- Bucket of the candidate pool for a HEAT value (03 R57). -/
def bucketOf (h : Nat) : Nat :=
  if h = 0 then 0 else if h = 1 then 1 else if h < 4 then 2 else if h < 8 then 3 else if h < 16 then 4
  else if h < 32 then 5 else if h < 64 then 6 else 7

/-- Pass length of the decay sweep in nanoseconds: the larger of DECAY_PERIOD_MS and 16 × P / SWEEP_BW (03 R56). -/
def passLength (p : TierPolicy) (r : TierRate) (hostPages : Nat) : Nat :=
  max (p.decayMs * 1000000) (16 * hostPages * 4 / (max r.sweepBw 1))

/-! ### Regulation (11 R273 to R286): exact, bandwidth in 1/1,280 MB/s, guarantees in 62.5 MB/s -/

/-- Units of one 0.25 GB/s step. -/
def quarterGb : Nat := 320000

/-- G of a master in 62.5 MB/s: 4 × MIN_READ + 9 × MIN_WRITE quarter steps (11 R273). -/
def guarantee4 (minRead minWrite : Nat) : Nat := 4 * minRead + 9 * minWrite

/-- Admission: ΣG ≤ 0.7 × U (11 R281). -/
def admitted (sumG4 usable : Nat) : Bool := 10 * sumG4 * 80000 ≤ 7 * usable

/-- SCALE of 11 R282. -/
def scaleOf (sumG4 usable : Nat) : Nat :=
  if sumG4 = 0 then 1024 else min 1024 (1024 * 7 * usable / (10 * sumG4 * 80000))

/-- Effective guarantee field (11 R282). -/
def effMin (v scale : Nat) : Nat := v * scale / 1024

/-- B_c in MB/s / 320 (11 R277). -/
def chanBw (rate ranksIn ranks : Nat) (halved : Bool) : Nat :=
  if ranks = 0 then 0 else rate * 8 * 32 * ranksIn / ranks * (if halved then 9 else 10)

/-- Bandwidth of a module's operating point in GB/s (08 R187). -/
def moduleBw (rate : Fin 3) (half : Bool) : Nat :=
  let b := match rate with | 0 => 256 | 1 => 192 | 2 => 128
  if half then b / 2 else b

/-- The module's share of S_m, 187 GB/s × bandwidth / 256 GB/s, in MB/s / 320. -/
def moduleCap (bw : Nat) : Nat := 187000 * bw * 5 / 4

/-- U from Σ S_m: 0.75 × Σ S_m, in MB/s / 1,280 (11 R277). -/
def usableOf (sumS : Nat) : Nat := 3 * sumS

/-- Charge of a request in bytes (11 R276). -/
def chargeRead (lines : Nat) : Nat := 64 * lines
def chargeDeltaWrite : Nat := 144

/-- The fraction f/256 of Set QoS Allocated BW as MIN_READ (11 R286). -/
def qosMinRead (f usable : Nat) : Nat := f * 7 * usable / (256 * 10 * quarterGb)
/-- The fraction f/256 of Set QoS BW Limit as BUDGET; 256 means no ceiling (11 R286). -/
def qosBudget (f usable : Nat) : Nat := if f = 256 then 0 else f * usable / (256 * quarterGb)
def qosFracRead (minRead usable : Nat) : Nat := if usable = 0 then 0 else minRead * quarterGb * 256 * 10 / (7 * usable)
def qosFracBudget (budget usable : Nat) : Nat :=
  if budget = 0 then 256 else if usable = 0 then 0 else budget * quarterGb * 256 / usable

/-! ### The dirty window (09 R219 to R226) -/

/-- The amount of a queued page (09 R219). -/
def queueAmount (e : LastEntry) (k : QKind) : Nat :=
  match k with
  | .tombstone => 64
  | .changed =>
    match e.state with
    | .hot => 4160
    | .warm => 64 + 64 * e.granules
    | .inMotion => if e.warmSource then 64 + 64 * e.granules else 4160
    | _ => 64

def mib64 : Nat := 67108864

/-- D in units of 64 MiB before the clamp: 0.7 × R_flush × (E_usable − E_fixed) / P_save (09 R220). R_flush in MB/s, energy in
mJ, power in W, so that energy / power is in ms and MB/s × ms is in kB. -/
def windowRaw (rFlushMb eUsableMj pSaveW gpfMs : Nat) : Nat :=
  if pSaveW = 0 then 0
  else 7 * rFlushMb * 1000 * (eUsableMj - pSaveW * (gpfMs + 63)) / (10 * pSaveW) / mib64

/-- D clamped to 1 GiB to 64 GiB (09 R220). -/
def windowClamp (raw : Nat) : Nat := max 16 (min 1024 raw)

/-- Soft limit in 64 MiB (09 R221). -/
def softOf (window softPct : Nat) : Nat := window * softPct / 100

/-- E_usable in mJ: ½ × C × (V² − V_MIN²) × EFF / 100 with C in mF and V in mV (09 R226). -/
def usableEnergy (capMf vMv vMinMv effPct : Nat) : Nat :=
  if vMv ≤ vMinMv then 0 else capMf * (vMv * vMv - vMinMv * vMinMv) * effPct / (2 * 100 * 1000000)

/-- Capacitance in mF from the probe: C = CHARGE_MA × Δt / (0.4 × V_FULL), Δt in ms (09 R225). -/
def probeCap (chargeMa dtMs vFullMv : Nat) : Nat := if vFullMv = 0 then 0 else chargeMa * dtMs * 10 / (4 * vFullMv)

/-! ### Host capacity and the metadata region (02 R40, R461; 06 R152) -/

def ceilDiv (a b : Nat) : Nat := (a + b - 1) / b

def roundUp (a b : Nat) : Nat := ceilDiv a b * b

def maxHostPages (ev8820 : Bool) : Nat := if ev8820 then 2147483648 else 4294967296

/-- HOST_PAGES at first configuration (02 R461). -/
def defaultHostPages (ev8820 : Bool) (rawFrames : Nat) : Nat :=
  min (maxHostPages ev8820) (rawFrames * 4 / 3) / 65536 * 65536

/-- G_meta (02 R40). -/
def metaGroups (w rawFrames hostPages : Nat) : Nat :=
  let f := rawFrames / w * (w - 1)
  let mib := 1048576
  ceilDiv (roundUp (16 * hostPages) mib + roundUp (32 * f) mib + 4352 * mib) (4096 * (w - 1))

/-- G_spare (06 R152). -/
def spareGroups (w rawFrames permille : Nat) : Nat :=
  let f := rawFrames / w * (w - 1)
  ceilDiv (f * permille) (1000 * (w - 1))

/-! ### Lace (08 R197, R200) -/

/-- free(c) = 768 − U_c − max(U_other, 64). -/
def laceFree (u other : Nat) : Int := 768 - (u : Int) - max (other : Int) 64

/-- TRAIN pattern byte (08 R191). -/
def trainByte (i : Nat) : Byte := BitVec.ofNat 8 ((37 * i + 11) % 256)

/-! ### Ages (18 R433, R434) -/

/-- Next lower supported data rate, 0 below 4,800 (18 R434). -/
def rateBelow (r : Nat) : Nat :=
  if r > 6400 then 6400 else if r > 5600 then 5600 else if r > 4800 then 4800 else 0

/-- Highest supported rate not above a cap (07 R164). -/
def rateCapTo (cap : Nat) : Nat :=
  if cap ≥ 7200 then 7200 else if cap ≥ 6400 then 6400 else if cap ≥ 5600 then 5600 else if cap ≥ 4800 then 4800 else 0

/-- The core re-plan loop (18 R433): the slacks read at each target in turn; answers target, slack, and whether 980 mV missed
the floor. A reading that the list does not give counts as met. -/
def replanCore (v : Nat) : List Nat → Nat × Nat × Bool
  | [] => (v, 15, false)
  | s :: r => if s ≥ 15 then (v, s, false) else if v ≥ 980 then (v, s, true) else replanCore (v + 5) r

end Sys2Proof.Machine
end

