-- ==== Sys2Proof/Machine/Operands.lean ====
section
/-! DEFINITION. Every address form of the spec: HDM decode and capacity map, frames and groups, DRAM placement, data units,
image blocks, cache sets, capability offsets. -/

namespace Sys2Proof.Machine

/-- W (00 R8, R3). -/
def State.w (s : State) : Nat := if s.ev8820 then Config.wHalf else Config.wFull

/-! ### Frames (02 R28, 06 R125, 07 R167) -/

def groupOf (w fn : Nat) : Nat := fn / w
def channelOf (w fn : Nat) : Nat := fn % w
/-- A parity frame is one with c = g mod W. -/
def isParity (w fn : Nat) : Bool := channelOf w fn == groupOf w fn % w

/-- The k-th data frame of channel c in channel order (02 R28). -/
def dataFrame (w c k : Nat) : Nat :=
  let q := k / (w - 1)
  let j := k % (w - 1)
  let g := q * w + j
  let g := if j ≥ c then g + 1 else g
  g * w + c

/-- The channel-order index of a data frame (02). -/
def channelIndex (w fn : Nat) : Nat :=
  let c := fn % w
  let g := fn / w
  let r := g % w
  if r < c then g / w * (w - 1) + r else g / w * (w - 1) + r - 1

/-- The data-frame index (02 R40). -/
def dataIndex (w fn : Nat) : Nat :=
  let c := fn % w
  let g := fn / w
  g * (w - 1) + (if c < g % w then c else c - 1)

/-- The data frame with a data-frame index. -/
def dataAt (w n : Nat) : Nat :=
  let g := n / (w - 1)
  let r := n % (w - 1)
  g * w + (if r < g % w then r else r + 1)

/-- Physical line address of a line of a frame (06 R125). -/
def pla (frame line : Nat) : Nat := frame * 64 + line

/-- The XOR of the PLAs of a group's data members (06 R132). -/
def groupAx (w g line : Nat) : Nat :=
  (List.range w).foldl (fun x c => if c = g % w then x else x ^^^ pla (g * w + c) line) 0

structure Place where
  dimm : Nat
  rank : Nat
  chip : Nat
  bg : Nat
  bank : Nat
  row : Nat
  column : Nat
  lr : Nat
  deriving DecidableEq, Repr

/-- dram_place (07 R167): modules, package ranks, stack height, x8, then group index and line. -/
def dramPlace (modules pr h : Nat) (x8 : Bool) (g line : Nat) : Place :=
  let nlr := max 1 (modules * pr * h)
  let bg := g % 8
  let t := g / 8
  let bank := t % 4
  let t := t / 4
  let lr := t % nlr
  let t := t / nlr
  let fpr := if x8 then 2 else 4
  let slot := t % fpr
  let chip := lr % h
  let u := lr / h
  { dimm := u / pr, rank := u % pr, chip, bg, bank, row := t / fpr, column := slot * 512 + line * 8, lr }

def dimmStack (d : Dimm) : Nat := match d.height with | 0 => 1 | 1 => 2 | 2 => 4 | 3 => 8
def dimmRanks (d : Dimm) : Nat := if d.ranks2 then 2 else 1
def dimmGb (d : Dimm) : Nat := match d.density with | 0 => 16 | 1 => 24 | 2 => 32 | 3 => 64

/-- Frames a channel holds: 32 × N_LR × FPR × N_ROW (07 R167). -/
def channelFrames (modules : Nat) (d : Dimm) : Nat :=
  32 * (modules * dimmRanks d * dimmStack d) * (if d.x8 then 2 else 4) * (4096 * dimmGb d)

/-- Table — Supported modules (07 R162): the type goes with the stack height, 16 to 512 GiB, and a rate of at least 4,800 MT/s. -/
def dimmSupported (d : Dimm) : Bool :=
  (d.threeDS == decide (d.height ≠ 0)) && decide (channelFrames 1 d ≤ 512 * 262144) && decide (16 * 262144 ≤ channelFrames 1 d)
    && decide (4800 ≤ d.rate.toNat)

/-- RANKSEL of 06 R143. -/
def Place.ranksel (p : Place) : BitVec 6 := BitVec.ofNat 6 (p.dimm + 2 * p.rank + 8 * p.chip)
/-- BANK of 06 R143. -/
def Place.bankWord (p : Place) : BitVec 5 := BitVec.ofNat 5 (p.bg * 4 + p.bank)

/-! ### Lace (01 R10, 08 R186) -/

def dieOf (ch : Nat) : Nat := ch / 6
/-- The module that carries a channel in normal operation (01 R10). -/
def homeModule (ch : Nat) : Nat := 2 * (ch / 6) + (if ch % 6 < 3 then 0 else 1)
def partner (m : Nat) : Nat := if m % 2 = 0 then m + 1 else m - 1

/-! ### Device addresses (02 R25, 12 R291) -/

/-- HDM decode of one decoder: the offset with its interleave bits taken out. PRESUMED from CXL 3.1, log 16. -/
def HdmDecoder.decode (d : HdmDecoder) (hpa : Nat) : Option Nat :=
  if d.base.toNat ≤ hpa ∧ hpa < d.base.toNat + d.size.toNat then
    let o := hpa - d.base.toNat
    some (o / (max 1 d.ways * max 1 d.gran) * max 1 d.gran + o % max 1 d.gran)
  else none

/-- The decoders of an LD in order; each covers the DPA behind the one before (PRESUMED, log 16). -/
def hdmDecode (skip : Nat) (hpa : Nat) : List (Option HdmDecoder) → Option Nat
  | [] => none
  | none :: r => hdmDecode skip hpa r
  | some d :: r =>
    match d.decode hpa with
    | some x => some (skip + x)
    | none => hdmDecode (skip + d.size.toNat / max 1 d.ways) hpa r

/-- The entry that covers an LD DPN (02 R25). -/
def MapEntry.covers (e : MapEntry) (ldDpn : Nat) : Bool :=
  e.valid && decide (e.ldBase.toNat ≤ ldDpn) && decide (ldDpn < e.ldBase.toNat + e.pages.toNat)

def mapLookup (m : List MapEntry) (ldDpn : Nat) : Option MapEntry := m.find? (·.covers ldDpn)

def MapEntry.dev (e : MapEntry) (ldDpn : Nat) : Nat := e.devBase.toNat + (ldDpn - e.ldBase.toNat)

/-- The entry of a map that holds a device page. -/
def MapEntry.holdsDev (e : MapEntry) (dpn : Nat) : Bool :=
  e.valid && decide (e.devBase.toNat ≤ dpn) && decide (dpn < e.devBase.toNat + e.pages.toNat)

/-! ### Data units (05 R97) -/

/-- Sequence number of a hot line. -/
def seqHot (dpn line : Nat) : Nat := dpn * 4096 + line * 64
/-- Sequence number of a warm chunk. -/
def seqChunk (dpn chunk : Nat) : Nat := (dpn * 4096 + 1024 * chunk) ||| 1
/-- Sequence number of a metadata line at a byte offset of the region. -/
def seqMeta (off : Nat) : Nat := 2 ^ 64 + off
/-- Sequence number of a shadow queue line of copy d. -/
def seqQueue (d off : Nat) : Nat := 2 ^ 65 + 2 ^ 40 * d + off

/-! ### AES-256-XTS (05 R96) -/

/-- Key1, for data, is the first 32 bytes of a key pair, Key2, for the tweak, the second (log 12). -/
def key1 (k : Key) : BitVec 256 := k.extractLsb' 0 256
def key2 (k : Key) : BitVec 256 := k.extractLsb' 256 256

/-- Multiplication by α in GF(2^128), byte 0 the least significant (IEEE 1619; log 12). -/
def mulAlpha (t : BitVec 128) : BitVec 128 := (t <<< 1) ^^^ (if t.msb then 0x87 else 0)

/-- The tweak of block j of a data unit: the sequence number, little-endian, under Key2, times α^j. -/
def tweak (k : Key) (seq : Nat) : Nat → BitVec 128
  | 0 => Config.aes (key2 k) (BitVec.ofNat 128 seq)
  | j + 1 => mulAlpha (tweak k seq j)

def xtsEnc (k : Key) (seq j : Nat) (x : BitVec 128) : BitVec 128 := Config.aes (key1 k) (x ^^^ tweak k seq j) ^^^ tweak k seq j
def xtsDec (k : Key) (seq j : Nat) (x : BitVec 128) : BitVec 128 := (Config.aes (key1 k)).symm (x ^^^ tweak k seq j) ^^^ tweak k seq j

/-- One line through the cipher: blocks b0 to b0 + 3 of the data unit (05 R96, R100). -/
def encLine (k : Key) (seq b0 : Nat) (x : Line) : Line :=
  let b (j : Nat) : BitVec 128 := xtsEnc k seq (b0 + j) (x.extractLsb' (128 * j) 128)
  b 3 ++ b 2 ++ b 1 ++ b 0

def decLine (k : Key) (seq b0 : Nat) (x : Line) : Line :=
  let b (j : Nat) : BitVec 128 := xtsDec k seq (b0 + j) (x.extractLsb' (128 * j) 128)
  b 3 ++ b 2 ++ b 1 ++ b 0

/-! ### Key derivation (05 R111) -/

/-- A number in k bytes, most significant first. -/
def beNat (k v : Nat) : List Byte := (leNat k v).reverse

def asciiBytes (x : String) : List Byte := x.toList.map fun c => BitVec.ofNat 8 c.toNat

/-- Block i of the counter-mode KDF of NIST SP 800-108 over DRS, a label and DKE, for an output of n bits; the widths and byte orders of the fixed input
are the standard's usual ones (PRESUMED, log 13). -/
def kdfBlock (label : String) (dke : W32) (n i : Nat) : BitVec 256 :=
  Config.hmac256 Config.drs (beNat 4 i ++ asciiBytes label ++ [0] ++ leBytes 4 dke ++ beNat 4 n)

/-- Key ID 0. -/
def deviceKey (dke : W32) : Key := kdfBlock "Palfa device key" dke 512 2 ++ kdfBlock "Palfa device key" dke 512 1
/-- The key-encryption key. -/
def kekOf (dke : W32) : BitVec 256 := kdfBlock "Palfa key wrap" dke 256 1
/-- The device tag of an image: the first 128 bits (09 R239). -/
def deviceTag (dke : W32) : BitVec 128 := (kdfBlock "Palfa image tag" dke 128 1).extractLsb' 0 128

/-! ### AES key wrap (05 R113; NIST SP 800-38F KW) -/

/-- Semiblocks of a wrap under way: A, and R1 to R8. -/
abbrev KwState := W64 × List W64

def kwIv : W64 := 0xA6A6A6A6A6A6A6A6

/-- Step t of the 48, on R(i + 1); t is added to A most significant byte first. -/
def kwStep (kek : BitVec 256) (x : KwState) (t : Nat) : KwState :=
  let i := (t - 1) % 8
  let b := Config.aes kek (x.2.getD i 0 ++ x.1)
  (b.extractLsb' 0 64 ^^^ (BitVec.ofNat 64 t <<< 56), x.2.set i (b.extractLsb' 64 64))

def kwUnstep (kek : BitVec 256) (x : KwState) (t : Nat) : KwState :=
  let i := (t - 1) % 8
  let b := (Config.aes kek).symm (x.2.getD i 0 ++ (x.1 ^^^ (BitVec.ofNat 64 t <<< 56)))
  (b.extractLsb' 0 64, x.2.set i (b.extractLsb' 64 64))

/-- The 48 steps. -/
def kwSteps : List Nat := (List.range 48).map (· + 1)

/-- The 72 bytes of a wrapped key pair, as nine semiblocks. -/
def kwWrap (kek : BitVec 256) (k : Key) : List W64 :=
  let x := kwSteps.foldl (kwStep kek) (kwIv, (List.range 8).map fun i => k.extractLsb' (64 * i) 64)
  x.1 :: x.2

/-- The key pair, or none when KW integrity fails. -/
def kwUnwrap (kek : BitVec 256) (w : List W64) : Option Key :=
  let x := kwSteps.reverse.foldl (kwUnstep kek) (w.headD 0, w.tail)
  if x.1 = kwIv then some (ofBytes 512 (x.2.flatMap (leBytes 8))) else none

/-! ### CTR_DRBG (05 R116; NIST SP 800-90A, AES-256, no derivation function) -/

/-- The next block of a state of Key and V: V counts on, and is encrypted. -/
def drbgBlock (x : BitVec 384) : BitVec 128 × BitVec 384 :=
  let key := x.extractLsb' 128 256
  let v := x.extractLsb' 0 128 + 1
  (Config.aes key v, key ++ v)

/-- The update with 48 provided bytes. -/
def drbgUpdate (x : BitVec 384) (provided : BitVec 384) : BitVec 384 :=
  let (a, x) := drbgBlock x
  let (b, x) := drbgBlock x
  let (c, _) := drbgBlock x
  (a ++ b ++ c) ^^^ provided

/-- An instance from a seed of the entropy source. -/
def drbgSeed (seed : BitVec 384) : BitVec 384 := drbgUpdate 0 seed

/-- 512 bits, and the state after them. -/
def drbgDraw (x : BitVec 384) : Key × BitVec 384 :=
  let (a, x) := drbgBlock x
  let (b, x) := drbgBlock x
  let (c, x) := drbgBlock x
  let (d, x) := drbgBlock x
  (a ++ b ++ c ++ d, drbgUpdate x 0)

/-! ### The Last cache (02 R43) -/

def setOfPage (dpn : Dpn) : Nat := (dpn.extractLsb' 0 17 ^^^ (dpn.extractLsb' 17 15).setWidth 17).toNat
def setOfSpan (dpn : Dpn) : Nat :=
  (dpn.extractLsb' 9 17 ^^^ (dpn.extractLsb' 26 6).setWidth 17 ^^^ 0x15A5A#17).toNat

/-! ### Image blocks (09 R236) -/

/-- place(ib): drive positions and LBAs. -/
def imagePlace (layout n ib : Nat) : List (Nat × Nat) :=
  let u := ib / 32
  let o := ib % 32
  if layout = 0 then [(0, ib)]
  else if layout = 1 then [(0, ib), (1, ib)]
  else
    let s := u / (n - 1)
    let j := u % (n - 1)
    let p := s % n
    [((p + 1 + j) % n, s * 32 + o)]

/-- Position of the parity unit of an image block's stripe (09 R236). -/
def imageParity (n ib : Nat) : Nat := (ib / 32) / (n - 1) % n

/-! ### LDs and functions (12 R289) -/

def portOfLd (ld : Nat) : Nat := ld / 16
def portOfHead (h : Nat) : Nat := h / 2
/-- Function index of the FM-owned LD of a head. -/
def fmFn (h : Fin 4) : Nat := 32 + h.val
/-- Owner value of an LD (02 R33). -/
def ownerLd (ld : Nat) : BitVec 12 := BitVec.ofNat 12 (ld + 1)
def ownerRestore : BitVec 12 := 0x103#12
def ldBit (ld : Nat) : W32 := 1#32 <<< ld

/-! ### Masters (11 R272) -/

def mTier : Nat := 32
def mShadow : Nat := 33
def mSave : Nat := 34
def mRestore : Nat := 35
def mScrub : Nat := 36
def mPoq : Nat := 37
def mFw : Nat := 38

end Sys2Proof.Machine
end

