-- ==== Sys2Proof/Machine/Ops.lean ====
section
/-! DEFINITION. The named operations every meaning is written over: the sparse tables, one setter per part of State, one
reader and one writer per table with the value an unlisted key reads as (the reset value of that register), counters,
free values, outputs. -/

namespace Sys2Proof.Machine

abbrev Out := Host.Outcome State Fault Refusal

/-! ### Sparse tables: keys strictly rising, no entry equal to what an unlisted key reads as -/

/-- The entry of a key; an unlisted key reads as `d k`. -/
def Tab.get {β : Type} (d : Nat → β) : Tab β → Nat → β
  | [], k => d k
  | (a, v) :: r, k => if a = k then v else Tab.get d r k

/-- Entry of an unlisted key at its place. -/
def Tab.insert {β : Type} (k : Nat) (v : β) : Tab β → Tab β
  | [] => [(k, v)]
  | (a, x) :: r => if k < a then (k, v) :: (a, x) :: r else (a, x) :: Tab.insert k v r

/-- Write of one key, which keeps the canonical form. -/
def Tab.set {β : Type} [DecidableEq β] (d : Nat → β) (k : Nat) (v : β) (t : Tab β) : Tab β :=
  if v = d k then t.filter fun p => decide (p.1 ≠ k) else Tab.insert k v (t.filter fun p => decide (p.1 ≠ k))

/-- The canonical form: keys strictly rising from `lo`, no entry at its default. -/
def Tab.wfFrom {β : Type} [DecidableEq β] (d : Nat → β) (lo : Nat) : Tab β → Bool
  | [] => true
  | (a, v) :: r => decide (lo ≤ a) && decide (v ≠ d a) && Tab.wfFrom d (a + 1) r

def Tab.wf {β : Type} [DecidableEq β] (d : Nat → β) (t : Tab β) : Bool := Tab.wfFrom d 0 t

/-- Keys listed. -/
def Tab.keys {β : Type} (t : Tab β) : List Nat := t.map (·.1)

/-! ### Setters -/

def State.mapPath (s : State) (f : PathSt → PathSt) : State := { s with path := f s.path }
def State.mapLast (s : State) (f : Last → Last) : State := { s with last := f s.last }
def State.mapTier (s : State) (f : Tier → Tier) : State := { s with tier := f s.tier }
def State.mapCodec (s : State) (f : Codec → Codec) : State := { s with codec := f s.codec }
def State.mapKeys (s : State) (f : Keys → Keys) : State := { s with keys := f s.keys }
def State.mapDram (s : State) (f : Dram → Dram) : State := { s with dram := f s.dram }
def State.mapWelt (s : State) (f : Welt → Welt) : State := { s with welt := f s.welt }
def State.mapDdr (s : State) (f : Ddr → Ddr) : State := { s with ddr := f s.ddr }
def State.mapLace (s : State) (f : Lace → Lace) : State := { s with lace := f s.lace }
def State.mapShank (s : State) (f : Shank → Shank) : State := { s with shank := f s.shank }
def State.mapImage (s : State) (f : Image → Image) : State := { s with image := f s.image }
def State.mapResume (s : State) (f : Resume → Resume) : State := { s with resume := f s.resume }
def State.mapReg (s : State) (f : Regul → Regul) : State := { s with reg := f s.reg }
def State.mapPort (s : State) (f : Port → Port) : State := { s with port := f s.port }
def State.mapPoq (s : State) (f : Poq → Poq) : State := { s with poq := f s.poq }
def State.mapCmd (s : State) (f : Cmd → Cmd) : State := { s with cmd := f s.cmd }
def State.mapWorld (s : State) (f : WorldsSt → WorldsSt) : State := { s with world := f s.world }
def State.mapFault (s : State) (f : FaultSt → FaultSt) : State := { s with fault := f s.fault }
def State.mapPerf (s : State) (f : Perf → Perf) : State := { s with perf := f s.perf }
def State.mapPower (s : State) (f : Power → Power) : State := { s with power := f s.power }

/-- Sends an output. -/
def State.emit (s : State) (o : Output) : State := { s with out := o :: s.out }

/-- Sends several outputs, in order. -/
def State.emits (s : State) (os : List Output) : State := os.foldl State.emit s

/-- Takes the next free value: its index, and the counter moved on. -/
def State.draw (s : State) : Nat × State := (s.free, { s with free := s.free + 1 })

/-- The 1 ms tick of device time (16 R395). -/
def State.tick (s : State) : Nat := s.time / Config.nsMs

/-! ### What an unlisted key reads as -/

/-- Base class of an event source (16 Table — Source ranges and the tables below it); none: the number is not assigned (R390). -/
def baseClass (n : Nat) : Option Class :=
  if n ≥ 2048 then none else if n < 256 then
    if n = 0 then some .info else if n = 1 ∨ n = 2 ∨ n = 3 ∨ n = 5 ∨ n = 7 then some .degrade
    else if n = 4 ∨ n = 6 ∨ n = 16 ∨ n = 33 ∨ n = 73 ∨ n = 75 then some .severe
    else if 8 ≤ n ∧ n ≤ 15 then some .info
    else if n = 32 ∨ n = 34 ∨ n = 64 ∨ n = 67 ∨ n = 70 ∨ n = 72 then some .info
    else if n = 65 ∨ n = 68 ∨ n = 69 ∨ n = 71 ∨ n = 74 then some .degrade
    else if n = 66 then some .fatal
    else if n = 96 ∨ n = 97 ∨ n = 128 ∨ n = 129 ∨ n = 130 then some .info
    else none
  else if n < 512 then
    match (n - 256) % 128 with
    | 0 => some .degrade | 1 => some .info | 2 => some .info | 3 => some .degrade | 4 => some .degrade
    | 5 => some .info | 6 => some .degrade | _ => none
  else if n < 768 then
    if n ≤ 537 then some .info else if n = 540 ∨ n = 541 then some .info else if n = 542 then some .degrade
    else if n = 543 then some .severe else if n = 576 then some .info else if n = 577 then some .severe
    else if n = 640 ∨ n = 641 ∨ n = 642 then some .info else if n = 704 ∨ n = 705 ∨ n = 706 then some .info
    else none
  else if n < 1024 then
    if n = 768 ∨ n = 771 then some .info else if n = 770 ∨ n = 774 ∨ n = 779 then some .degrade
    else if n = 769 ∨ n = 772 ∨ n = 773 ∨ n = 775 ∨ n = 776 ∨ n = 777 ∨ n = 778 then some .severe
    else if n = 896 ∨ n = 897 ∨ n = 902 ∨ n = 904 ∨ n = 905 ∨ n = 907 ∨ n = 928 then some .severe
    else if n = 898 ∨ n = 929 ∨ n = 930 then some .degrade
    else if n = 899 ∨ n = 900 ∨ n = 901 then some .fatal
    else if n = 903 ∨ n = 906 then some .info else none
  else
    let k := (n - 1024) % 512
    if k < 384 then
      match k % 64 with
      | 0 => some .info | 1 => some .info | 2 => some .severe | 3 => some .severe | 4 => some .severe | 5 => some .severe
      | 6 => some .degrade | 7 => some .severe | 8 => some .info | 9 => some .info | 10 => some .info | 11 => some .severe
      | _ => none
    else if k = 510 then some .severe else if k = 511 then some .fatal
    else
      match (k - 384) % 64 with
      | 0 => some .info | 1 => some .info | 2 => some .info | 3 => some .degrade | 4 => some .degrade | 5 => some .severe
      | 6 => some .info | _ => none

def Class.code : Class → Nat
  | .info => 0 | .degrade => 1 | .severe => 2 | .fatal => 3

def Class.max (a b : Class) : Class := if a.code < b.code then b else a

def Class.up : Class → Class
  | .info => .degrade | .degrade => .severe | .severe => .fatal | .fatal => .fatal

/-- The base class where the number is assigned, INFO elsewhere (such a source never fires, R390). -/
def baseOf (n : Nat) : Class := (baseClass n).getD .info

/-- FIXED sources: an event class of theirs is FATAL (16 R391). -/
def fixedSource (n : Nat) : Bool := [66, 543, 899, 900, 901, 1535, 2047].contains n

/-- A source at cold reset (16 R394). -/
def sourceReset (n : Nat) : Source :=
  let rep := n = 3 ∨ n = 5
  { cls := baseOf n, sticky := false, inj := false, winCount := 0, count := 0, lastTime := 0, winStart := 0
    escN := if rep then 3 else 0, escW := if rep then 86400000 else 1000, escLimit := 2
    notify := (baseOf n).code ≥ 1, fence := false }

/-- A channel at cold reset (07 R185). -/
def chanReset : Chan :=
  { dimms := [], rate := 0, frames := 0
    control := { fgr := true, sameBank := true, relocateEn := true, relocateAfter := 4, actWarn := 2048, actMitigate := 4096
                 rateCap := 7200 }
    state := 4, cached := false, pwrEn := false, present := false, full := false, hotRefresh := false, rfm := false, temp := 0
    tfawDoubled := false, owed := [], alerts := [], failures := []
    unusable := 0, noSpares := [], hotRows := [], raa := [], queue := [], incoming := [], current := none, batch := 0, rows := []
    drfm := false, selfRefresh := false, refBank := [], slotStep := .off, record := none
    pendingRate := none, oldRate := 0, rateDeferred := none, quiesceWait := none, rejoinWait := none, counts := [] }

def laceSideReset : LaceSide :=
  { nextSeq := 0, replay := [], ready := [], expected := 0, uReq := 0, uRsp := 0, occReq := 0, occRsp := 0, incReq := 0, incRsp := 0
    peerReq := 0, peerRsp := 0, contReq := 0, contRsp := 0, nakAt := none, sinceAck := 0, leak := 0, leakRun := false
    timeouts := 0, crcTimes := [], trainSeen := false, synced := false }

/-- A Lace module at cold reset (08 R210). -/
def laceReset : LaceMod :=
  { hub := laceSideReset, die := laceSideReset, state := 0, carryAll := false, rate := 0, half := false, version := 0
    lanesRepaired := 0, returnAttempts := 0, leakScheduled := false, failedRetrains := 0, pendingPoint := none
    pointWait := none, handoverSeen := 0, returnSeen := 0, soaking := false, returning := false, returnSent := false, margin := 0, events := [], commands := [], counts := [] }

/-- A drive port with nothing on it (09 R248). -/
def driveReset : Drive :=
  { state := 0, x8 := false, speed := 0, position := 0, rate := 0, rebuilt := 0, blocks := 0, nguid := 0, fit := false
    written := 0, margin := 0, perst := false, prsnt := false, commands := [] }

/-- A master's settings at cold reset (11 R274), rates in 0.25 GB/s. -/
def masterReset (ev8820 : Bool) (n : Nat) : Master :=
  let z : Master := { outstanding := 0, priority := 4, rt := false, minRead := 0, minWrite := 0, budget := 0, pending := none
                      charge := 0, interval := 0, overBudget := false, overLast := false, holdRow := false
                      holdSoft := false, inflight := 0 }
  let h := if ev8820 then 2 else 1
  if n = mTier then { z with priority := 3, minRead := 40 / h, minWrite := 20 / h }
  else if n = mShadow then { z with priority := 5, minRead := 144 / h }
  else if n = mSave then { z with priority := 7, rt := true }
  else if n = mRestore then { z with priority := 2 }
  else if n = mScrub then { z with priority := 1, minRead := 28 / h, minWrite := 4 / h }
  else if n = mPoq then { z with priority := 2 }
  else if n = mFw then { z with priority := 6, minRead := 4, minWrite := 2 }
  else z

/-- A head with its link down. MAX_RATE 64 (12 R293). -/
def headReset : Head :=
  { up := false, link := none, l0p := 0, maxRate := 64, viral := false, rateWait := none }

/-- A function that no host has touched: unbound, every MSI-X vector masked (12 R309, R310). -/
def funcReset : Func :=
  { head := none, allocation := 0, bound := false, hdm := [], mask := [], msixPending := [], cdatSeq := 0, regs := [] }

/-- Per-LD POQ registers at reset (13 R337). -/
def poqLdReset : PoqLd := { quota := 32768, weight := 16, queues := 0, rr := 0, binds := [], counts := [] }

/-- An Eyelet channel at reset (14 R347). -/
def eyeReset : EyeCh :=
  { overrun := false, taken := 0xFFFF, done := 0xFFFF, enable := false, notice := none, reading := []
    running := [], orphans := [] }

/-- The event ring and command state of an LD at reset (14 R352, R359, R363). -/
def cmdLdReset : CmdLd :=
  { ringLog2 := 4, ringEnable := false, ringBase := 0, vector := 0xFFFF, head := 0, tail := 0, overflow := false, phase := true
    seq := 0, version := 1, background := none, alert := 0, policy := 0, timeOffset := 0, eyeCounts := [] }

def lockReset : Lock := { holder := none, fmVia := none, leaseEnd := 0 }

/-- A dynamic-capacity region at reset; block size 256 MiB (12 R291). -/
def regionReset : DcRegion := { durable := false, blockSize := 0x10000000, sanitize := false }

/-- A key slot at reset: slot 0 holds the device key for every LD, every other slot is EMPTY (05 R104, R105). -/
def slotReset (k : Nat) : KeySlot :=
  { state := if k = 0 then .loaded else .empty, key := 0, persistent := k = 0, mask := if k = 0 then 0xFFFFFFFF else 0
    programmer := 0, pages := 0, grant := 0, destroying := false, waiters := [], tspWaiters := []
    wrapped := k = 0, zeroSerial := none, zeroEpoch := none, resumed := none }

def tspReset : Tsp := { enabled := false, locked := false, ckids := [] }

/-- The record of a free frame; that of a frame of the metadata region, owned by device metadata; that of a spare frame (02 R42). -/
def frameReset : FrameRec := { map := 0, dpns := [], kind := .free, owner := 0 }
def frameMeta : FrameRec := { map := 0, dpns := [], kind := .metadata, owner := 0xFFF }
def frameSpare : FrameRec := { map := 0, dpns := [], kind := .spare, owner := 0 }

def cacheSetReset : CacheSet := { ways := [], tree := 0 }

/-- A repair-candidate entry that is FREE (06 R143). -/
def rowReset : RowEntry :=
  { firstTime := 0, lastTime := 0, row := 0, ranksel := 0, bank := 0, state := .free, count := 0, mask := 0 }

/-- Monitoring state of a function at reset (17 R418). -/
def perfReset : PerfFn :=
  { freeze := false, unitFreeze := [], cfg := [], counters := [], fixed := [], fixedSince := [], overflow := [], periodUs := 0, ringLog2 := 1
    ringEnable := false, ringBase := 0, dumpHead := 0, dumpTail := 0, dumpLost := 0, dumpSeq := 0
    sampRate := [], sampDir := [], sampLog2 := [], sampBase := [], sampHead := [], sampTail := []
    sampDropped := [] }

def counterReset : CounterCfg := { group := 0, mask := 0, threshold := 0, enable := false }

def samplerReset : Sampler := { owner := none, inBlock := 0, pick := 0, seq := 0 }

/-! ### Readers and writers of the tables -/

def State.src (s : State) (k : Nat) : Source := Tab.get sourceReset s.fault.sources k
def State.setSrc (s : State) (k : Nat) (v : Source) : State :=
  s.mapFault fun x => { x with sources := Tab.set sourceReset k v x.sources }
def State.updSrc (s : State) (k : Nat) (f : Source → Source) : State := s.setSrc k (f (s.src k))
def State.chan (s : State) (k : Nat) : Chan := Tab.get (fun _ => chanReset) s.ddr.chans k
def State.setChan (s : State) (k : Nat) (v : Chan) : State :=
  s.mapDdr fun x => { x with chans := Tab.set (fun _ => chanReset) k v x.chans }
def State.updChan (s : State) (k : Nat) (f : Chan → Chan) : State := s.setChan k (f (s.chan k))
def State.laceMod (s : State) (k : Nat) : LaceMod := Tab.get (fun _ => laceReset) s.lace.mods k
def State.setLaceMod (s : State) (k : Nat) (v : LaceMod) : State :=
  s.mapLace fun x => { x with mods := Tab.set (fun _ => laceReset) k v x.mods }
def State.updLaceMod (s : State) (k : Nat) (f : LaceMod → LaceMod) : State := s.setLaceMod k (f (s.laceMod k))
def State.drive (s : State) (k : Nat) : Drive := Tab.get (fun _ => driveReset) s.shank.drives k
def State.setDrive (s : State) (k : Nat) (v : Drive) : State :=
  s.mapShank fun x => { x with drives := Tab.set (fun _ => driveReset) k v x.drives }
def State.updDrive (s : State) (k : Nat) (f : Drive → Drive) : State := s.setDrive k (f (s.drive k))
def State.master (s : State) (k : Nat) : Master := Tab.get (masterReset s.ev8820) s.reg.masters k
def State.setMaster (s : State) (k : Nat) (v : Master) : State :=
  s.mapReg fun x => { x with masters := Tab.set (masterReset s.ev8820) k v x.masters }
def State.updMaster (s : State) (k : Nat) (f : Master → Master) : State := s.setMaster k (f (s.master k))
def State.headOf (s : State) (k : Nat) : Head := Tab.get (fun _ => headReset) s.port.heads k
def State.setHeadOf (s : State) (k : Nat) (v : Head) : State :=
  s.mapPort fun x => { x with heads := Tab.set (fun _ => headReset) k v x.heads }
def State.updHeadOf (s : State) (k : Nat) (f : Head → Head) : State := s.setHeadOf k (f (s.headOf k))
def State.fn (s : State) (k : Nat) : Func := Tab.get (fun _ => funcReset) s.port.funcs k
def State.setFn (s : State) (k : Nat) (v : Func) : State :=
  s.mapPort fun x => { x with funcs := Tab.set (fun _ => funcReset) k v x.funcs }
def State.updFn (s : State) (k : Nat) (f : Func → Func) : State := s.setFn k (f (s.fn k))
def State.ctx (s : State) (k : Nat) : Option QueueCtx := Tab.get (fun _ => none) s.poq.ctxs k
def State.setCtx (s : State) (k : Nat) (v : Option QueueCtx) : State :=
  s.mapPoq fun x => { x with ctxs := Tab.set (fun _ => none) k v x.ctxs }
def State.poqLd (s : State) (k : Nat) : PoqLd := Tab.get (fun _ => poqLdReset) s.poq.lds k
def State.setPoqLd (s : State) (k : Nat) (v : PoqLd) : State :=
  s.mapPoq fun x => { x with lds := Tab.set (fun _ => poqLdReset) k v x.lds }
def State.updPoqLd (s : State) (k : Nat) (f : PoqLd → PoqLd) : State := s.setPoqLd k (f (s.poqLd k))
def State.eye (s : State) (k : Nat) : EyeCh := Tab.get (fun _ => eyeReset) s.cmd.eyes k
def State.setEye (s : State) (k : Nat) (v : EyeCh) : State :=
  s.mapCmd fun x => { x with eyes := Tab.set (fun _ => eyeReset) k v x.eyes }
def State.updEye (s : State) (k : Nat) (f : EyeCh → EyeCh) : State := s.setEye k (f (s.eye k))
def State.cmdLd (s : State) (k : Nat) : CmdLd := Tab.get (fun _ => cmdLdReset) s.cmd.lds k
def State.setCmdLd (s : State) (k : Nat) (v : CmdLd) : State :=
  s.mapCmd fun x => { x with lds := Tab.set (fun _ => cmdLdReset) k v x.lds }
def State.updCmdLd (s : State) (k : Nat) (f : CmdLd → CmdLd) : State := s.setCmdLd k (f (s.cmdLd k))
def State.lock (s : State) (k : Nat) : Lock := Tab.get (fun _ => lockReset) s.cmd.locks k
def State.setLock (s : State) (k : Nat) (v : Lock) : State :=
  s.mapCmd fun x => { x with locks := Tab.set (fun _ => lockReset) k v x.locks }
def State.updLock (s : State) (k : Nat) (f : Lock → Lock) : State := s.setLock k (f (s.lock k))
def State.region (s : State) (k : Nat) : DcRegion := Tab.get (fun _ => regionReset) s.cmd.regions k
def State.setRegion (s : State) (k : Nat) (v : DcRegion) : State :=
  s.mapCmd fun x => { x with regions := Tab.set (fun _ => regionReset) k v x.regions }
def State.updRegion (s : State) (k : Nat) (f : DcRegion → DcRegion) : State := s.setRegion k (f (s.region k))
def State.log (s : State) (k : Nat) : List (Nat × Nat) := Tab.get (fun _ => []) s.cmd.logs k
def State.setLog (s : State) (k : Nat) (v : List (Nat × Nat)) : State :=
  s.mapCmd fun x => { x with logs := Tab.set (fun _ => []) k v x.logs }
def State.slot (s : State) (k : Nat) : KeySlot := Tab.get slotReset s.keys.slots k
def State.setSlot (s : State) (k : Nat) (v : KeySlot) : State :=
  s.mapKeys fun x => { x with slots := Tab.set slotReset k v x.slots }
def State.updSlot (s : State) (k : Nat) (f : KeySlot → KeySlot) : State := s.setSlot k (f (s.slot k))
def State.defKey (s : State) (k : Nat) : BitVec 12 := Tab.get (fun _ => 0) s.keys.defaultKey k
def State.setDefKey (s : State) (k : Nat) (v : BitVec 12) : State :=
  s.mapKeys fun x => { x with defaultKey := Tab.set (fun _ => 0) k v x.defaultKey }
def State.tspOf (s : State) (k : Nat) : Tsp := Tab.get (fun _ => tspReset) s.keys.tsp k
def State.setTspOf (s : State) (k : Nat) (v : Tsp) : State :=
  s.mapKeys fun x => { x with tsp := Tab.set (fun _ => tspReset) k v x.tsp }
def State.updTspOf (s : State) (k : Nat) (f : Tsp → Tsp) : State := s.setTspOf k (f (s.tspOf k))
def State.keyQuota (s : State) (k : Nat) : Nat := Tab.get (fun _ => 127) s.keys.quota k
def State.setKeyQuota (s : State) (k : Nat) (v : Nat) : State :=
  s.mapKeys fun x => { x with quota := Tab.set (fun _ => 127) k v x.quota }
def ideReset : IdeStream := { setA := none, setB := none, active := none, containment := false }
/-- The IDE stream k of a port p at 6 × p + k: 0 is CXL.cachemem, 1 the link stream, 2 to 5 the selective streams (05 R121). -/
def State.ideStream (s : State) (k : Nat) : IdeStream := Tab.get (fun _ => ideReset) s.keys.ide k
def State.setIdeStream (s : State) (k : Nat) (v : IdeStream) : State :=
  s.mapKeys fun x => { x with ide := Tab.set (fun _ => ideReset) k v x.ide }
def State.map (s : State) (k : Nat) : List MapEntry := Tab.get (fun _ => []) s.last.maps k
def State.setMap (s : State) (k : Nat) (v : List MapEntry) : State :=
  s.mapLast fun x => { x with maps := Tab.set (fun _ => []) k v x.maps }
def State.tableEntry (s : State) (k : Nat) : LastEntry := Tab.get (fun _ => LastEntry.zero) s.last.table k
def State.setTableEntry (s : State) (k : Nat) (v : LastEntry) : State :=
  s.mapLast fun x => { x with table := Tab.set (fun _ => LastEntry.zero) k v x.table }
def State.updTableEntry (s : State) (k : Nat) (f : LastEntry → LastEntry) : State := s.setTableEntry k (f (s.tableEntry k))
def State.cacheSet (s : State) (k : Nat) : CacheSet := Tab.get (fun _ => cacheSetReset) s.last.cache k
def State.setCacheSet (s : State) (k : Nat) (v : CacheSet) : State :=
  s.mapLast fun x => { x with cache := Tab.set (fun _ => cacheSetReset) k v x.cache }
def State.updCacheSet (s : State) (k : Nat) (f : CacheSet → CacheSet) : State := s.setCacheSet k (f (s.cacheSet k))
def State.tracker (s : State) (k : Nat) : Option Tracker := Tab.get (fun _ => none) s.last.trackers k
def State.setTracker (s : State) (k : Nat) (v : Option Tracker) : State :=
  s.mapLast fun x => { x with trackers := Tab.set (fun _ => none) k v x.trackers }
def State.bucket (s : State) (k : Nat) : List Dpn := Tab.get (fun _ => []) s.tier.buckets k
def State.setBucket (s : State) (k : Nat) (v : List Dpn) : State :=
  s.mapTier fun x => { x with buckets := Tab.set (fun _ => []) k v x.buckets }
def State.unit (s : State) (k : Nat) : Option UnitSlot := Tab.get (fun _ => none) s.welt.units k
def State.setUnit (s : State) (k : Nat) (v : Option UnitSlot) : State :=
  s.mapWelt fun x => { x with units := Tab.set (fun _ => none) k v x.units }
def State.row (s : State) (k : Nat) : RowEntry := Tab.get (fun _ => rowReset) s.welt.rows k
def State.setRow (s : State) (k : Nat) (v : RowEntry) : State :=
  s.mapWelt fun x => { x with rows := Tab.set (fun _ => rowReset) k v x.rows }
def State.updRow (s : State) (k : Nat) (f : RowEntry → RowEntry) : State := s.setRow k (f (s.row k))
def State.compat (s : State) (k : Nat) : Option Compat := Tab.get (fun _ => none) s.welt.compat k
def State.setCompat (s : State) (k : Nat) (v : Option Compat) : State :=
  s.mapWelt fun x => { x with compat := Tab.set (fun _ => none) k v x.compat }
def State.core (s : State) (k : Nat) : Bool × Nat × Option Nat := Tab.get (fun _ => (false, 0, none)) s.world.cores k
def State.setCore (s : State) (k : Nat) (v : Bool × Nat × Option Nat) : State :=
  s.mapWorld fun x => { x with cores := Tab.set (fun _ => (false, 0, none)) k v x.cores }
def State.pageOwner (s : State) (k : Nat) : PageOwner := Tab.get (fun _ => .normal) s.world.pages k
def State.setPageOwner (s : State) (k : Nat) (v : PageOwner) : State :=
  s.mapWorld fun x => { x with pages := Tab.set (fun _ => .normal) k v x.pages }
def State.sessionOf (s : State) (k : Nat) : Option Session := Tab.get (fun _ => none) s.world.sessions k
def State.setSessionOf (s : State) (k : Nat) (v : Option Session) : State :=
  s.mapWorld fun x => { x with sessions := Tab.set (fun _ => none) k v x.sessions }
def State.gate (s : State) (k : Nat) : Bool := Tab.get (fun _ => false) s.world.gates k
def State.setGate (s : State) (k : Nat) (v : Bool) : State :=
  s.mapWorld fun x => { x with gates := Tab.set (fun _ => false) k v x.gates }
def State.perfFn (s : State) (k : Nat) : PerfFn := Tab.get (fun _ => perfReset) s.perf.fns k
def State.setPerfFn (s : State) (k : Nat) (v : PerfFn) : State :=
  s.mapPerf fun x => { x with fns := Tab.set (fun _ => perfReset) k v x.fns }
def State.updPerfFn (s : State) (k : Nat) (f : PerfFn → PerfFn) : State := s.setPerfFn k (f (s.perfFn k))
def State.sampler (s : State) (k : Nat) : Sampler := Tab.get (fun _ => samplerReset) s.perf.samplers k
def State.setSampler (s : State) (k : Nat) (v : Sampler) : State :=
  s.mapPerf fun x => { x with samplers := Tab.set (fun _ => samplerReset) k v x.samplers }
def State.updSampler (s : State) (k : Nat) (f : Sampler → Sampler) : State := s.setSampler k (f (s.sampler k))
def State.inj (s : State) (k : Nat) : Option Injection := Tab.get (fun _ => none) s.fault.awl k
def State.setInj (s : State) (k : Nat) (v : Option Injection) : State :=
  s.mapFault fun x => { x with awl := Tab.set (fun _ => none) k v x.awl }

/-! ### Interrupts and host memory (12 R309) -/

/-- Raises a vector of a function: a message when unmasked, else the pending bit; 0xFFFF names none. -/
def State.raiseVector (s : State) (fn : Nat) (v : Nat) : State :=
  if v ≥ 2048 then s
  else if Tab.get (fun _ => true) (s.fn fn).mask v then
    s.updFn fn fun f => { f with msixPending := Tab.set (fun _ => false) v true f.msixPending }
  else s.emit (.msix fn v)

/-! ### Counters (wrapping, 64 bits) -/

def Tab.bump (k : Nat) (n : Nat) (t : Tab W64) : Tab W64 :=
  Tab.set (fun _ => 0) k (Tab.get (fun _ => 0) t k + BitVec.ofNat 64 n) t

/-- Key of counter c of monitoring unit u. -/
def pmKey (u c : Nat) : Nat := u * 8 + c

def PerfFn.config (f : PerfFn) (k : Nat) : CounterCfg := Tab.get (fun _ => counterReset) f.cfg k

/-- Counts n on a programmable counter of 48 bits. An overflow sets the counter's status unless the next counter is chained to it and
counts it instead (17 R412). The answer says whether a status was set. -/
def PerfFn.count1 (f : PerfFn) (k n : Nat) : PerfFn × Nat × Bool :=
  let v := (Tab.get (fun _ => 0) f.counters k).toNat + n
  let f := { f with counters := Tab.set (fun _ => 0) k (BitVec.ofNat 48 v) f.counters }
  let chained := decide (k % 2 = 0) && (f.config (k + 1)).enable && decide ((f.config (k + 1)).group = 0x8F)
  if v < 2 ^ 48 then (f, 0, false)
  else if chained then (f, v / 2 ^ 48, false)
  else ({ f with overflow := Tab.set (fun _ => false) k true f.overflow }, 0, true)

def PerfFn.count (f : PerfFn) (k n : Nat) : PerfFn × Bool :=
  match f.count1 k n with
  | (f, 0, o) => (f, o)
  | (f, c, _) => let (f, _, o) := f.count1 (k + 1) c; (f, o)

/-- Counter c of unit u of an instance runs (17 R413); bit 8 of the unit's freeze mask is the fixed counter's. -/
def PerfFn.runs (f : PerfFn) (u c : Nat) : Bool := !f.freeze && !(Tab.get (fun _ => 0) f.unitFreeze u).getLsbD c

/-- n events of a group and bit at monitoring unit u (17 R409, R410): counted in the instances of `ld`, or in every instance where no LD is
named, and in those of the FM-owned LDs. -/
def State.pm (s : State) (u g b : Nat) (ld : Option Nat := none) (n : Nat := 1) : State :=
  s.perf.fns.foldl (fun s p =>
    let mine := decide (32 ≤ p.1) || match ld with | some k => k == p.1 | none => true
    if !mine then s
    else (List.range 8).foldl (fun (s : State) c =>
      let f := s.perfFn p.1
      let k := pmKey u c
      let x := f.config k
      if x.enable && decide (x.group.toNat = g) && x.mask.getLsbD b && f.runs u c then
        let (f, o) := f.count k n
        let s := s.setPerfFn p.1 f
        if o then s.raiseVector p.1 Config.cpmuVector.val else s
      else s) s) s

/-- Events of the port, Lace, channel, codec, crypto, Last, POQ and Shank units (17 Table — Palfa events). `noLd` names a request that
is no LD's. -/
def noLd : Option Nat := some 255
def State.pmPort (s : State) (p b : Nat) (ld : Nat) : State := s.pm p 0x80 b (some ld)
/-- CXL's own event groups of a port (17 R410): M2S Req 0x20 with MemRd, M2S RwD 0x21 with MemWr and MemWrPtl, S2M NDR 0x24 with Cmp, S2M DRS 0x25 with
MemData. The numbers are CXL 3.1's (PRESUMED, log 160). -/
def State.pmCxl (s : State) (g b : Nat) (ld : Nat) : State := s.pm (if ld < 16 then 0 else 1) g b (some ld)
def State.pmLace (s : State) (m b : Nat) (n : Nat := 1) : State := s.pm (2 + m / 2) 0x81 b none n
def State.pmChan (s : State) (c b : Nat) (n : Nat := 1) : State := s.pm (4 + c) 0x82 b none n
def State.pmCodec (s : State) (b : Nat) (n : Nat := 1) : State := s.pm 16 0x83 b none n
def State.pmCrypto (s : State) (b : Nat) (n : Nat := 1) : State := s.pm 17 0x84 b none n
def State.pmLast (s : State) (b : Nat) (ld : Option Nat) : State := s.pm 18 0x85 b ld
def State.pmPoq (s : State) (b : Nat) (ld : Nat) (n : Nat := 1) : State := s.pm 19 0x86 b (some ld) n
def State.pmShank (s : State) (b : Nat) (n : Nat := 1) : State := s.pm 20 0x87 b none n

def State.countTier (s : State) (k : Nat) (n : Nat := 1) : State := s.mapTier fun x => { x with counts := Tab.bump k n x.counts }
def State.countCodec (s : State) (k : Nat) (n : Nat := 1) : State :=
  let s := s.mapCodec fun x => { x with counts := Tab.bump k n x.counts }
  if k = 1 then s.pmCodec 3 n else if k = 2 then s.pmCodec 4 n else s
def State.countWelt (s : State) (k : Nat) (n : Nat := 1) : State := s.mapWelt fun x => { x with counts := Tab.bump k n x.counts }
def State.countShank (s : State) (k : Nat) (n : Nat := 1) : State :=
  let s := s.mapShank fun x => { x with counts := Tab.bump k n x.counts }
  if k = 0 then s.pmShank 0 n else if k = 2 then s.pmShank 4 n else if k = 3 then s.pmShank 3 n else s
def State.countReg (s : State) (k : Nat) (n : Nat := 1) : State := s.mapReg fun x => { x with counts := Tab.bump k n x.counts }
def State.countLace (s : State) (m k : Nat) : State :=
  let s := s.updLaceMod m fun x => { x with counts := Tab.bump k 1 x.counts }
  if k = 0 then s.pmLace m 2 else if k = 2 then s.pmLace m 3 else if k = 4 then s.pmLace m 4 else s
def State.countChan (s : State) (c k : Nat) : State :=
  let s := s.updChan c fun x => { x with counts := Tab.bump k 1 x.counts }
  if k = 0 then s.pmChan c 5 else if k = 1 then s.pmChan c 6 else s
def State.countPoq (s : State) (ld k : Nat) (n : Nat := 1) : State :=
  let s := s.updPoqLd ld fun x => { x with counts := Tab.bump k n x.counts }
  if k = 0 then s.pmPoq 3 ld n else if k = 2 ∨ k = 3 then s.pmPoq 1 ld n else if k = 4 then s.pmPoq 5 ld n
  else if k = 5 then s.pmPoq 4 ld n else s
def State.countEye (s : State) (ld k : Nat) : State := s.updCmdLd ld fun x => { x with eyeCounts := Tab.bump k 1 x.eyeCounts }

/-! ### Units present (00 R3) -/

def State.channels (s : State) : Nat := s.w
def State.nLds (s : State) : Nat := if s.ev8820 then 16 else 32
def State.nHeads (s : State) : Nat := if s.ev8820 then 2 else 4
def State.nDrives (s : State) : Nat := if s.ev8820 then 2 else 4
def State.nModules (s : State) : Nat := if s.ev8820 then 2 else 4
def State.hasChannel (s : State) (c : Nat) : Bool := decide (c < s.channels)
def State.hasLd (s : State) (n : Nat) : Bool := decide (n < s.nLds)
def State.hasHead (s : State) (n : Nat) : Bool := decide (n < s.nHeads)
def State.hasModule (s : State) (n : Nat) : Bool := decide (n < s.nModules)
def State.hasDrive (s : State) (n : Nat) : Bool := decide (n < s.nDrives)
/-- Function indices: LDs, then the FM-owned LDs. -/
def State.hasFn (s : State) (n : Nat) : Bool := if n < 32 then s.hasLd n else s.hasHead (n - 32)

def State.boundLds (s : State) : List Nat := (List.range s.nLds).filter fun n => (s.fn n).bound

/-- A save runs, or the state before its resume (09 R248: SAVING, SAVED). -/
def State.inSave (s : State) : Bool := s.shank.saveStep != 0
/-- A resume runs: the service level is below S3 (10 R249). -/
def State.inResume (s : State) : Bool := s.resume.level != 3

/-- A ring of 2^k entries is full: its tail would meet its head (DEDUCED, log 20). -/
def ringFull (log2 head tail : Nat) : Bool := (tail + 1) % 2 ^ log2 == head % 2 ^ log2

/-- The passing of one nanosecond of device time. -/
def tickTime (s : State) : State := { s with time := s.time + 1 }

def insertBy {α : Type} (before : α → α → Bool) (x : α) : List α → List α
  | [] => [x]
  | y :: r => if before x y then x :: y :: r else y :: insertBy before x r

/-- A stable insertion sort. -/
def sortBy {α : Type} (before : α → α → Bool) (l : List α) : List α := l.foldr (insertBy before) []

/-- Replaces the first element that meets a test. -/
def replaceFirst {α : Type} (p : α → Bool) (f : α → α) : List α → List α
  | [] => []
  | x :: r => if p x then f x :: r else x :: replaceFirst p f r

def nextIdx (log2 i : Nat) : Nat := (i + 1) % 2 ^ log2

end Sys2Proof.Machine
end

