-- ==== Sys2Proof/Machine/Fabric.lean ====
section
/-! DEFINITION. The event fabric (16): counting and escalation, Insole, FIRST_FAULT, notices, the standard logs, the FATAL
reaction. Every block reports through `raise`; fences by escalation are in Machine/Units.lean. -/

namespace Sys2Proof.Machine

/-! ### Source numbers (16 R389) -/

def srcPort (p off : Nat) : Nat := 256 + 128 * p + off
def srcChan (c off : Nat) : Nat := if c < 6 then 1024 + 64 * c + off else 1536 + 64 * (c - 6) + off
def srcLace (m off : Nat) : Nat := if m < 2 then 1408 + 64 * m + off else 1920 + 64 * (m - 2) + off
def srcLaceVersion (die : Nat) : Nat := 1534 + 512 * die
def srcDieDown (die : Nat) : Nat := 1535 + 512 * die

/-- An event as a block reports it. `inj` is the injection it is attributed to and whether that is DRY (R401, R402). -/
structure Ev where
  source : Nat
  cls : Option Class
  ld : Option (Fin 32)
  dpa : Nat
  detail : List Nat
  inj : Option (W32 × Bool)
  fenced : Bool
  deriving DecidableEq, Repr

def Ev.of (n : Nat) : Ev :=
  { source := n, cls := none, ld := none, dpa := 0, detail := [], inj := none, fenced := false }

/-- An event after counting: the class handled, the source's class after it, escalation, and whether its sticky bit was clear. -/
structure Handled where
  e : Ev
  cls : Class
  after : Class
  up : Bool
  fresh : Bool
  deriving DecidableEq, Repr

/-- A source that exists on this product (16 R390, 00 R3). -/
def firesHere (s : State) (n : Nat) : Bool := (baseClass n).isSome && !(s.ev8820 && decide (n ≥ 1536))

/-- The counting part of R395: the source after one event at a tick, and whether its class rose. -/
def countSource (src : Source) (tick now : Nat) : Source × Bool :=
  let src := { src with count := min (src.count + 1) 16777215, lastTime := now }
  if src.escN = 0 then (src, false)
  else
    let src := if src.winCount = 0 ∨ tick - src.winStart ≥ src.escW then { src with winStart := tick, winCount := 0 } else src
    let n := src.winCount + 1
    if n = src.escN then
      if src.cls.code < src.escLimit then ({ src with winCount := 0, cls := src.cls.up }, true)
      else ({ src with winCount := 0 }, false)
    else ({ src with winCount := n }, false)

/-- Counts one event and sets its sticky bits (R395, R401, R402). A DRY injected event is not counted. -/
def countEvent (e : Ev) (s : State) : Handled × State :=
  let src := s.src e.source
  let c := e.cls.getD (baseOf e.source)
  match e.inj with
  | some (_, true) =>
    ({ e, cls := Class.max c src.cls, after := src.cls, up := false, fresh := false },
     s.setSrc e.source { src with inj := true })
  | some (_, false) =>
    let (t, up) := countSource src s.tick s.time
    ({ e, cls := Class.max c t.cls, after := t.cls, up, fresh := false }, s.setSrc e.source { t with inj := true })
  | none =>
    let (t, up) := countSource src s.tick s.time
    ({ e, cls := Class.max c t.cls, after := t.cls, up, fresh := !src.sticky }, s.setSrc e.source { t with sticky := true })

/-- Whether Insole takes a record of the event (R397). -/
def Handled.recorded (h : Handled) : Bool := h.fresh || h.up || decide (h.cls.code ≥ 2) || h.e.inj.isSome

/-- Appends an Insole record: the newest 4,096 are kept, nothing is written while frozen, and the record waits for export
(R404, R405). -/
def insoleWrite (r : InsoleRec) (s : State) : State :=
  if s.fault.frozen then s
  else s.mapFault fun f =>
    { f with insole := ({ r with seq := f.nextSeq, time := s.time } :: f.insole).take 4096
             nextSeq := f.nextSeq + 1
             expWaiting := if f.expEnable then f.expWaiting ++ [f.nextSeq] else f.expWaiting }

/-- A record of KIND 2 to 5, whose SOURCE is 0xFFFF (R404). -/
def insoleOther (k : RecKind) (detail : List Nat) (ld : Option (Fin 32)) (s : State) : State :=
  insoleWrite { seq := 0, kind := k, inj := false, sameCycle := false, firstFault := false, escalated := false, fenced := false
                dry := false, source := 0xFFFF, time := 0, cls := .info, clsAfter := .info, ld, detail } s

/-- FIRST_FAULT takes a real event handled at DEGRADE or above when it is clear (R398). -/
def takesFirst (s : State) (h : Handled) : Bool := s.fault.first.isNone && h.e.inj.isNone && decide (h.cls.code ≥ 1)

/-- Insole record and FIRST_FAULT of one event. `same` marks the record, `tie` marks FIRST_FAULT. -/
def recordEvent (same tie : Bool) (h : Handled) (s : State) : State :=
  let first := takesFirst s h
  let seq := s.fault.nextSeq
  let s := if first then
      s.mapFault fun f => { f with first := some { sameCycle := tie, cls := h.cls, source := h.e.source, seq } }
    else s
  if h.recorded then
    insoleWrite { seq := 0, kind := .event, inj := h.e.inj.isSome, sameCycle := same, firstFault := first, escalated := h.up
                  fenced := h.e.fenced, dry := (h.e.inj.map (·.2)).getD false, source := BitVec.ofNat 16 h.e.source
                  time := 0, cls := h.cls, clsAfter := h.after, ld := h.e.ld
                  detail := match h.e.inj with
                    | some (n, _) => h.e.detail ++ [n.toNat]
                    | none => h.e.detail } s
  else s

/-- Writes a notice at the tail of an LD's event ring, or drops it when the ring is full (14 R352). The answer says whether
it was dropped. A ring that is not enabled takes no notice (DEDUCED, log 21). -/
def putNotice (ld kind : Nat) (data : List Nat) (s : State) : Bool × State :=
  let c := s.cmdLd ld
  if !c.ringEnable then (false, s)
  else if ringFull c.ringLog2 c.head c.tail then
    (true, (s.updCmdLd ld fun c => { c with overflow := true }).countEye ld 3)
  else
    let t := nextIdx c.ringLog2 c.tail
    let s := s.emit (.notice ld kind ([c.tail, if c.phase then 1 else 0, c.seq.toNat, s.time] ++ data))
    let s := s.updCmdLd ld fun c => { c with tail := t, phase := if t = 0 then !c.phase else c.phase, seq := c.seq + 1 }
    (false, s.raiseVector ld c.vector.toNat)

/-- A dropped notice counts on SRC_EYELET_EVENT_DROP. Its own notice would meet the same full ring, so none is tried. -/
def postNotice (ld kind : Nat) (data : List Nat) (s : State) : State :=
  let (dropped, s) := putNotice ld kind data s
  if dropped then
    let (h, s) := countEvent { Ev.of 130 with ld := if h : ld < 32 then some ⟨ld, h⟩ else none } s
    recordEvent false false h s
  else s

/-- A notice to the ring of every bound LD. -/
def postAll (kind : Nat) (data : List Nat) (s : State) : State :=
  s.boundLds.foldl (fun s n => postNotice n kind data s) s

/-- DATA of a KIND 1 notice (14 R353). -/
def noticeData (h : Handled) (seq : Nat) : List Nat :=
  [h.e.source, h.cls.code + 4 * h.after.code,
   (if h.up then 1 else 0) + (if h.e.inj.isSome then 2 else 0) + (if h.e.fenced then 4 else 0), seq, h.e.dpa,
   match h.e.ld with | some n => n.val | none => 0xFF]

/-- A record in a standard log: 256 are held and a further one is dropped (14 R341; the overflow rule is PRESUMED, log 22).
Bound hosts whose policy asks for it get the log's interrupt. -/
def logWrite (n : Nat) (h : Handled) (s : State) : State :=
  let l := s.log n
  if l.length ≥ 256 then s
  else
    let handle := l.foldl (fun m r => max m r.1) 0 % 65535 + 1
    let s := s.setLog n (l ++ [(handle, h.e.source + 65536 * h.cls.code)])
    s.boundLds.foldl (fun s ld =>
      let p := fld (s.cmdLd ld).policy (8 * n) 8
      if p % 4 = 1 then s.raiseVector ld (p / 16) else s) s

/-- The steps of R393 after the records are written: Insole freezes, ALIVE holds, heads with Viral enabled signal it, and an
emergency save starts unless a save runs already (09 R227). -/
def fatalReaction (s : State) : State :=
  let s := s.mapFault fun f => { f with frozen := true, fatal := true }
  let s := (List.range s.nHeads).foldl (fun s h =>
    if Config.viralEnabled h ∧ (s.headOf h).up then
      (s.updHeadOf h fun x => { x with viral := true }).emit (.port (Fin.ofNat 4 h) "viral" 0)
    else s) s
  if s.shank.saveStep = 0 ∧ !s.shank.saveDone then
    (s.mapShank fun k => { k with saveStep := 1, emergency := true }).mapPower fun p => { p with state := 1 }
  else s

/-- The reactions of R391 to an event handled at a class: notices below FATAL, and standard logs, under NOTIFY. -/
def reactEvent (h : Handled) (seq : Nat) (s : State) : State :=
  match h.e.inj with
  | some (_, true) => s
  | _ =>
    if (s.src h.e.source).notify then
      let s := match h.cls, h.e.ld with
        | .fatal, _ => s
        | _, some n => postNotice n.val 1 (noticeData h seq) s
        | _, none => postAll 1 (noticeData h seq) s
      match h.cls with
      | .info => logWrite 0 h s
      | .degrade => logWrite 1 h s
      | .severe => logWrite 2 h s
      | .fatal => logWrite 3 h (logWrite 2 h s)
    else s

/-- Whether the FATAL reaction follows: a DRY injected event takes none. -/
def Handled.fatal (h : Handled) : Bool :=
  decide (h.cls = .fatal) && !((h.e.inj.map (·.2)).getD false)

/-- SEQ that a notice names: that of the record, 0xFFFF_FFFF when none is written. -/
def noticeSeq (s : State) (h : Handled) : Nat :=
  if h.recorded && !s.fault.frozen then s.fault.nextSeq.toNat else 0xFFFFFFFF

/-- One event that has its hub cycle to itself. An unassigned source never fires (R390). -/
def raise (e : Ev) (s : State) : State :=
  if firesHere s e.source then
    let (h, s) := countEvent e s
    let q := noticeSeq s h
    let s := reactEvent h q (recordEvent false false h s)
    if h.fatal then fatalReaction s else s
  else s

/-- An event of a source with its base class and no detail. -/
def fire (n : Nat) (s : State) : State := raise (Ev.of n) s

/-- Order of the records of one cycle: class descending, source ascending, real before injected (R396). -/
def recordBefore (a b : Handled) : Bool :=
  if a.cls.code ≠ b.cls.code then decide (a.cls.code > b.cls.code)
  else if a.e.source ≠ b.e.source then decide (a.e.source < b.e.source)
  else a.e.inj.isNone || b.e.inj.isSome

/-- Events that reach the fabric in one hub cycle (R396, R398, R393): counted in order of arrival, recorded in order of class,
then reacted to. -/
def raiseCycle (es : List Ev) (s : State) : State :=
  let es := es.filter fun e => firesHere s e.source
  let (hs, s) := es.foldl (fun (acc : List Handled × State) e =>
    let (h, s) := countEvent e acc.2
    (acc.1 ++ [h], s)) ([], s)
  let same := decide (hs.length > 1)
  let tie := decide ((hs.filter fun h => h.e.inj.isNone && decide (h.cls.code ≥ 1)).length > 1)
  let sorted := sortBy recordBefore hs
  let (seqs, s) := sorted.foldl (fun (acc : List (Handled × Nat) × State) h =>
    (acc.1 ++ [(h, noticeSeq acc.2 h)], recordEvent same tie h acc.2)) ([], s)
  let s := seqs.foldl (fun s p => reactEvent p.1 p.2 s) s
  if hs.any (·.fatal) then fatalReaction s else s

/-- Return to base of one source at a tick (R395). -/
def returnSource (tick : Nat) (n : Nat) (src : Source) : Source :=
  if src.cls.code > (baseOf n).code ∧ src.cls.code < 3 ∧ tick - src.lastTime / Config.nsMs ≥ src.escW
  then { src with cls := baseOf n } else src

end Sys2Proof.Machine
end

