-- ==== Sys2Proof/Machine/Sender.lean ====
section
/-! DEFINITION. Who sends a command, whether it may run, and how its answer leaves (14 R338 to R351): roles, sessions, lock 0,
lengths, the status word, Eyelet completions, paged lists. -/

namespace Sys2Proof.Machine

/-! ### Status codes (14 Table — Slafin status codes) -/

def stOk : W16 := 0x0000
def stBusy : W16 := 0x0001
def stBusySecure : W16 := 0x0002
def stDeferred : W16 := 0x0003
def stInvalidOpcode : W16 := 0x0010
def stInvalidRange : W16 := 0x0011
def stInvalidAlign : W16 := 0x0012
def stInvalidLength : W16 := 0x0013
def stUnsupportedVersion : W16 := 0x0014
def stNotOwner : W16 := 0x0020
def stDenied : W16 := 0x0021
def stLockHeld : W16 := 0x0022
def stOverrun : W16 := 0x0030
def stCheckMismatch : W16 := 0x0031
def stDataLost : W16 := 0x0032
def stAdmission : W16 := 0x0040
def stNoResource : W16 := 0x0041
def stStale : W16 := 0x0042

/-! ### Roles (R338) -/

inductive Role where
  | ld (n : Fin 32)
  | fm
  | bmc
  | own
  deriving DecidableEq, Repr

/-- The LD of a path, if it is an LD's. -/
def pathLd : Path → Option (Fin 32)
  | .mailbox ld _ => some ld
  | .eyelet ld _ _ => some ld
  | .doe ld => some ld
  | _ => none

/-- The unit of the path exists on this product (00 R3). -/
def State.pathHere (s : State) : Path → Bool
  | .mailbox ld _ => s.hasLd ld.val
  | .eyelet ld _ _ => s.hasLd ld.val
  | .doe ld => s.hasLd ld.val
  | .fmLd h => s.hasHead h.val
  | _ => true

/-- The established session that carries a message; sessions run on a DOE or over MCTP. -/
def State.msgSession (s : State) (m : Msg) : Option Session :=
  match m.session with
  | none => none
  | some k =>
    match s.sessionOf k.val with
    | none => none
    | some x =>
      let here := match m.path with
        | .doe ld => decide (x.ld = some ld)
        | .mctpFm => x.ld.isNone
        | .mctpBmc => x.ld.isNone
        | _ => false
      if x.finished && here then some x else none

/-- The requester of the session authenticated with the key that SET_OWNER_KEY installed. -/
def State.ownerSession (s : State) (x : Session) : Bool := x.owner && decide (s.cmd.owner = some x.keyHash)

def State.role (s : State) (m : Msg) : Role :=
  let byPath : Role := match m.path with
    | .mailbox ld _ => .ld ld
    | .eyelet ld _ _ => .ld ld
    | .doe ld => .ld ld
    | .fmLd _ => .fm
    | .mctpFm => .fm
    | .mctpBmc => .bmc
  match s.msgSession m with
  | some x => if s.ownerSession x then .own else byPath
  | none => byPath

/-- The party of a path at the management locks (R355). -/
def lockParty : Path → Fin 34
  | .mailbox ld _ => ⟨ld.val, by omega⟩
  | .eyelet ld _ _ => ⟨ld.val, by omega⟩
  | .doe ld => ⟨ld.val, by omega⟩
  | .mctpBmc => 32
  | _ => 33

/-! ### Commands that arrive -/

/-- Index of Eyelet channel ch of an LD. -/
def eyeKey (ld : Fin 32) (ch : Fin 16) : Nat := ld.val * 16 + ch.val

/-- The Eyelet command block that a message comes from. -/
def blockOf (m : Msg) (op : Nat) (tag : W32) (b : CmdBlock) : Bool :=
  decide (b.tag = tag) && decide (b.opcode.toNat = op) && decide (b.inLen.toNat = m.inLen) && decide (b.outLen.toNat = m.outLen)

/-- Commands whose completion is still to come: a mailbox holds one command at a time (R340). -/
def State.openMsgs (s : State) : List Msg :=
  (s.ddr.chans.flatMap fun p => (p.2.rateDeferred.map (·.1)).toList ++ p.2.quiesceWait.toList ++ p.2.rejoinWait.toList)
    ++ (s.lace.mods.filterMap fun p => p.2.pointWait.map (·.1))
    ++ (s.port.heads.filterMap fun p => p.2.rateWait.map (·.2))
    ++ (s.keys.slots.flatMap fun p => p.2.waiters)
    ++ (s.poq.ctxs.filterMap fun p => p.2.bind (·.destroyer))
    ++ s.world.activatedBy.toList ++ s.cmd.removals.filterMap (·.m) ++ s.cmd.lineJobs.map (·.m)

def State.pathBusy (s : State) (p : Path) : Bool :=
  match p with
  | .mailbox _ _ => s.openMsgs.any fun m => decide (m.path = p)
  | .fmLd _ => s.openMsgs.any fun m => decide (m.path = p)
  | _ => false

/-- The command can be taken now: its unit exists, its mailbox is free, an Eyelet command's block has been read, and the normal
world runs. Otherwise it waits in its channel (R346, 15 R366). -/
def State.arrives (s : State) (m : Msg) (op : Nat) : Bool :=
  s.pathHere m.path && !s.pathBusy m.path && decide (s.world.normal = .up) &&
    match m.path with
    | .eyelet ld ch tag =>
      ((s.eye (eyeKey ld ch)).running.any fun r => blockOf m op tag r.1)
        || (s.eye (eyeKey ld ch)).orphans.any (blockOf m op tag)
    | _ => true

/-- Output space (R345); a DOE object carries up to 1 MiB (DEDUCED, log 43). -/
def outSpace (m : Msg) : Nat :=
  match m.path with
  | .eyelet _ _ _ => m.outLen
  | .mctpFm => 4096
  | .mctpBmc => 4096
  | _ => 1048576

/-! ### Answers (R343, R350) -/

/-- Bytes 32 to 51 of a command block. -/
def completionBytes (status : Nat) (outBytes : Nat) (ld : Fin 32) (ch : Fin 16) (pasid : Option (BitVec 20)) : List Byte :=
  leNat 2 status ++ zeros 2 ++ leNat 4 outBytes ++ leNat 1 ld.val ++ leNat 1 ch.val ++ zeros 2
    ++ leNat 4 (match pasid with | some p => p.toNat + 2 ^ 31 | none => 0) ++ leNat 4 1

/-- Completion of an Eyelet command: output, bytes 32 to 51 of its block, DONE_VECTOR or a KIND 6 notice. -/
def State.eyeletDone (s : State) (ld : Fin 32) (ch : Fin 16) (b : CmdBlock) (addr : W64) (pasid : Option (BitVec 20))
    (status outBytes : Nat) (out : List Byte) : State :=
  let k := eyeKey ld ch
  let s := s.updEye k fun e => { e with running := e.running.erase (b, addr, pasid) }
  let s := if out.isEmpty then s else s.emit (.dma ld.val pasid b.outAddr.toNat out)
  let s := s.emit (.dma ld.val pasid (addr.toNat + 32) (completionBytes status outBytes ld ch pasid))
  let s := s.countEye ld.val 0
  let v := (s.eye k).done
  if v = 0xFFFF then postNotice ld.val 6 [ch.val, b.tag.toNat, status, outBytes] s else s.raiseVector ld.val v.toNat

/-- The answer of an Eyelet command, or nothing where its LD was reset meanwhile (R351). -/
def State.eyeletAnswer (s : State) (m : Msg) (ld : Fin 32) (ch : Fin 16) (tag : W32) (op status outBytes : Nat) (out : List Byte) : State :=
  match (s.eye (eyeKey ld ch)).running.find? fun r => blockOf m op tag r.1 with
  | some (b, a, p) => s.eyeletDone ld ch b a p status outBytes out
  | none => s.updEye (eyeKey ld ch) fun e =>
      { e with orphans := match e.orphans.find? (blockOf m op tag) with | some b => e.orphans.erase b | none => e.orphans }

/-- The answer of a Slafin command: the status word, and the body when the status is OK. -/
def State.reply (s : State) (m : Msg) (op : Nat) (status : W16) (body : List Byte) : State :=
  let body := if status = stOk then body else []
  match m.path with
  | .eyelet ld ch tag => s.eyeletAnswer m ld ch tag op status.toNat (4 + body.length) (leNat 2 status.toNat ++ zeros 2 ++ body)
  | _ => s.emit (.slafin m status body)

/-- Standard return codes (CXL 3.1; the numbers are PRESUMED, log 44). -/
def rcSuccess : W16 := 0
def rcBackground : W16 := 1
def rcInvalidInput : W16 := 2
def rcUnsupported : W16 := 3
def rcBusy : W16 := 6
def rcInvalidPayload : W16 := 22
def rcVerifyFailed : W16 := 10
def rcInvalidSlot : W16 := 11
def rcActivationFailed : W16 := 12
def rcInvalidHandle : W16 := 14
def rcInvalidAddress : W16 := 15
def rcInvalidLog : W16 := 23
def rcNoResource : W16 := 29

/-- The answer of a standard command. -/
def State.respStd (s : State) (m : Msg) (op : Nat) (code : W16) (body : List Nat) : State :=
  let s := s.emit (.resp m code body)
  match m.path with
  | .eyelet ld ch tag => s.eyeletAnswer m ld ch tag op 0xFFFF code.toNat []
  | _ => s

/-- The function whose settings a standard command reads or sets: the LD, the FM-owned LD at 32 + its head; 36 for MCTP. -/
def pathFn : Path → Nat
  | .fmLd h => 32 + h.val
  | .mctpFm => 36
  | .mctpBmc => 36
  | .mailbox ld _ => ld.val
  | .eyelet ld _ _ => ld.val
  | .doe ld => ld.val

/-- Paths of the standard commands: mailboxes and Eyelets (R340, R350); those of Table — MCTP message types also over MCTP (R360). -/
def onMailbox : Path → Bool
  | .mailbox _ _ => true
  | .eyelet _ _ _ => true
  | .fmLd _ => true
  | _ => false
def onMailboxOrBmc (p : Path) : Bool := onMailbox p || decide (p = .mctpBmc)
/-- Paths of the FM-API commands (R338, R340). -/
def onFmApi : Path → Bool
  | .fmLd _ => true
  | .mctpFm => true
  | _ => false

/-- Opcodes of the standard commands (CXL 3.1; the numbers are PRESUMED, log 44). -/
def stdOpcodes : List Nat :=
  [0x0002, 0x0100, 0x0101, 0x0102, 0x0103, 0x0200, 0x0201, 0x0202, 0x0300, 0x0301, 0x0400, 0x0401, 0x4000, 0x4100, 0x4101, 0x4200, 0x4201,
   0x4202, 0x4203, 0x4204, 0x4300, 0x4301, 0x4302, 0x4400, 0x4401, 0x4800, 0x4801, 0x4802, 0x4803, 0x5400, 0x5401, 0x5402, 0x5403, 0x5404,
   0x5405, 0x5406, 0x5407, 0x5408, 0x5409, 0x5500, 0x5501, 0x5600, 0x5601, 0x5602, 0x5603, 0x5604, 0x5605]

/-- How a standard command ends: with an answer now, or later. -/
inductive StdResult where
  | done (code : W16) (body : List Nat) (s : State)
  | later (s : State)

/-- A standard command: not taken, unsupported on its path, or run. FM-API commands run one at a time (12 R311). -/
def State.std (s : State) (op : Nat) (ok : Path → Bool) (m : Msg) (act : State → StdResult) : Out :=
  if !s.arrives m op then .next s
  else if !ok m.path then .next (s.respStd m op rcUnsupported [])
  else if op ≥ 0x5400 ∧ (s.cmd.removals.any fun r => decide (r.op ≥ 0x5400)) then .next s
  else match act s with
    | .done code body s => .next (s.respStd m op code body)
    | .later s => .next s

/-! ### Checks of a Slafin command before any side effect (R339, R344, R345) -/

/-- What the tables say of a command: opcode, roles, S, L0, whether it needs the secure world, its input length and the length of
its fixed body. -/
structure Gate where
  op : Nat
  roles : Role → Bool
  sess : Bool
  l0 : Bool
  secure : Bool
  inLen : Nat
  body : Nat

/-- How a command ends: with an answer now, or later by another command. -/
inductive Result where
  | done (status : W16) (body : List Byte) (s : State)
  | later (s : State)

/-- Lock 0 is held by another party. -/
def State.lock0Held (s : State) (p : Path) : Bool :=
  match (s.lock 0).holder with
  | some h => decide (h ≠ lockParty p)
  | none => false

/-- The status with which the checks turn a command away; none lets it run. Their order is log 43. -/
def State.turnAway (s : State) (g : Gate) (m : Msg) : Option W16 :=
  if !g.roles (s.role m) then some stDenied
  else if g.sess ∧ (s.msgSession m).isNone then some stDenied
  else if g.l0 ∧ s.lock0Held m.path then some stLockHeld
  else if (g.op / 16 = 0xC08 ∨ g.op / 16 = 0xC0C) ∧ (s.inSave ∨ s.inResume) then some stBusy
  else if g.secure ∧ s.world.secure = .restarting then some stBusySecure
  else if g.secure ∧ s.world.secure = .down then some stNoResource
  else if m.inLen ≠ g.inLen then some stInvalidLength
  else if outSpace m < 4 + g.body then some stInvalidLength
  else none

/-- A Slafin command: not taken, turned away, or run. -/
def State.slafin (s : State) (g : Gate) (m : Msg) (act : State → Result) : Out :=
  if !s.arrives m g.op then .next s
  else match s.turnAway g m with
    | some st => .next (s.reply m g.op st [])
    | none => match act s with
      | .done st body s => .next (s.reply m g.op st body)
      | .later s => .next s

/-- Role sets of the tables. -/
def rAll (_ : Role) : Bool := true
def rBmcOwn : Role → Bool | .bmc => true | .own => true | _ => false
def rFm : Role → Bool | .fm => true | _ => false
def rBmc : Role → Bool | .bmc => true | _ => false
def rLd : Role → Bool | .ld _ => true | _ => false
def rFmOwn : Role → Bool | .fm => true | .own => true | _ => false
def rFmBmcOwn : Role → Bool | .ld _ => false | _ => true
def rLdBmcOwn : Role → Bool | .fm => false | _ => true
def rLdOwn : Role → Bool | .ld _ => true | .own => true | _ => false
def rLdFm : Role → Bool | .ld _ => true | .fm => true | _ => false
def rOwn : Role → Bool | .own => true | _ => false

/-- An LD that names another LD than itself (R339). -/
def othersLd : Role → Nat → Bool
  | .ld n, k => decide (n.val ≠ k)
  | _, _ => false

/-- How many whole entries fit: no more than MAX (R345). -/
def fits (m : Msg) (fixed entry max n : Nat) : Nat := min (min max n) ((outSpace m - 4 - fixed) / entry)

/-- A cursor names an entry of the list, or begins it (R345). -/
def cursorOk (cursor total : Nat) : Bool := decide (cursor < total) || decide (cursor = 0)

/-- NEXT of a list output: the cursor of the following call, 0xFFFF_FFFF at the end. -/
def nextCursor (cursor taken total : Nat) : Nat := if cursor + taken ≥ total then 0xFFFFFFFF else cursor + taken

end Sys2Proof.Machine
end

