-- ==== Sys2Proof/Machine/Image.lean ====
section
/-! DEFINITION. The bytes of the shadow image (09 R238 to R244) and of Insole records (16 R404): where each write of the device goes in image blocks and
what it puts there. Pure functions of what is written. -/

namespace Sys2Proof.Machine

/-! ### Insole records as bytes (16 R404) -/

def recKindCode : RecKind → Nat
  | .event => 1 | .lossRange => 2 | .security => 3 | .reset => 4 | .config => 5

/-- Sources whose records carry the detail of line and frame events. -/
def lineSource (n : Nat) : Bool := n = 16 || (64 ≤ n && n ≤ 75) || (512 ≤ n && n ≤ 543) || n = 640 || n = 641 || n = 642

/-- The first 32 bytes of DETAIL. -/
def detailBody (kind : RecKind) (n : Nat) (d : List Nat) : List Byte :=
  let at_ (i : Nat) : Nat := d.getD i 0
  let b := match kind with
    | .event =>
      if lineSource n then
        if n = 540 ∨ n = 541 then leNat 8 (at_ 0) ++ zeros 4 ++ leNat 1 (at_ 1)
        else if d.length < 8 then leNat 8 (at_ 0)
        else leNat 8 (at_ 0) ++ leNat 4 (at_ 1) ++ leNat 1 (at_ 2) ++ leNat 1 (at_ 3) ++ leNat 1 (at_ 4) ++ leNat 1 (at_ 5)
          ++ leNat 4 (at_ 6) ++ leNat 4 (at_ 7)
      else if n ≥ 1024 ∨ (256 ≤ n ∧ n < 512) then leNat 1 (at_ 0) ++ leNat 1 (at_ 1) ++ zeros 2 ++ leNat 4 (at_ 2) ++ leNat 8 (at_ 3)
      else []
    | .security => leNat 1 (at_ 0) ++ leNat 1 (at_ 1) ++ leNat 2 (at_ 2) ++ zeros 4 ++ leNat 8 (at_ 3) ++ leNat 1 (at_ 4)
    | .lossRange => leNat 4 (at_ 0) ++ leNat 4 (at_ 1) ++ leNat 1 (at_ 2)
    | .reset => []
    | .config => []
  b ++ zeros (32 - b.length)

/-- DETAIL: the injection number of an injected event stands last in the list. -/
def InsoleRec.detailBytes (r : InsoleRec) : List Byte :=
  if r.inj then detailBody r.kind r.source.toNat r.detail.dropLast ++ leNat 4 (r.detail.getLastD 0) ++ zeros 4
  else detailBody r.kind r.source.toNat r.detail ++ zeros 8

/-- The 64 bytes of a record. -/
def InsoleRec.bytes (r : InsoleRec) : List Byte :=
  let flag (b : Bool) (i : Nat) : Nat := if b then 2 ^ i else 0
  let flags := flag r.inj 0 + flag r.sameCycle 1 + flag r.firstFault 2 + flag r.escalated 3 + flag r.fenced 4 + flag r.dry 5
  let b := leNat 4 r.seq.toNat ++ leNat 1 (recKindCode r.kind) ++ leNat 1 flags ++ leNat 2 r.source.toNat ++ leNat 8 r.time
    ++ leNat 1 (r.cls.code + 4 * r.clsAfter.code) ++ leNat 1 (match r.ld with | some n => n.val | none => 0xFF) ++ zeros 2 ++ r.detailBytes
  b ++ leBytes 4 (crc32c b)

/-! ### Structures of the image -/

/-- A CRC over bytes in which its own field, the `after` bytes before which it stands, is zero. -/
def withCrc (before after : List Byte) : List Byte := before ++ leBytes 4 (crc32c (before ++ zeros 4 ++ after)) ++ after

/-- The 4,096 bytes of a superblock (Table — Superblock); its CRC covers bytes 0 to 4,091. -/
def Superblock.bytes (x : Superblock) : List Byte :=
  let flag (b : Bool) (i : Nat) : Nat := if b then 2 ^ i else 0
  let void (v : Nat × Nat) : List Byte := leNat 8 v.1 ++ leNat 8 v.2
  let b := leNat 8 0x4B4E4853464C4150 ++ leNat 2 x.formatVersion ++ leNat 1 x.layout.val ++ leNat 1 x.drives ++ leBytes 4 x.dke ++ leNat 8 x.seq
    ++ leBytes 16 x.tag ++ (x.driveIds ++ List.replicate (4 - x.driveIds.length) 0).flatMap (leBytes 16) ++ leNat 8 x.blocks
    ++ leNat 4 (flag x.clean 0 + flag x.degraded 1 + flag x.saveFailed 2) ++ [x.shutdownState] ++ leBytes 1 x.copies ++ [x.failedDrive] ++ zeros 1
    ++ leNat 8 x.lastClosed ++ leNat 8 x.tailLsn ++ leNat 8 x.headLsn ++ leBytes 4 x.dsc ++ zeros 4 ++ leNat 8 x.rebuildIb ++ leNat 8 x.time
    ++ (x.voids ++ List.replicate (8 - x.voids.length) (0, 0)).flatMap void ++ zeros 3796
  b ++ leBytes 4 (crc32c b)

/-- The 96 bytes of a wrapped key entry (05 Table — Wrapped key entry). -/
def KeyWrap.bytes (w : KeyWrap) : List Byte :=
  leBytes 2 w.keyId ++ [if w.destroyed then 1 else 0] ++ [w.programmer] ++ leBytes 4 w.mask ++ leBytes 4 w.dke ++ zeros 4
    ++ (if w.destroyed then zeros 72 else w.wrapped.flatMap (leBytes 8)) ++ zeros 8

/-- A key-wrap copy: 96 blocks (R240). -/
def keyWrapBytes (seq : Nat) (ws : List KeyWrap) : List Byte :=
  let entry (k : Nat) : List Byte := match ws.find? fun w => decide (w.keyId.toNat = k + 1) with
    | some w => w.bytes
    | none => zeros 96
  let b := (List.range 4095).flatMap entry ++ leNat 8 seq
  b ++ leBytes 4 (crc32c b) ++ zeros 84

def CloseKind.code : CloseKind → Nat
  | .close => 1 | .saveClose => 2 | .hardenClose => 3

/-- The 64 bytes of an epoch log entry (R241). -/
def EpochEntry.bytes (x : EpochEntry) : List Byte :=
  let b := leNat 8 x.epoch ++ leNat 1 x.kind.code ++ zeros 3 ++ leNat 4 x.records ++ leNat 8 x.lsnFirst ++ leNat 8 x.lsnEnd ++ leNat 8 x.tailLsn
    ++ leNat 8 x.time ++ zeros 12
  b ++ leBytes 4 (crc32c b)

/-- The 64 bytes of a region table entry (R242). -/
def RegionEntry.bytes (x : RegionEntry) : List Byte :=
  leBytes 4 x.devDpn ++ leBytes 4 x.pages ++ leNat 8 x.addedLsn ++ leNat 1 (match x.region with | some r => r.val | none => 0xFF) ++ leNat 1 x.ld.val
    ++ leNat 2 ((if x.shared then 1 else 0) + if x.poisonUnw then 2 else 0) ++ zeros 12 ++ leBytes 16 x.tag ++ zeros 16

/-- A region table copy: its header, whose CRC covers the entries too, and the entries (R242). -/
def regionBytes (seq : Nat) (es : List RegionEntry) : List Byte :=
  withCrc (leNat 8 seq ++ leNat 4 es.length ++ zeros 4080) (es.flatMap RegionEntry.bytes)

/-- A heat map copy: its header, whose CRC covers header bytes 0 to 19 and the map, and the map of one byte a block (R242). -/
def heatMapBytes (seq time blocks : Nat) (heat : Tab Byte) : List Byte :=
  let h := leNat 8 seq ++ leNat 8 time ++ leNat 4 blocks
  let m := (List.range blocks).map fun i => Tab.get (fun _ => 0) heat i
  h ++ zeros 4072 ++ leBytes 4 (crc32c (h ++ m)) ++ m

def Form.code : Form → Nat
  | .hot => 0 | .warm => 1 | .zero => 2 | .unwritten => 3 | .lost => 4

/-- The COUNTS word of a record. -/
def countsWord (cs : List (BitVec 5)) : Nat := cs.zipIdx.foldl (fun w c => w + c.1.toNat * 2 ^ (5 * c.2)) 0

/-- A page record: its header and its payload; the CRC covers both (R244). -/
def Record.bytes (r : Record) : List Byte :=
  withCrc (leNat 4 0x53485243 ++ leNat 1 r.form.code
      ++ leNat 1 ((if r.pinned then 1 else 0) + (if r.hardened then 2 else 0) + if r.lap then 4 else 0) ++ [r.gen] ++ [r.heat] ++ leBytes 4 r.dpn
      ++ leBytes 2 r.key ++ leBytes 2 r.owner ++ leNat 8 r.epoch ++ leNat 8 r.lsn ++ leNat 4 (countsWord r.counts) ++ leNat 4 (64 * r.granules.length))
    (leBytes 8 r.poisonMap ++ zeros 12 ++ r.granules.flatMap (leBytes 64))

/-- LSNs of a segment: 64 MiB in units of 64 B, of which 63 MiB hold records (R243). -/
def segUnits : Nat := 1048576
def segRecordUnits : Nat := 1032192
def segRecordMax : Nat := 131064

/-- An entry of a segment summary. -/
def summaryEntry (r : Record) : W64 :=
  BitVec.ofNat 64 (r.dpn.toNat + (r.lsn % segUnits) * 2 ^ 32 + r.gen.toNat * 2 ^ 52 + r.form.code * 2 ^ 60)

/-- The summary of a segment: header and one entry a record, in log order; the CRC covers header bytes 0 to 59 and the entries (R243). -/
def summaryBytes (seg : Nat) (rs : List Record) : List Byte :=
  let h := leNat 4 0x4D555353 ++ leNat 4 rs.length ++ leNat 8 (seg * segUnits) ++ leNat 8 ((rs.head?.map (·.epoch)).getD 0)
    ++ leNat 8 ((rs.getLast?.map (·.epoch)).getD 0) ++ zeros 28
  let es := rs.flatMap fun r => leBytes 8 (summaryEntry r)
  h ++ leBytes 4 (crc32c (h ++ es)) ++ es

/-! ### Where a write goes (Table — Image areas) -/

/-- First image block of a write. `log` is the size of the record log in 64 B units. -/
def ImageWrite.block (log : Nat) : ImageWrite → Nat
  | .super b _ => if b then 32 else 0
  | .keyWrap seq _ => if seq % 2 = 1 then 64 else 160
  | .insole _ => 256
  | .epoch x => 512 + x.epoch % 65536 / 64
  | .regions seq _ => if seq % 2 = 1 then 1536 else 3584
  | .heat seq _ _ _ => if seq % 2 = 1 then 5632 else 7936
  | .record r => 16384 + r.lsn % log / 64
  | .summary seg _ => 16384 + seg * segUnits % log / 64 + 16128
  | .clear ib _ => ib

/-- Byte of that block at which the write begins: records and epoch log entries lie at multiples of 64 bytes. -/
def ImageWrite.offset (log : Nat) : ImageWrite → Nat
  | .epoch x => x.epoch % 64 * 64
  | .record r => r.lsn % log % 64 * 64
  | _ => 0

/-- What the write puts there. -/
def ImageWrite.bytes : ImageWrite → List Byte
  | .super _ x => x.bytes
  | .keyWrap seq ws => keyWrapBytes seq ws
  | .insole rs => rs.flatMap InsoleRec.bytes
  | .epoch x => x.bytes
  | .regions seq es => regionBytes seq es
  | .heat seq time blocks h => heatMapBytes seq time blocks h
  | .record r => r.bytes
  | .summary seg rs => summaryBytes seg rs
  | .clear _ n => zeros (4096 * n)

/-- Bytes of a heat map: one for each 512 pages of device DPN space (R242). -/
def State.heatBlocks (s : State) : Nat := if s.ev8820 then 4194304 else 8388608

/-- A write to the image; the drives that hold its blocks, and the parity of their stripes, are those of place(ib) (R236). -/
def State.writeImage (s : State) (w : ImageWrite) : State := s.emit (.image w)

end Sys2Proof.Machine
end

