-- ==== Sys2Proof/Machine/Last.lean ====
section
/-! DEFINITION. The current Last entry of a page and the Last cache (02 R43 to R46), DIRTY and the shadow queue (09 R215, R219), the
buffered copy of a line (01 R19), and the repair table (04 R91). -/

namespace Sys2Proof.Machine

/-! ### The Last cache -/

def CacheSet.way (c : CacheSet) (i : Nat) : Option Way := Tab.get (fun _ => none) c.ways i

/-- The way of a set that holds an entry. -/
def CacheSet.find (c : CacheSet) (p : Way → Bool) : Option (Nat × Way) :=
  (c.ways.filterMap fun x => x.2.map fun w => (x.1, w)).find? fun x => p x.2

/-- The per-page way of a device page: set, way number, way. -/
def State.pageWay (s : State) (dpn : Dpn) : Option (Nat × Nat × Way) :=
  let k := setOfPage dpn
  ((s.cacheSet k).find fun w => decide (w.dpn = dpn) && !w.isSpan).map fun x => (k, x.1, x.2)

/-- The span way that covers a device page (R47). -/
def State.spanWay (s : State) (dpn : Dpn) : Option (Nat × Nat × Way) :=
  let k := setOfSpan dpn
  ((s.cacheSet k).find fun w => w.isSpan && decide (w.dpn >>> 9 = dpn >>> 9)).map fun x => (k, x.1, x.2)

/-- The current entry of a device page: the cached copy, else the Last table's. -/
def State.entry (s : State) (dpn : Dpn) : LastEntry :=
  match s.pageWay dpn with
  | some (_, _, w) => w.entry
  | none => s.tableEntry dpn.toNat

/-- Points the tree bits of a way's path away from it (tree pseudo-LRU, R43; the update rule is PRESUMED, log 27). Node n has
children 2n and 2n + 1; a set bit points to the upper half. -/
def plruTouch (tree : BitVec 16) (way : Nat) : BitVec 16 :=
  let step (t : BitVec 16) (node bit : Nat) : BitVec 16 := if bit = 1 then t &&& ~~~(1#16 <<< node) else t ||| (1#16 <<< node)
  let b3 := way / 8 % 2
  let b2 := way / 4 % 2
  let b1 := way / 2 % 2
  let b0 := way % 2
  let t := step tree 1 b3
  let t := step t (2 + b3) b2
  let t := step t (4 + 2 * b3 + b2) b1
  step t (8 + 4 * b3 + 2 * b2 + b1) b0

/-- The victim walk of R43 over a subtree of `2 ^ depth` ways whose first way is `lo`: the side the node points to, unless it
holds no way that may be chosen. -/
def plruVictim (tree : BitVec 16) (ok : Nat → Bool) : Nat → Nat → Nat → Option Nat
  | 0, _, lo => if ok lo then some lo else none
  | d + 1, node, lo =>
    let left := plruVictim tree ok d (2 * node) lo
    let right := plruVictim tree ok d (2 * node + 1) (lo + 2 ^ d)
    if tree.getLsbD node then right.orElse fun _ => left else left.orElse fun _ => right

/-- Whether a page has an active migration tracker. -/
def State.trackerOf (s : State) (dpn : Dpn) : Option (Nat × Tracker) :=
  (s.last.trackers.filterMap fun p => p.2.map fun t => (p.1, t)).find? fun p => decide (p.2.dpn = dpn)

/-- Marks a way used. -/
def State.touchWay (s : State) (k way : Nat) : State :=
  s.updCacheSet k fun c => { c with tree := plruTouch c.tree way }

/-- Writes an entry into the Last table only. -/
def State.putTable (s : State) (dpn : Dpn) (e : LastEntry) : State := s.setTableEntry dpn.toNat e

/-- Sets a way; `modified` is kept in step with the count of modified entries. -/
def State.putWay (s : State) (k way : Nat) (w : Way) : State :=
  let was := match (s.cacheSet k).way way with | some o => o.modified | none => false
  let s := s.updCacheSet k fun c =>
    { c with ways := Tab.set (fun _ => none) way (some w) c.ways, tree := plruTouch c.tree way }
  s.mapLast fun l => { l with modified := l.modified + (if w.modified then 1 else 0) - (if was then 1 else 0) }

/-- Brings an entry into the Last cache; a modified victim is written back (R43, R45). R43 speaks of replacement alone: while the set has
empty ways the entry takes the lowest-numbered one (DESIGN CHOICE, log 136). When every way of the set holds a page in motion, the entry is not
cached. -/
def State.cacheInsert (s : State) (dpn : Dpn) (isSpan : Bool) (e : LastEntry) : State :=
  let k := if isSpan then setOfSpan dpn else setOfPage dpn
  let c := s.cacheSet k
  let free := (List.range 16).find? fun i => (c.way i).isNone
  let ok (i : Nat) : Bool := match c.way i with | some w => w.isSpan || (s.trackerOf w.dpn).isNone | none => true
  match free.orElse fun _ => plruVictim c.tree ok 4 1 0 with
  | none => s
  | some i =>
    let s := match c.way i with
      | some w => if w.modified then s.putTable w.dpn w.entry else s
      | none => s
    s.putWay k i { dpn, isSpan, entry := e, modified := false }

/-- A change other than to HEAT and DIRTY: written to the Last table, then to the cached copy (R45). -/
def State.putEntry (s : State) (dpn : Dpn) (e : LastEntry) : State :=
  let s := s.putTable dpn e
  match s.pageWay dpn with
  | some (k, i, w) => s.putWay k i { w with entry := e, modified := false }
  | none => s

/-- A change to HEAT or DIRTY: kept in the cache and marked modified (R45); an entry that cannot be cached is changed in the
table (DEDUCED, log 28). -/
def State.touchEntry (s : State) (dpn : Dpn) (f : LastEntry → LastEntry) : State :=
  let s := match s.pageWay dpn with
    | some _ => s
    | none => s.cacheInsert dpn false (s.tableEntry dpn.toNat)
  match s.pageWay dpn with
  | some (k, i, w) => s.putWay k i { w with entry := f w.entry, modified := true }
  | none => s.putTable dpn (f (s.tableEntry dpn.toNat))

/-! ### DIRTY and the shadow queue (09 R215, R219) -/

/-- DIRTY_BYTES: the amounts of the queued pages and of the record writes still open (09 R219). -/
def State.dirtyBytes (s : State) : Nat :=
  (s.shank.queue.map fun p => queueAmount (s.entry p.dpn) p.kind).sum + (s.shank.writes.map (·.amount)).sum

def State.queueShadow (s : State) (dpn : Dpn) (k : QKind) : State :=
  let s := s.mapShank fun x => { x with queue := x.queue ++ [{ dpn, kind := k, serial := x.serial }], serial := x.serial + 1 }
  if k = .changed then s.pmShank 2 else s

/-- A change of what a DURABLE page reads as: DIRTY, and a CHANGED entry when it was clear (09 R215). -/
def State.setDirty (s : State) (dpn : Dpn) : State :=
  let e := s.entry dpn
  if e.durable ∧ !e.dirty then (s.touchEntry dpn fun e => { e with dirty := true }).queueShadow dpn .changed else s

/-! ### The write buffer and the repair table -/

def State.buffered (s : State) (dpn : Dpn) (line : Nat) : Option WbEntry :=
  s.path.wbuf.find? fun w => decide (w.dpn = dpn) && decide (w.line.val = line)

def State.repairFree (s : State) (e : LastEntry) : Bool := e.durable && !e.dirty && decide (s.codec.repair.length < 256)

/-- Enters a chunk or a granule in the repair table, once. -/
def State.addRepair (s : State) (dpn : Dpn) (ch : Nat) (e : LastEntry) (g : Option (Fin 16)) : State :=
  let j : RepairJob := { dpn, chunk := Fin.ofNat 4 ch, gen := e.gen, granule := g }
  if s.codec.repair.contains j then s else s.mapCodec fun c => { c with repair := c.repair ++ [j] }

end Sys2Proof.Machine
end

