-- ==== Sys2Proof/Machine/Lines.lean ====
section
/-! DEFINITION. Stored lines (06): DRAM reads and writes, where a member of a Welt group lies, the parity cache, the delta
write, the rebuild, and encryption of a stored line (05). -/

namespace Sys2Proof.Machine

/-! ### DRAM -/

/-- What an unlisted byte of DRAM reads as. DRAM after power-on is undefined; pool initialization makes it zero. DESIGN CHOICE,
log 23. -/
def dramByte (_ : Nat) : Byte := 0

/-- Side bits of an unlisted line: those of a zero-filled line, and of the parity line of zero-filled members (R123, R131;
10 R251). -/
def sideDefault (w : Nat) (k : Nat) : Side :=
  let f := k / 64
  if isParity w f then sideOf 0 (lcrc 0 (groupAx w (groupOf w f) (k % 64)) 0) (parityMeta 0)
  else sideOf 0 (lcrc 0 k 0) 0

/-- The 64 bytes from an address, and their writing. -/
def memLine (m : List Host.Cell) (a : Nat) : Line := ofBytes 512 ((List.range 64).map fun i => Tab.get dramByte m (a + i))

def memLineSet (m : List Host.Cell) (a : Nat) (x : Line) : List Host.Cell :=
  (List.range 64).foldl (fun m i => Tab.set dramByte (a + i) (byteAt x i) m) m

def Memory.wf (m : List Host.Cell) : Bool := Tab.wf dramByte m

/-- A line as DRAM holds it, at a physical frame. -/
def State.rawLine (s : State) (f line : Nat) : Raw :=
  { data := memLine s.dram.data (f * 4096 + line * 64), side := Tab.get (sideDefault s.w) s.dram.side (pla f line) }

def State.setRaw (s : State) (f line : Nat) (r : Raw) : State :=
  s.mapDram fun d => { d with data := memLineSet d.data (f * 4096 + line * 64) r.data
                              side := Tab.set (sideDefault s.w) (pla f line) r.side d.side }

/-! ### Geometry of the device (02 R40, 06 R152, 07 R167) -/

/-- Groups of the Welt domain: the frames of a populated channel. -/
def State.groups (s : State) : Nat := (List.range s.channels).foldl (fun m c => max m (s.chan c).frames) 0

def State.rawFrames (s : State) : Nat := s.groups * s.w

def State.gMeta (s : State) : Nat := metaGroups s.w s.rawFrames s.last.hostPages

/-- Groups below the spare reserve: the allocation pool. -/
def State.poolGroups (s : State) : Nat :=
  s.groups - (s.gMeta + Config.queueGroups) - s.welt.spareFrames / (s.w - 1)

/-- The first group of the metadata region, and the first of its shadow queue area (02 R40). -/
def State.metaLow (s : State) : Nat := s.groups - (s.gMeta + Config.queueGroups)
def State.queueLow (s : State) : Nat := s.groups - Config.queueGroups
def State.metaGroup (s : State) (g : Nat) : Bool := decide (s.metaLow ≤ g) && decide (g < s.groups)

/-- The frame record that nothing has written: FREE in the pool, SPARE in the spare reserve (06 R152), METADATA in the metadata region
(02 R41, R42). -/
def State.frameDefault (s : State) (f : Nat) : FrameRec :=
  let g := groupOf s.w f
  if g < s.poolGroups ∨ g ≥ s.groups ∨ isParity s.w f then frameReset else if g < s.metaLow then frameSpare else frameMeta

def State.frameRec (s : State) (k : Nat) : FrameRec := Tab.get s.frameDefault s.last.frames k
def State.setFrameRec (s : State) (k : Nat) (v : FrameRec) : State :=
  s.mapLast fun x => { x with frames := Tab.set s.frameDefault k v x.frames }
def State.updFrameRec (s : State) (k : Nat) (f : FrameRec → FrameRec) : State := s.setFrameRec k (f (s.frameRec k))

/-- The spare frame of an ordinal (06 R152). -/
def State.spareFrame (s : State) (o : Nat) : Nat := dataAt s.w (s.poolGroups * (s.w - 1) + o)

/-- Modules and the module type of a channel (07 R163: all alike). -/
def Chan.modules (c : Chan) : Nat :=
  (if (Tab.get (fun _ => none) c.dimms 0).isSome then 1 else 0) + (if (Tab.get (fun _ => none) c.dimms 1).isSome then 1 else 0)

def Chan.dimm (c : Chan) : Option Dimm :=
  match Tab.get (fun _ => none) c.dimms 0 with
  | some d => some d
  | none => Tab.get (fun _ => none) c.dimms 1

/-- Where a line of a frame lies in its channel (07 R167). -/
def State.placeOf (s : State) (f line : Nat) : Place :=
  let c := s.chan (channelOf s.w f)
  match c.dimm with
  | some d => dramPlace (max 1 c.modules) (dimmRanks d) (dimmStack d) d.x8 (groupOf s.w f) line
  | none => dramPlace 1 1 1 false (groupOf s.w f) line

def Place.rank3 (p : Place) : BitVec 3 := BitVec.ofNat 3 (p.dimm + 2 * p.rank)

/-- DETAIL of a line or frame event (16 R404): DPA, frame, line, channel, RANKSEL, BANK, ROW, DEVICE_MASK. -/
def State.lineDetail (s : State) (dpa f l : Nat) (mask : BitVec 20) : List Nat :=
  let p := s.placeOf f l
  [dpa, f, l, channelOf s.w f, p.ranksel.toNat, p.bankWord.toNat, p.row, mask.toNat]

/-! ### Where a member of a group lies (06 R146, R151) -/

/-- The member is read at a physical frame; or cannot be read (CURRENT or STALE on a unit out of service); or is WITHDRAWN: with its unit (`known`: its
content is known to be zeros), or alone by the exception table. A withdrawn member counts as zero, side bits included (R131). The groups that a rejoin has
resolved are back in place. -/
inductive Where where
  | at (frame : Nat)
  | missing
  | known
  | withdrawn
  deriving DecidableEq, Repr

/-- The units out of service. -/
def State.unitsOut (s : State) : List (Nat × UnitSlot) := s.welt.units.filterMap fun p => p.2.map fun u => (p.1, u)

/-- The unit out of service that a frame lies on, with its index; indices from 4 on hold no slot (R155). -/
def State.unitOfFrame (s : State) (f : Nat) : Option (Nat × UnitSlot) :=
  let c := channelOf s.w f
  let on (p : Nat × UnitSlot) : Bool := decide (p.2.channel.val = c) && !p.2.wholeChannel && decide (p.2.ranksel = (s.placeOf f 0).rank3)
  (s.unitsOut.find? on).orElse fun _ => s.unitsOut.find? fun p => decide (p.2.channel.val = c) && p.2.wholeChannel

def UnitSlot.member (u : UnitSlot) (g : Nat) : Member := (Tab.get (fun _ => none) u.map g).getD u.base

/-- Sets a member's entry of the unit map; the base state is not listed. -/
def UnitSlot.setMember (u : UnitSlot) (g : Nat) (m : Member) : UnitSlot :=
  { u with map := Tab.set (fun _ => none) g (if m = u.base then none else some m) u.map }

/-- A data frame of the allocation pool whose record is FREE. -/
def State.poolFree (s : State) (f : Nat) : Bool :=
  decide (groupOf s.w f < s.poolGroups) && !isParity s.w f && decide ((s.frameRec f).kind = .free)

/-- A member in a spare frame; one whose spare frame is out of service cannot be read. -/
def State.placeSpare (s : State) (o : Nat) : Where :=
  if (s.unitOfFrame (s.spareFrame o)).isNone then .at (s.spareFrame o) else .missing

def State.place (s : State) (f : Nat) : Where :=
  match s.welt.exceptions.find? (fun p => p.1 = BitVec.ofNat 32 f) with
  | some (_, none) => .withdrawn
  | some (_, some o) => s.placeSpare o
  | none =>
    match s.unitOfFrame f with
    | none => .at f
    | some (_, u) =>
      if u.state = 5 ∧ groupOf s.w f < u.progress then .at f
      else match u.member (groupOf s.w f) with
      | .current => .missing
      | .stale => if s.poolFree f then .known else .missing
      | .spared o => s.placeSpare o
      | .withdrawn => .known

/-- Enters a member of a unit out of service in its map. -/
def State.markMember (s : State) (f : Nat) (m : Member) : State :=
  match s.unitOfFrame f with
  | none => s
  | some (n, u) => s.setUnit n (some (u.setMember (groupOf s.w f) m))

/-! ### The bytes of the metadata region (02 R40 to R42; 05 R97, R101) -/

/-- The key of a key ID: slot 0 holds the device key of DKE (05 R104, R111). -/
def State.keyOf (s : State) (k : Nat) : Key := if k = 0 then deviceKey s.keys.dke else (s.slot k).key

/-- A line whose bytes are the little-endian words of `f`, `n` words of `k` bytes. -/
def lineOfWords (k n : Nat) (f : Nat → Nat) : Line := ofBytes 512 ((List.range n).flatMap fun i => leNat k (f i))

/-- Where the frame records begin in the region, and where the fixed area begins: the Last table and the records, each rounded up to
1 MiB (R40). -/
def State.recordsAt (s : State) : Nat := roundUp (16 * s.last.hostPages) 1048576
def State.fixedAt (s : State) : Nat := s.recordsAt + roundUp (32 * (s.groups * (s.w - 1))) 1048576

/-- The data frames of memory die d among the queue groups before group g (R41): of each W consecutive groups, one for each channel of the
die has its parity there. -/
def State.queueFramesBefore (s : State) (d g : Nat) : Nat :=
  let parities (n : Nat) : Nat := n / s.w * 6 + min 6 (n % s.w - 6 * d)
  6 * (g - s.queueLow) - (parities g - parities s.queueLow)

/-- The place of a data frame of the shadow queue area: its copy and its index there (R41). -/
def State.queuePlace (s : State) (f : Nat) : Nat × Nat :=
  let c := channelOf s.w f
  let g := groupOf s.w f
  let d := dieOf c
  (d, s.queueFramesBefore d g + ((List.range (c - 6 * d)).filter fun i => decide (6 * d + i ≠ g % s.w)).length)

/-- Sequence number and plaintext of a line of the metadata region that a table of State stands for: Last entries, frame records, and both
copies of the shadow queue. The fixed area and the frames that no copy takes have no layout in the spec: none. -/
def State.metaPlain (s : State) (f line : Nat) : Option (Nat × Line) :=
  let g := groupOf s.w f
  if !s.metaGroup g || isParity s.w f then none
  else if g < s.queueLow then
    let off := (dataIndex s.w f - s.metaLow * (s.w - 1)) * 4096 + line * 64
    if off < s.recordsAt then some (seqMeta off, lineOfWords 16 4 fun i => (s.tableEntry (off / 16 + i)).word.toNat)
    else if off < s.fixedAt then
      some (seqMeta off, lineOfWords 32 2 fun i => (s.frameRec (dataAt s.w ((off - s.recordsAt) / 32 + i))).word.toNat)
    else none
  else
    let (d, i) := s.queuePlace f
    if i < 32768 then
      let off := i * 4096 + line * 64
      some (seqQueue d off, lineOfWords 8 8 fun j => (s.shank.queue[off / 8 + j]?.map fun q => q.word.toNat).getD 0)
    else none

/-- A line of logical frame f as it is stored at physical frame p. The bytes of the metadata region are the tables of State, enciphered
under key ID 0 with META.KIND = metadata; they are held once, as tables (DESIGN CHOICE, log 110). -/
def State.storedLine (s : State) (f p line : Nat) : Raw :=
  (s.metaPlain f line).elim (s.rawLine p line) fun q => freshRaw (encLine (s.keyOf 0) q.1 0 q.2) (pla p line) (metaOf kindMeta false true)

/-! ### The parity cache (06 R135) -/

def State.parityFrame (s : State) (g : Nat) : Nat := g * s.w + g % s.w

/-- The data members of a group. -/
def State.dataMembers (s : State) (g : Nat) : List Nat :=
  ((List.range s.w).map fun c => g * s.w + c).filter fun x => !isParity s.w x

def State.cachedParity (s : State) (g line : Nat) : Option ParityLine :=
  s.welt.pcache.find? fun p => decide (p.group.toNat = g) && decide (p.line.val = line)

/-- The physical address that a member's LCRC is formed with: its own frame where no copy of it is stored. -/
def State.memberPla (s : State) (f line : Nat) : Nat :=
  match s.place f with
  | .at p => pla p line
  | _ => pla f line

/-- What the zero-filled lines of the free frames withdrawn with their unit would add to a parity line. State keeps the parity lines as they stood
before that withdrawal; every reader takes the sum out (R131, R153; log 31). -/
def State.knownSum (s : State) (g line : Nat) : Raw :=
  if s.welt.units.isEmpty then zeroRaw
  else (s.dataMembers g).foldl (fun x f => if s.place f = .known then xorRaw x (freshRaw 0 (pla f line) 0) else x) zeroRaw

/-- A parity line as DRAM holds it at a physical frame, and its writing. -/
def State.parityRaw (s : State) (p g line : Nat) : Raw := xorRaw (s.rawLine p line) (s.knownSum g line)
def State.setParityRaw (s : State) (p g line : Nat) (r : Raw) : State := s.setRaw p line (xorRaw r (s.knownSum g line))

/-- A cached parity line. -/
def State.cachedRaw (s : State) (g line : Nat) : Option Raw := (s.cachedParity g line).map fun p => xorRaw p.raw (s.knownSum g line)

/-- A data member's line as it is stored; none for a withdrawn member, which counts as zero (R131), and for one that cannot be read. -/
def State.asStored (s : State) (f line : Nat) : Option Raw :=
  match s.place f with
  | .at p => some (s.storedLine f p line)
  | _ => none

/-- The XOR of what the members of a list hold. -/
def State.storedSum (s : State) (fs : List Nat) (line : Nat) : Raw :=
  fs.foldl (fun x f => match s.asStored f line with | some r => xorRaw x r | none => x) zeroRaw

/-- The parity line of a group of the metadata region: that of what its members hold; one that cannot be read holds what State's tables do. -/
def State.metaParity (s : State) (g line : Nat) : Raw :=
  parityOf ((s.dataMembers g).foldl (fun x f =>
    match s.place f with
    | .withdrawn | .known => x
    | .at p => xorRaw x (s.storedLine f p line)
    | .missing => xorRaw x (s.storedLine f f line)) zeroRaw)

/-- The parity line in use: the cached copy, else that of DRAM; none while the parity member is out of service. -/
def State.parityLine (s : State) (g line : Nat) : Option Raw :=
  match s.cachedRaw g line with
  | some r => some r
  | none =>
    match s.place (s.parityFrame g) with
    | .at f => some (if s.metaGroup g then s.metaParity g line else s.parityRaw f g line)
    | _ => none

/-- A line of a member as it stands at the physical frame that it lies in. -/
def State.lineAt (s : State) (f p line : Nat) : Raw :=
  let g := groupOf s.w f
  if isParity s.w f then (if s.metaGroup g then s.metaParity g line else s.parityRaw p g line) else s.storedLine f p line

/-- A line that has been written anew: a write-back that still waits has nothing left to write (06 R141), and a verify read that is due compares
with what is now written (06 R143). -/
def State.lineStored (s : State) (f line : Nat) (r : Raw) : State :=
  s.mapWelt fun w =>
    { w with backs := w.backs.filter fun b => !(decide (b.frame.toNat = f) && decide (b.line.val = line))
             verifies := w.verifies.map fun v => if v.1.toNat = f ∧ v.2.1.val = line then (v.1, v.2.1, r) else v }

/-- Leaves a line out of the cache. -/
def State.dropParity (s : State) (g line : Nat) : State :=
  s.mapWelt fun w => { w with pcache := w.pcache.filter fun p => !(decide (p.group.toNat = g) && decide (p.line.val = line)) }

/-- Writes a cached parity line to DRAM and leaves it clean; the DRAM copy of a member that is out of service becomes STALE. -/
def State.writeBackParity (s : State) (p : ParityLine) : State :=
  let g := p.group.toNat
  let s := match s.place (s.parityFrame g) with
    | .at f => (s.setRaw f p.line.val p.raw).lineStored (s.parityFrame g) p.line.val (xorRaw p.raw (s.knownSum g p.line.val))
    | .missing => s.markMember (s.parityFrame g) .stale
    | _ => s
  s.mapWelt fun w => { w with pcache := replaceFirst (fun q => decide (q.group = p.group) && decide (q.line = p.line)) (fun q => { q with dirty := false }) w.pcache }

/-- The set of a parity line: one of 24,576, by a hash of group and line that the spec does not give (log 24). -/
def paritySet (g line : Nat) : Nat := Config.parityHash g line % 24576

/-- The cached lines of a set. -/
def State.parityWays (s : State) (k : Nat) : List ParityLine :=
  s.welt.pcache.filter fun p => decide (paritySet p.group.toNat p.line.val = k)

/-- Marks a way of a set used (tree pseudo-LRU; log 27). -/
def State.touchParity (s : State) (k way : Nat) : State :=
  s.mapWelt fun w => { w with ptree := Tab.set (fun _ => 0) k (plruTouch (Tab.get (fun _ => 0) w.ptree k) way) w.ptree }

/-- The victim of a full set; during a save the cache is not written to DRAM (R137), so that a clean line goes first (log 24). -/
def State.parityVictim (s : State) (k : Nat) : Nat :=
  let tree := Tab.get (fun _ => 0) s.welt.ptree k
  let clean (i : Nat) : Bool := (s.parityWays k).any fun p => decide (p.way.val = i) && !p.dirty
  ((if s.inSave then plruVictim tree clean 4 1 0 else none).orElse fun _ => plruVictim tree (fun _ => true) 4 1 0).getD 0

/-- Evicts a way, written back when it is dirty. -/
def State.evictParity (s : State) (k way : Nat) : State :=
  match (s.parityWays k).find? fun p => decide (p.way.val = way) with
  | none => s
  | some p => (if p.dirty then s.writeBackParity p else s).dropParity p.group.toNat p.line.val

/-- Puts a dirty parity line into the cache: over its present copy, in an empty way of its set (the lowest-numbered: DESIGN CHOICE, log 24), else in
the victim's (R135). -/
def State.putParity (s : State) (g line : Nat) (r : Raw) : State :=
  let raw := xorRaw r (s.knownSum g line)
  let k := paritySet g line
  match s.cachedParity g line with
  | some q =>
    (s.mapWelt fun w => { w with pcache := replaceFirst (fun p => decide (p = q)) (fun p => { p with raw, dirty := true }) w.pcache }).touchParity k q.way.val
  | none =>
    let mine := s.parityWays k
    let full := decide (s.welt.pcache.length ≥ 16) && decide (mine.length ≥ 16)
    let way := if full then s.parityVictim k else ((List.range 16).find? fun i => mine.all fun p => decide (p.way.val ≠ i)).getD 0
    let s := if full then s.evictParity k way else s
    let entry : ParityLine := { group := BitVec.ofNat 28 g, line := Fin.ofNat 64 line, way := Fin.ofNat 16 way, raw, dirty := true }
    (s.mapWelt fun w => { w with pcache := w.pcache ++ [entry] }).touchParity k way

/-- Does something with the parity line of a group, unless its member is out of service: then no parity is updated and a member that was CURRENT or
STALE becomes STALE (R151). The metadata region's parity is that of the tables. -/
def State.withParity (s : State) (g line : Nat) (f : State → State) : State :=
  if s.metaGroup g then s
  else match s.place (s.parityFrame g) with
    | .at _ => f s
    | .missing => (s.dropParity g line).markMember (s.parityFrame g) .stale
    | .known | .withdrawn => s

/-- Applies a delta of a data member to the parity line (R133). -/
def State.deltaParity (s : State) (g line : Nat) (d : Raw) : State :=
  s.withParity g line fun s =>
    match s.parityLine g line with
    | none => s
    | some p => s.putParity g line (parityOf (xorRaw (unparity p) d))

/-! ### Members and the rebuild (06 R132, R140) -/

def upsetOf (reads : List MemberRead) (c : Nat) : Upset :=
  match reads.find? (fun r => r.channel.val = c) with
  | some r => r.upset
  | none => Upset.none

/-- A data member's line as a read finds it, and whether it passes its check. -/
def State.readMember (s : State) (f line : Nat) (u : Upset) : Option (Raw × Bool) :=
  match s.place f with
  | .withdrawn | .known => some (zeroRaw, true)
  | .missing => none
  | .at p =>
    let r := (s.storedLine f p line).flip u
    some (r, !u.err && checkData r (pla p line))

/-- XOR of the data members' PLAs, a withdrawn member left out (R131, R132). -/
def State.parityAx (s : State) (g line : Nat) : Nat :=
  (List.range s.w).foldl (fun x c =>
    let f := g * s.w + c
    if c = g % s.w then x
    else match s.place f with
      | .withdrawn | .known => x
      | _ => x ^^^ s.memberPla f line) 0

/-- The parity line as a read finds it, and whether it passes; the cached copy meets no upset. -/
def State.readParity (s : State) (g line : Nat) (u : Upset) : Option (Raw × Bool) :=
  match s.cachedRaw g line with
  | some r => some (r, true)
  | none =>
    match s.parityLine g line with
    | none => none
    | some r =>
      let r := r.flip u
      some (r, !u.err && checkParity r (s.parityAx g line))

/-- The other data members of a frame's group. -/
def State.others (s : State) (f : Nat) : List Nat :=
  let g := groupOf s.w f
  ((List.range s.w).map fun c => g * s.w + c).filter fun x => decide (x ≠ f) && !isParity s.w x

/-- XOR of members that must all pass; none when one is missing or fails. -/
def State.xorMembers (s : State) (line : Nat) (reads : List MemberRead) (fs : List Nat) : Option Raw :=
  fs.foldl (fun acc f =>
    match acc, s.readMember f line (upsetOf reads (channelOf s.w f)) with
    | some x, some (r, true) => some (xorRaw x r)
    | _, _ => none) (some zeroRaw)

/-- The rebuilt line of a data member (R140): none when a second member is missing or fails, or the result fails. -/
def State.rebuildData (s : State) (f line : Nat) (reads : List MemberRead) : Option Raw :=
  let g := groupOf s.w f
  match s.xorMembers line reads (s.others f), s.readParity g line (upsetOf reads (g % s.w)) with
  | some x, some (p, true) =>
    let r := xorRaw x (unparity p)
    let m := sideMeta r.side
    if sideLcrc r.side = lcrc r.data (s.memberPla f line) m ∧ [0, 2, 3, 4].contains (metaKind m)
    then some { data := r.data, side := sideOf (bpar r.data) (sideLcrc r.side) m } else none
  | _, _ => none

/-- The parity line from all data members (R131, R139); none when a member is missing or fails. -/
def State.rebuildParity (s : State) (g line : Nat) (reads : List MemberRead) : Option Raw :=
  (s.xorMembers line reads (s.dataMembers g)).map parityOf

/-- The present content of a data line: read, or rebuilt when it fails or cannot be read. -/
def State.contentOf (s : State) (f line : Nat) (u : Upset) (reads : List MemberRead) : Option Raw :=
  match s.readMember f line u with
  | some (r, true) => some r
  | _ => s.rebuildData f line reads

/-! ### Writing a data line -/

/-- Writes a data member with fresh side bits where it lies, without parity; a member on a unit out of service is not stored
and becomes STALE (R151). -/
def State.storeMember (s : State) (f line : Nat) (r : Raw) : State :=
  match s.place f with
  | .at p => (s.setRaw p line r).lineStored f line r
  | .missing => s.markMember f .stale
  | .known => s
  | .withdrawn => s

/-- A line of a data frame with side bits formed for where it lies. -/
def State.formLine (s : State) (f line : Nat) (x : Line) (m : W16) : Raw := freshRaw x (s.memberPla f line) m

/-- The delta write of R133 over a known old content. -/
def State.deltaWrite (s : State) (f line : Nat) (old : Raw) (x : Line) (m : W16) : State :=
  let new := s.formLine f line x m
  (s.storeMember f line new).deltaParity (groupOf s.w f) line (xorRaw old new)

/-- The parity from what the other members hold and a new line of member f, whose old content is lost (R139). -/
def State.coverParity (s : State) (f line : Nat) (new : Raw) : State :=
  let g := groupOf s.w f
  s.withParity g line fun s => s.putParity g line (parityOf (xorRaw (s.storedSum (s.others f) line) new))

/-- The page whose chunk covers a granule of a bin: page, chunk, granule within the chunk. -/
def State.granuleOwner (s : State) (f l : Nat) : Option (Dpn × Nat × Nat) :=
  (s.frameRec f).dpns.findSome? fun d =>
    let e := s.entry d
    if e.frame.toNat = f then
      (List.range 4).findSome? fun ch =>
        let c := e.chunk ch
        if c.off.toNat ≤ l ∧ l < c.off.toNat + c.cnt.toNat then some (d, ch, l - c.off.toNat) else none
    else none

/-- DETAIL and counts of a rebuild that failed (R142). -/
def State.rebuildFails (s : State) (f l : Nat) (inj : Option (W32 × Bool)) : State :=
  let dpa := match (s.frameRec f).dpns with | d :: _ => d.toNat * 4096 | [] => 0
  raise { Ev.of 65 with dpa, detail := s.lineDetail dpa f l 0, inj } (s.countWelt 1)

/-- A line of a data frame that is poison: poison data, META.POISON (R142). The data under poison is a free value. -/
def State.poisonForm (s : State) (f line : Nat) (kind : Nat) : Raw × State :=
  let (n, s) := s.draw
  (s.formLine f line (Config.freeLine n) (metaOf kind true true), s)

/-- A second member that fails is rewritten with poison (R133); a granule of a headerless raw chunk is then repaired from the shadow record where R142
allows it, else DIRTY is set. -/
def State.poisonMember (s : State) (f line : Nat) : State :=
  let bin := decide ((s.frameRec f).kind = .bin)
  let (r, s) := s.poisonForm f line (if bin then kindGranule else kindData)
  let s := s.storeMember f line r
  match (if bin then s.granuleOwner f line else none) with
  | none => s
  | some (d, ch, j) =>
    let e := s.entry d
    if (e.chunk ch).cnt ≠ 16 then s
    else if s.repairFree e then s.addRepair d ch e (some (Fin.ofNat 16 j)) else s.setDirty d

/-- R133 when the old line can be neither read nor rebuilt: the new line is written, every other data member that fails becomes poison, the parity is
recomputed from the data members. -/
def State.writeOverLost (s : State) (f l : Nat) (x : Line) (m : W16) (reads : List MemberRead) : State :=
  let new := s.formLine f l x m
  let s := s.storeMember f l new
  let s := (s.others f).foldl (fun s o =>
    match s.readMember o l (upsetOf reads (channelOf s.w o)) with
    | some (_, false) => s.poisonMember o l
    | _ => s) s
  s.coverParity f l new

/-- Writes a line of a data frame over its old content, which is read and, when that fails, rebuilt (R133). -/
def State.writeLine (s : State) (f line : Nat) (x : Line) (m : W16) : State :=
  match s.contentOf f line Upset.none [] with
  | some old => s.deltaWrite f line old x m
  | none => (s.writeOverLost f line x m []).rebuildFails f line none

/-- Rewrites a line of a data frame with poison, parity updated (R142): by delta, or from what the members hold where the old content is lost. -/
def State.poisonLine (s : State) (f line : Nat) (kind : Nat) : State :=
  let (r, s) := s.poisonForm f line kind
  let old := s.contentOf f line Upset.none []
  let s := s.storeMember f line r
  match old with
  | some old => s.deltaParity (groupOf s.w f) line (xorRaw old r)
  | none => s.coverParity f line r

/-- Every line of a frame back to the zero-filled content of a free frame, parity updated (02 R37). -/
def State.zeroFrame (s : State) (f : Nat) : State :=
  (List.range 64).foldl (fun s l =>
    if sideMeta (s.rawLine f l).side = 0 ∧ (s.rawLine f l).data = 0 ∧ (s.place f = .at f) then s
    else s.writeLine f l 0 0) s

/-- Granule i of the bin or line of the hot frame, as content: none is unreadable. -/
def State.lineContent (s : State) (f line : Nat) : Option Raw := s.contentOf f line Upset.none []

/-! ### Ciphertext (05 R96 to R100) -/

/-- Plaintext of a hot line; a line not written since its frame left the pool reads as zeros (WRITTEN = 0: DEDUCED, log 25). -/
def State.decHot (s : State) (key dpn line : Nat) (r : Raw) : Line :=
  if metaWritten (sideMeta r.side) then decLine (s.keyOf key) (seqHot dpn line) 0 r.data else 0

def State.encHot (s : State) (key dpn line : Nat) (x : Line) : Line := encLine (s.keyOf key) (seqHot dpn line) 0 x

/-- Plaintext and ciphertext of granule j of a warm chunk: one data unit per chunk (R97, 01 R17). -/
def State.decGranule (s : State) (key dpn chunk j : Nat) (x : Line) : Line :=
  decLine (s.keyOf key) (seqChunk dpn chunk) (4 * j) x

def State.encGranule (s : State) (key dpn chunk j : Nat) (x : Line) : Line :=
  encLine (s.keyOf key) (seqChunk dpn chunk) (4 * j) x

end Sys2Proof.Machine
end

