-- ==== Sys2Proof/Machine/Lerz.lean ====
section
/-! DEFINITION. The Lerzound format (04): chunk forms and headers, the reference decoder, the line-rate and deep encoders, and
the frames outside bins. Pure functions of bytes. -/

namespace Sys2Proof.Machine

/-! ### Bit streams (R80) -/

/-- Bits of bytes, bit 0 of byte 0 first. -/
def bitsOf (bs : List Byte) : List Bool := bs.flatMap fun b => (List.range 8).map b.getLsbD

/-- A field of n bits, least significant first. -/
def fieldBits (n v : Nat) : List Bool := (List.range n).map fun i => v.testBit i

def natOfBits : List Bool → Nat
  | [] => 0
  | b :: r => (if b then 1 else 0) + 2 * natOfBits r

/-- Packs bits into bytes; the last byte is filled with zero bits. -/
def packBits (bits : List Bool) : List Byte :=
  (List.range ((bits.length + 7) / 8)).map fun i => BitVec.ofNat 8 (natOfBits ((bits.drop (8 * i)).take 8))

/-- Reads a field; none beyond the end. -/
def takeField (n : Nat) (bits : List Bool) : Option (Nat × List Bool) :=
  if bits.length < n then none else some (natOfBits (bits.take n), bits.drop n)

/-! ### Headers (R76) -/

inductive CMode where
  | coded | raw | zero | rep
  deriving DecidableEq, Repr

structure CHeader where
  version : Nat
  mode : CMode
  level : Nat
  len : Nat
  crc : W32
  deriving DecidableEq, Repr

def CMode.code : CMode → Nat
  | .coded => 0 | .raw => 1 | .zero => 2 | .rep => 3

def CMode.of (n : Nat) : CMode := match n % 4 with | 0 => .coded | 1 => .raw | 2 => .zero | _ => .rep

def CHeader.control (h : CHeader) : W32 :=
  BitVec.ofNat 32 (h.version % 16 + 16 * h.mode.code + 64 * (h.level % 16) + 1024 * (h.len % 2048))

def CHeader.bytes (h : CHeader) : List Byte := leBytes 4 h.control ++ leBytes 4 h.crc

def CHeader.parse (bs : List Byte) : CHeader :=
  let c := natOfBytes (bs.take 4)
  { version := c % 16, mode := CMode.of (c / 16), level := c / 64 % 16, len := c / 1024 % 2048
    crc := ofBytes 32 ((bs.drop 4).take 4) }

/-! ### The reference decoder (R81) -/

inductive DecodeResult where
  | ok (out : List Byte)
  | unsupported
  | mismatch
  deriving DecidableEq, Repr

/-- `copy`: appends len bytes from off back; the output is held newest byte first, so each copied byte is the off-th. -/
def copyBack (off : Nat) : Nat → List Byte → List Byte
  | 0, out => out
  | len + 1, out => copyBack off len (out.getD (off - 1) 0 :: out)

/-- Reads an offset code. -/
def readOffset (bits : List Bool) : Option (Nat × List Bool) :=
  match bits with
  | false :: r => (takeField 6 r).map fun p => (p.1 + 1, p.2)
  | true :: r =>
    match takeField 10 r with
    | some (o, r) => if o < 65 then none else some (o, r)
    | none => none
  | [] => none

/-- A MATCH of a length: none when the offset reaches before the output or the output passes 1,024. -/
def readMatch (len : Nat) (n : Nat) (out : List Byte) (bits : List Bool) : Option (Nat × List Byte × List Bool) :=
  match readOffset bits with
  | some (off, r) => if off > n ∨ n + len > 1024 then none else some (n + len, copyBack off len out, r)
  | none => none

/-- Reads k literal bytes. -/
def readLits : Nat → List Byte → List Bool → Option (List Byte × List Bool)
  | 0, out, bits => some (out, bits)
  | k + 1, out, bits =>
    match takeField 8 bits with
    | some (b, r) => readLits k (BitVec.ofNat 8 b :: out) r
    | none => none

/-- The token loop; answers the output, newest first, and the bits left after END. A valid chunk holds at most 634 tokens. -/
def decodeTokens : Nat → Nat → List Byte → List Bool → Option (Nat × List Byte × List Bool)
  | 0, _, _, _ => none
  | fuel + 1, n, out, bits =>
    match bits with
    | false :: r =>
      match takeField 6 r with
      | some (m, r) =>
        if n + m + 1 > 1024 then none
        else match readLits (m + 1) out r with
          | some (out, r) => decodeTokens fuel (n + m + 1) out r
          | none => none
      | none => none
    | true :: false :: r =>
      match takeField 3 r with
      | some (l, r) =>
        match readMatch (l + 4) n out r with
        | some (n, out, r) => decodeTokens fuel n out r
        | none => none
      | none => none
    | true :: true :: false :: r =>
      match takeField 8 r with
      | some (k, r) =>
        if k > 247 then none
        else match readMatch (k + 12) n out r with
          | some (n, out, r) => decodeTokens fuel n out r
          | none => none
      | none => none
    | true :: true :: true :: r => some (n, out, r)
    | _ => none

/-- A CODED stream of exactly LEN bytes (R81). -/
def decodeCoded (stream : List Byte) : Option (List Byte) :=
  match decodeTokens 1025 0 [] (bitsOf stream) with
  | some (n, out, rest) => if n = 1024 ∧ rest.length < 8 ∧ rest.all (! ·) then some out.reverse else none
  | none => none

/-- decode_chunk (R81, R82). -/
def decodeChunk (h : CHeader) (s : List Byte) : DecodeResult :=
  if h.version ≠ 1 then .unsupported
  else
    let out : Option (List Byte) := match h.mode with
      | .zero => if h.len = 0 then some (zeros 1024) else none
      | .rep => if h.len = 8 ∧ 8 ≤ s.length then some (List.replicate 128 (s.take 8)).flatten else none
      | .raw => if h.len = 1024 ∧ 1024 ≤ s.length then some (s.take 1024) else none
      | .coded => if 1 ≤ h.len ∧ h.len ≤ 952 ∧ h.len ≤ s.length then decodeCoded (s.take h.len) else none
    match out with
    | some o => if crc32c o = h.crc then .ok o else .mismatch
    | none => .mismatch

/-- A chunk as a bin stores it (R75, R78): COUNT and the plaintext of its granules; none is a check mismatch. `decode_chunk` answers UNSUPPORTED to a
header whose VERSION is not 1, which R82 does not call a check mismatch: it is treated as one (DESIGN CHOICE, log 142). -/
def decodeStored (cnt : Nat) (bs : List Byte) : Option (List Byte) :=
  if cnt = 0 then some (zeros 1024)
  else if cnt = 16 then some (bs.take 1024)
  else match decodeChunk (CHeader.parse bs) (bs.drop 8) with
    | .ok o => some o
    | _ => none

/-! ### Encoders (R83, R84) -/

inductive Token where
  | lit (bs : List Byte)
  | mat (len off : Nat)
  deriving DecidableEq, Repr

def offsetBits (off : Nat) : List Bool :=
  if off ≤ 64 then false :: fieldBits 6 (off - 1) else true :: fieldBits 10 off

def Token.bits : Token → List Bool
  | .lit bs => false :: (fieldBits 6 (bs.length - 1) ++ bitsOf bs)
  | .mat len off =>
    if len ≤ 11 then true :: false :: (fieldBits 3 (len - 4) ++ offsetBits off)
    else true :: true :: false :: (fieldBits 8 (len - 12) ++ offsetBits off)

/-- The stream of tokens with END; none when it does not fit in 952 bytes (R85). -/
def tokenStream (ts : List Token) : Option (List Byte) :=
  let bits := ts.flatMap Token.bits ++ [true, true, true]
  if bits.length ≤ 952 * 8 then some (packBits bits) else none

/-- h(p) of R83 over the bytes from p. -/
def lerzHash (bs : List Byte) : Nat := (natOfBytes (bs.take 4) * 0x9E3779B1) % 2 ^ 32 / 2 ^ 22

/-- Bytes in which two runs agree, at most k. -/
def agree : Nat → List Byte → List Byte → Nat
  | 0, _, _ => 0
  | _, [], _ => 0
  | _, _, [] => 0
  | k + 1, a :: x, b :: y => if a = b then agree k x y + 1 else 0

/-- Pending literals, newest first, as a token. -/
def flushLits (pend : List Byte) (ts : List Token) : List Token :=
  if pend.isEmpty then ts else .lit pend.reverse :: ts

/-- Adds a literal; a run is emitted at 64 bytes. -/
def addLit (b : Byte) (pend : List Byte) (ts : List Token) : List Byte × List Token :=
  if pend.length = 63 then ([], .lit (b :: pend).reverse :: ts) else (b :: pend, ts)

/-- The line-rate compressor's pass (R83); tokens newest first. `rest` is the chunk from p on. -/
def lineRate (all : List Byte) : Nat → Nat → List Byte → Tab (Option Nat) → List Byte → List Token → List Token
  | 0, _, _, _, pend, ts => flushLits pend ts
  | fuel + 1, p, rest, tab, pend, ts =>
    match rest with
    | [] => flushLits pend ts
    | b :: tail =>
      if p > 1020 then
        let (pend, ts) := addLit b pend ts
        lineRate all fuel (p + 1) tail tab pend ts
      else
        let h := lerzHash rest
        let cand := Tab.get (fun _ => none) tab h
        let tab := Tab.set (fun _ => none) h (some p) tab
        let len := match cand with | some c => agree 259 (all.drop c) rest | none => 0
        if len ≥ 4 then
          lineRate all fuel (p + len) (rest.drop len) tab [] (.mat len (p - cand.getD 0) :: flushLits pend ts)
        else
          let (pend, ts) := addLit b pend ts
          lineRate all fuel (p + 1) tail tab pend ts

/-- Chain depth, lazy, nice length of a deep level (R84). -/
def deepLevel (level : Nat) : Nat × Bool × Nat :=
  match level with
  | 1 => (1, false, 259) | 2 => (2, false, 259) | 3 => (4, false, 259) | 4 => (4, true, 128) | 5 => (8, true, 128)
  | 6 => (16, true, 259) | 7 => (24, true, 259) | 8 => (48, true, 259) | _ => (64, true, 259)

/-- The longest match along a chain, the earlier candidate on a tie, stopping at the nice length. -/
def bestMatch (all : List Byte) (p nice : Nat) : List Nat → Nat × Nat → Nat × Nat
  | [], best => best
  | c :: r, best =>
    let len := agree 259 (all.drop c) (all.drop p)
    let best := if len ≥ 4 ∧ len > best.1 then (len, p - c) else best
    if best.1 ≥ nice then best else bestMatch all p nice r best

/-- Search at a position: length and offset, length 0 when no match of 4 bytes is found. -/
def deepSearch (all : List Byte) (depth nice p : Nat) (tab : Tab (List Nat)) : Nat × Nat :=
  if p > 1020 then (0, 0)
  else bestMatch all p nice ((Tab.get (fun _ => []) tab (lerzHash (all.drop p))).take depth) (0, 0)

def deepInsert (all : List Byte) (p : Nat) (tab : Tab (List Nat)) : Tab (List Nat) :=
  if p > 1020 then tab
  else
    let h := lerzHash (all.drop p)
    Tab.set (fun _ => []) h (p :: Tab.get (fun _ => []) tab h) tab

/-- The deep engine's pass (R84); tokens newest first. -/
def deepPass (all : List Byte) (depth : Nat) (lazy : Bool) (nice : Nat) :
    Nat → Nat → Tab (List Nat) → List Byte → List Token → List Token
  | 0, _, _, pend, ts => flushLits pend ts
  | fuel + 1, p, tab, pend, ts =>
    if p ≥ 1024 then flushLits pend ts
    else
      let m := deepSearch all depth nice p tab
      let tab := deepInsert all p tab
      let defer := lazy && m.1 != 0 && decide ((deepSearch all depth nice (p + 1) tab).1 > m.1)
      if m.1 ≥ 4 ∧ !defer then
        let tab := (List.range (m.1 - 1)).foldl (fun t i => deepInsert all (p + 1 + i) t) tab
        deepPass all depth lazy nice fuel (p + m.1) tab [] (.mat m.1 m.2 :: flushLits pend ts)
      else
        let (pend, ts) := addLit (all.getD p 0) pend ts
        deepPass all depth lazy nice fuel (p + 1) tab pend ts

/-- The tokens of a chunk at a level; 0 is a line-rate compressor. -/
def chunkTokens (level : Nat) (bs : List Byte) : List Token :=
  if level = 0 then (lineRate bs 1025 0 bs [] [] []).reverse
  else
    let (d, l, n) := deepLevel level
    (deepPass bs d l n 1025 0 [] [] []).reverse

/-! ### Forms (R75, R78, R79) -/

inductive ChunkForm where
  | absent
  | rep (pattern : List Byte)
  | coded (stream : List Byte)
  | raw
  deriving DecidableEq, Repr

/-- The form in which a chunk is stored (R78); a chunk with a poisoned line is raw. -/
def formOf (level : Nat) (poison : Bool) (bs : List Byte) : ChunkForm :=
  if poison then .raw
  else if bs.all (· == 0) then .absent
  else if bs == (List.replicate 128 (bs.take 8)).flatten then .rep (bs.take 8)
  else match tokenStream (chunkTokens level bs) with
    | some st => .coded st
    | none => .raw

def padTo (n : Nat) (bs : List Byte) : List Byte := bs ++ zeros (ceilDiv bs.length n * n - bs.length)

def headerOf (mode : CMode) (level len : Nat) (bs : List Byte) : CHeader :=
  { version := 1, mode, level, len, crc := crc32c bs }

/-- COUNT and granule bytes of a chunk in a bin. -/
def ChunkForm.stored (f : ChunkForm) (level : Nat) (bs : List Byte) : Nat × List Byte :=
  match f with
  | .absent => (0, [])
  | .rep p => (1, padTo 64 ((headerOf .rep level 8 bs).bytes ++ p))
  | .coded st =>
    let b := padTo 64 ((headerOf .coded level st.length bs).bytes ++ st)
    (b.length / 64, b)
  | .raw => (16, bs)

/-- The frame of a chunk outside bins, padded to a multiple of 8 (R79). -/
def ChunkForm.frame (f : ChunkForm) (level : Nat) (bs : List Byte) : List Byte :=
  match f with
  | .absent => (headerOf .zero level 0 bs).bytes
  | .rep p => (headerOf .rep level 8 bs).bytes ++ p
  | .coded st => padTo 8 ((headerOf .coded level st.length bs).bytes ++ st)
  | .raw => (headerOf .raw level 1024 bs).bytes ++ bs

/-- LEN that a MODE permits (R92 test 3). -/
def CHeader.lenOk (h : CHeader) : Bool :=
  match h.mode with
  | .zero => h.len == 0
  | .rep => h.len == 8
  | .raw => h.len == 1024
  | .coded => decide (1 ≤ h.len) && decide (h.len ≤ 952)

/-- Outcome of one frame of DECOMPRESS_IN from the bytes left in the buffer (R92): the chunk and the bytes after the frame,
or the status of the first failing test. -/
inductive FrameResult where
  | ok (chunk : List Byte) (rest : List Byte)
  | fail (status : W16)
  deriving DecidableEq, Repr

def readFrame (buf : List Byte) : FrameResult :=
  if buf.length < 8 then .fail 0x0013
  else
    let h := CHeader.parse buf
    let total := ceilDiv (8 + h.len) 8 * 8
    if h.version ≠ 1 then .fail 0x0014
    else if !h.lenOk then .fail 0x0031
    else if buf.length < total then .fail 0x0013
    else match decodeChunk h (buf.drop 8) with
      | .ok o => .ok o (buf.drop total)
      | _ => .fail 0x0031

/-- The bytes of lines and the lines of bytes. -/
def bytesOfLines (ls : List Line) : List Byte := ls.flatMap (leBytes 64)

def linesOfBytes (n : Nat) (bs : List Byte) : List Line := (List.range n).map fun i => ofBytes 512 ((bs.drop (64 * i)).take 64)

end Sys2Proof.Machine
end

