-- ==== Sys2Proof/Machine/Pages.lean ====
section
/-! DEFINITION. Pages: spans (02 R47, R48), frames and bins (02 R42, 03 R61 to R66), the changes of STATE that several blocks make (02
R49), and the plaintext of a stored page. -/

namespace Sys2Proof.Machine

/-! ### Spans (R47, R48) -/

def spanBase (dpn : Dpn) : Dpn := dpn &&& 0xFFFFFE00

def spanPages (dpn : Dpn) : List Dpn := (List.range 512).map fun i => spanBase dpn + BitVec.ofNat 32 i

/-- Clears SPAN in all 512 entries and removes the span entry from the cache, before a change that breaks a span. -/
def State.breakSpan (s : State) (dpn : Dpn) : State :=
  if (s.entry dpn).span then
    let s := (spanPages dpn).foldl (fun s d => s.putEntry d { s.entry d with span := false }) s
    match s.spanWay dpn with
    | some (k, i, _) => s.updCacheSet k fun c => { c with ways := Tab.set (fun _ => none) i none c.ways }
    | none => s
  else s

/-- Whether the 512 pages form a span (R47). -/
def State.spanForms (s : State) (dpn : Dpn) : Bool :=
  let e0 := s.entry (spanBase dpn)
  let c := channelOf s.w e0.frame.toNat
  let k0 := channelIndex s.w e0.frame.toNat
  decide (e0.state = .hot) && (List.range 512).all fun i =>
    let e := s.entry (spanBase dpn + BitVec.ofNat 32 i)
    decide (e.state = .hot) && decide (e.owner = e0.owner) && decide (e.key = e0.key) && (e.durable == e0.durable)
      && (e.pinned == e0.pinned) && decide (e.frame.toNat = dataFrame s.w c (k0 + i))

/-- Sets SPAN where the conditions hold, and caches the span entry. -/
def State.formSpan (s : State) (dpn : Dpn) : State :=
  if !(s.entry dpn).span && s.spanForms dpn then
    let s := (spanPages dpn).foldl (fun s d => s.putEntry d { s.entry d with span := true }) s
    s.cacheInsert (spanBase dpn) true (s.entry (spanBase dpn))
  else s

/-! ### Frames -/

def State.isEmergencyFree (s : State) : Bool := decide (s.tier.emergencyBins > 0)

/-- A free data frame of the pool that may be handed out (02 R28, 06 R151). -/
def State.frameFree (s : State) (f : Nat) : Bool :=
  decide (groupOf s.w f < min s.poolGroups s.resume.initGroups) && !isParity s.w f
    && decide ((s.frameRec f).kind = .free) && decide (s.place f = .at f)

/-- The first free frame at or after a frame that meets a test, looking at `fuel` frames and wrapping at the end of the pool. -/
def State.nextFree (s : State) (ok : Nat → Bool) : Nat → Nat → Option Nat
  | 0, _ => none
  | fuel + 1, f =>
    if s.frameFree f && ok f then some f
    else s.nextFree ok fuel (if f + 1 ≥ s.poolGroups * s.w then 0 else f + 1)

/-- The frame for page i of a block whose page 0 has, or is to have, a frame: i further in channel order (R47). -/
def State.blockFrame (s : State) (f0 i : Nat) : Nat := dataFrame s.w (channelOf s.w f0) (channelIndex s.w f0 + i)

/-- The block that a frame is reserved for (R47). -/
def State.reservedFor (s : State) (f : Nat) : Option Nat :=
  (s.tier.reserved.find? fun p => match p.2 with
    | some f0 => decide (channelOf s.w f0.toNat = channelOf s.w f) && decide (channelIndex s.w f0.toNat ≤ channelIndex s.w f)
        && decide (channelIndex s.w f < channelIndex s.w f0.toNat + 512)
    | none => false).map (·.1)

def State.setReserved (s : State) (block : Nat) (f : Option Frame) : State :=
  s.mapTier fun t => { t with reserved := Tab.set (fun _ => none) block f t.reserved }

/-- The frame the allocator hands out: which free frame is its own choice, made by the hint (DESIGN CHOICE, log 29). One that is reserved
for a block is taken only when no other is free. -/
def State.pickFree (s : State) (hint : Frame) : Option Nat :=
  (s.nextFree (fun f => (s.reservedFor f).isNone) (s.poolGroups * s.w) hint.toNat).orElse fun _ =>
    if s.tier.reserved.isEmpty then none else s.nextFree (fun _ => true) (s.poolGroups * s.w) hint.toNat

/-- The frame for a page: the one reserved for it in its block, else any (R47). -/
def State.pickFor (s : State) (dpn : Dpn) (hint : Frame) : Option Nat :=
  match (Tab.get (fun _ => none) s.tier.reserved (dpn.toNat / 512) : Option Frame) with
  | some f0 =>
    let f := s.blockFrame f0.toNat (dpn.toNat % 512)
    if s.frameFree f then some f else s.pickFree hint
  | none => s.pickFree hint

/-- Before a first write: when the pages before it in its aligned block stand in consecutive frames of one channel, the run is sequential, and
the allocator reserves the frames of the rest of the block in channel order, if they are free (R47; that the second page of a block makes the run is a
DESIGN CHOICE, log 137). -/
def State.reserveRun (s : State) (dpn : Dpn) : State :=
  let b := dpn.toNat / 512
  let i := dpn.toNat % 512
  let e0 := s.entry (spanBase dpn)
  let f0 := e0.frame.toNat
  if i = 0 ∨ e0.state ≠ .hot ∨ (Tab.get (fun _ => none) s.tier.reserved b : Option Frame).isSome then s
  else if (List.range i).all (fun j =>
        let e := s.entry (spanBase dpn + BitVec.ofNat 32 j)
        decide (e.state = .hot) && decide (e.frame.toNat = s.blockFrame f0 j))
      && (List.range (512 - i)).all (fun j => s.frameFree (s.blockFrame f0 (i + j)) && (s.reservedFor (s.blockFrame f0 (i + j))).isNone)
    then s.setReserved b (some e0.frame)
  else s

/-- The free-frame thresholds in force, taken from the frames initialized so far until initialization ends (10 R251). -/
def State.thresholdBase (s : State) : Nat :=
  if s.resume.initDone then s.tier.poolFrames else min s.resume.initGroups s.poolGroups * (s.w - 1)
def State.lowFrames (s : State) : Nat := s.tier.thLow s.thresholdBase
def State.highFrames (s : State) : Nat := s.tier.thHigh s.thresholdBase
def State.pressureFrames (s : State) : Nat := s.tier.thPressure s.thresholdBase
def State.reserveFrames (s : State) : Nat := s.tier.thReserve s.thresholdBase

/-- After a change of FREE_FRAMES: background demotion starts at FREE_LOW and ends above FREE_HIGH (R62), EXHAUSTED clears above
RESERVE (R67). -/
def State.afterFree (s : State) : State :=
  let f := s.tier.freeFrames
  let low := s.lowFrames
  let high := s.highFrames
  let res := s.reserveFrames
  s.mapTier fun t => { t with demoting := if f ≤ low then true else if f > high then false else t.demoting
                              exhausted := t.exhausted && decide (f ≤ res) }

/-- A frame that another page takes ends the reservation of its block, and so does the last page of the block (R47). -/
def State.endReserved (s : State) (f : Nat) (r : FrameRec) : State :=
  match s.reservedFor f with
  | none => s
  | some b =>
    match r.dpns with
    | [d] => if d.toNat / 512 = b ∧ d.toNat % 512 < 511 then s else s.setReserved b none
    | _ => s.setReserved b none

/-- Takes a free frame out of FREE_FRAMES with a record of a kind. -/
def State.takeFrame (s : State) (hint : Frame) (r : FrameRec) : Option (Nat × State) :=
  if s.tier.freeFrames = 0 then none
  else match (match r.dpns with | [d] => s.pickFor d hint | _ => s.pickFree hint) with
    | none => none
    | some f =>
      let s := ((s.endReserved f r).setFrameRec f r).mapTier fun t => { t with freeFrames := t.freeFrames - 1 }
      some (f, s.afterFree)

/-- Takes an emergency bin frame (R66). -/
def State.takeEmergency (s : State) (hint : Frame) (r : FrameRec) : Option (Nat × State) :=
  if s.tier.emergencyBins = 0 then none
  else match s.pickFree hint with
    | none => none
    | some f => some (f, ((s.endReserved f r).setFrameRec f r).mapTier fun t => { t with emergencyBins := t.emergencyBins - 1 })

/-- A host write waits for a frame (03 R66, R67). -/
def State.frameWanted (s : State) : Bool := decide (s.tier.freeFrames = 0) && s.path.reqs.any fun r => decide (r.phase = .frame)

/-- A freed frame goes to the host write that waits for one, else it refills the emergency bins before it enters the pool (R66; log 37). Its content
is zero-filled again (02 R37). A frame of a unit out of service enters no pool (06 R151). A write-back or verify read of the frame has nothing left to do. -/
def State.freeFrame (s : State) (f : Nat) : State :=
  let s := (s.zeroFrame f).setFrameRec f frameReset
  let s := s.mapWelt fun w =>
    { w with backs := w.backs.filter fun b => decide (b.frame.toNat ≠ f), verifies := w.verifies.filter fun v => decide (v.1.toNat ≠ f) }
  let s := if s.place f ≠ .at f then s
    else if s.resume.initDone ∧ s.tier.emergencyBins < 64 ∧ !s.frameWanted then s.mapTier fun t => { t with emergencyBins := t.emergencyBins + 1 }
    else s.mapTier fun t => { t with freeFrames := t.freeFrames + 1 }
  s.afterFree

def hotRecord (dpn : Dpn) (owner : BitVec 12) : FrameRec := { map := BitVec.allOnes 64, dpns := [dpn], kind := .hot, owner }

/-! ### Bins (03 R64) -/

/-- Bits of a run of granules. -/
def runMask (off cnt : Nat) : W64 := BitVec.ofNat 64 ((2 ^ cnt - 1) <<< off)

def chunkMask (cs : List Chunk) : W64 := cs.foldl (fun m c => m ||| runMask c.off.toNat c.cnt.toNat) 0

/-- Length of the free run at an offset. -/
def runLength (map : W64) (o : Nat) : Nat := ((List.range (64 - o)).takeWhile fun i => !map.getLsbD (o + i)).length

/-- The free runs of a bin, offset and length, lowest first. -/
def freeRuns (map : W64) : List (Nat × Nat) :=
  ((List.range 64).filter fun o => !map.getLsbD o && (decide (o = 0) || map.getLsbD (o - 1))).map fun o => (o, runLength map o)

/-- Places chunks of given counts in free runs: each chunk at the start of what is left of the first run with which the chunks after it
find a place too, so that chunks which fit at all are placed (the place within the chosen bin is DEDUCED, log 30). -/
def placeRuns : List Nat → List (Nat × Nat) → Option (List Chunk)
  | [], _ => some []
  | c :: r, runs =>
    if c = 0 then (placeRuns r runs).map (Chunk.none :: ·)
    else (List.range runs.length).findSome? fun i =>
      match runs[i]? with
      | some (o, l) =>
        if c ≤ l then (placeRuns r (runs.set i (o + c, l - c))).map ({ off := BitVec.ofNat 6 o, cnt := BitVec.ofNat 5 c } :: ·) else none
      | none => none

/-- A place for chunks of given counts in a bin. -/
def placeChunks (map : W64) (counts : List Nat) : Option (List Chunk) := placeRuns counts (freeRuns map)

/-- Size of the smallest free run that holds a count. -/
def smallestRun (map : W64) (cnt : Nat) : Option Nat :=
  ((freeRuns map).map (·.2)).foldl (fun b l => if l ≥ cnt then some (match b with | some x => min x l | none => l) else b) none

/-- The open bin for a page's chunks, and their places: smallest free run that holds the largest chunk; the lowest frame on a
tie. `ok` leaves bins out, such as the one that is being emptied. -/
def State.openBin (s : State) (counts : List Nat) (ok : Nat → Bool) : Option (Nat × List Chunk) :=
  let big := counts.foldl max 0
  (s.last.frames.filterMap fun p =>
    if p.2.kind = .bin ∧ p.2.dpns.length < 4 ∧ ok p.1 ∧ s.place p.1 = .at p.1 then
      match placeChunks p.2.map counts, smallestRun p.2.map big with
      | some cs, some l => some (l, p.1, cs)
      | _, _ => none
    else none).foldl (fun best x =>
      match best with
      | none => some x
      | some b => if x.1 < b.1 then some x else some b) none |>.map fun x => (x.2.1, x.2.2)

/-- Enters a page's chunks into a bin's record. -/
def State.addToBin (s : State) (f : Nat) (dpn : Dpn) (cs : List Chunk) : State :=
  s.updFrameRec f fun r => { r with map := r.map ||| chunkMask cs, dpns := r.dpns ++ [dpn], kind := .bin }

/-- Takes a page's chunks out of a bin; an empty bin is freed. -/
def State.removeFromBin (s : State) (f : Nat) (dpn : Dpn) (cs : List Chunk) : State :=
  let r := s.frameRec f
  let m := r.map &&& ~~~(chunkMask cs)
  if m = 0 then s.freeFrame f
  else s.setFrameRec f { r with map := m, dpns := r.dpns.filter (· ≠ dpn) }

/-- Frees the storage of an entry that is HOT or WARM, or the source of one in motion. -/
def State.releaseStorage (s : State) (dpn : Dpn) (e : LastEntry) : State :=
  match e.state with
  | .hot => s.freeFrame e.frame.toNat
  | .warm => s.removeFromBin e.frame.toNat dpn e.chunks
  | .inMotion => if e.warmSource then s.removeFromBin e.frame.toNat dpn e.chunks else s.freeFrame e.frame.toNat
  | _ => s

/-! ### Migrations that end early (02 R49, R54) -/

/-- Returns an entry in motion to its source state and frees the destination. After the flip there is nothing to abandon: the tracker keeps the
source until nothing that resolved at the old generation is outstanding (R52). -/
def State.abandon (s : State) (dpn : Dpn) : State :=
  match s.trackerOf dpn with
  | none => s
  | some (n, t) =>
    if t.flipped then s
    else
      let s := s.setTracker n none
      let e := s.entry dpn
      let s := (s.putEntry dpn { e with state := if e.warmSource then .warm else .hot }).pmLast 6 noLd
      match t.dest with
      | some f => if t.place.isEmpty then s.freeFrame f.toNat else s.removeFromBin f.toNat dpn t.place
      | none => s

/-! ### The protection window (09 R222) -/

/-- Whether a write that would queue a page is held (09 R222); while no image exists nothing is held (DEDUCED, log 52). -/
def State.windowHolds (s : State) (dpn : Dpn) (amount : Nat) : Bool :=
  let e := s.entry dpn
  e.durable && !e.dirty && s.shank.imageExists &&
    (decide (s.dirtyBytes + amount > s.shank.window * mib64) || decide (s.shank.queue.length ≥ Config.shadowQueueMax)
      || s.shank.logFull)

/-! ### Key slots (05 R110, R119) -/

/-- Pages that carry a key ID, counted in its slot. -/
def State.keyPages (s : State) (k : BitVec 12) (up : Bool) : State :=
  s.updSlot k.toNat fun x => { x with pages := if up then x.pages + 1 else x.pages - 1 }

/-- The key-encryption key as the key store holds it (05 R111); zeros once it is zeroized (R118). -/
def State.kek (s : State) : BitVec 256 := if s.keys.kekValid then kekOf s.keys.dke else 0

/-- The key-wrap entries of the slots that hold a persistent key or stand DESTROYED (05 R113, 09 R240). -/
def State.wrapEntries (s : State) : List KeyWrap :=
  (s.keys.slots.filter fun p => p.1 ≠ 0 && p.2.persistent && decide (p.2.state ≠ .empty)).map fun p =>
    { keyId := BitVec.ofNat 12 p.1, destroyed := decide (p.2.state = .destroyed), programmer := p.2.programmer
      mask := p.2.mask, dke := s.keys.dke, wrapped := if p.2.state = .destroyed then List.replicate 9 0 else kwWrap s.kek p.2.key }

/-- Writes a key-wrap copy to the image (09 R217, R240); from then on records under its keys may be written (05 R114). -/
def State.wrapKeys (s : State) : State :=
  if s.shank.imageExists ∧ s.keys.kekValid then
    let s := s.mapImage fun i => { i with keyWrapSeq := i.keyWrapSeq + 1, keyWrap := s.wrapEntries }
    let s := s.writeImage (.keyWrap s.image.keyWrapSeq s.image.keyWrap)
    (s.keys.slots.map (·.1)).foldl (fun s k => s.updSlot k fun x => { x with wrapped := x.persistent && decide (x.state = .loaded) }) s
  else s

/-- A slot becomes EMPTY (05 R120), and its entry leaves the next key-wrap copy (09 R217). -/
def State.emptySlot (s : State) (k : Nat) : State :=
  let was := (s.slot k).persistent
  let s := s.setSlot k { slotReset k with state := .empty, grant := (s.slot k).grant }
  if was then s.wrapKeys else s

/-- A DESTROYED slot whose page count is zero: EMPTY at once while no image exists, else when no record can name its key (05 R120). -/
def State.slotZero (s : State) (k : Nat) : State :=
  let x := s.slot k
  if x.state = .destroyed ∧ x.pages = 0 ∧ x.resumed.isNone ∧ x.zeroSerial.isNone then
    if s.shank.imageExists then s.setSlot k { x with zeroSerial := some s.shank.serial } else s.emptySlot k
  else s

/-! ### Changes of STATE (02 R49) -/

def LastEntry.next (e : LastEntry) : Byte := e.gen + 1

/-- Drops what a page loses with its content: repair entries (04 R91) and the pin count. -/
def State.dropPage (s : State) (dpn : Dpn) (e : LastEntry) : State :=
  let s := s.mapCodec fun c => { c with repair := c.repair.filter fun j => j.dpn ≠ dpn }
  if e.pinned then s.mapTier fun t => { t with pinnedPages := t.pinnedPages - 1 } else s

/-- Clears the 4410 compatibility entries of a page (06 R147). -/
def State.clearCompat (s : State) (dpn : Dpn) : State :=
  (List.range 8).foldl (fun s i =>
    match s.compat i with
    | some c => if c.dpa.extractLsb' 12 32 = dpn then s.setCompat i none else s
    | none => s) s

/-- To UNWRITTEN, from any state but RESTORING: Sanitize, release, reassignment (R49). `stays` says that the capacity stays
durable, so that a DURABLE page is queued as TOMBSTONE (09 R215). -/
def State.toUnwritten (s : State) (dpn : Dpn) (stays : Bool) : State :=
  let e0 := s.entry dpn
  if e0.state = .restoring then s
  else if e0.state = .unwritten then s.clearCompat dpn
  else
    let s := (s.abandon dpn).breakSpan dpn
    let e := s.entry dpn
    let s := (((s.releaseStorage dpn e).dropPage dpn e).clearCompat dpn).keyPages e.key false
    let s := s.putEntry dpn { LastEntry.zero with gen := e.next }
    (if e.durable ∧ stays then s.queueShadow dpn .tombstone else s).slotZero e.key.toNat

/-- To LOST (R49): storage freed, DIRTY 0, a TOMBSTONE when the page was DIRTY (09 R215). -/
def State.toLost (s : State) (dpn : Dpn) : State :=
  let e0 := s.entry dpn
  if e0.state = .unwritten ∨ e0.state = .lost then s
  else
    let s := (s.abandon dpn).breakSpan dpn
    let e := s.entry dpn
    let s := (s.releaseStorage dpn e).dropPage dpn e
    let s := s.putEntry dpn { LastEntry.zero with state := .lost, owner := e.owner, key := e.key, durable := e.durable, gen := e.next }
    if e.durable ∧ e.dirty then s.queueShadow dpn .tombstone else s

/-- To ZERO by an operation that makes the whole page zeros (R49). A page that leaves UNWRITTEN takes the given owner, key and
durability; PINNED is kept where ZERO keeps it. -/
def State.toZero (s : State) (dpn : Dpn) (owner key : BitVec 12) (durable : Bool) : State :=
  let s := (s.abandon dpn).breakSpan dpn
  let e := s.entry dpn
  match e.state with
  | .zero => s.clearCompat dpn
  | .restoring => s
  | .unwritten =>
    (((s.clearCompat dpn).putEntry dpn { LastEntry.zero with state := .zero, owner, key, durable, gen := e.next }).keyPages key true).setDirty dpn
  | _ =>
    let s := (((s.releaseStorage dpn e).dropPage dpn { e with pinned := false }).clearCompat dpn)
    (s.putEntry dpn { LastEntry.zero with state := .zero, owner := e.owner, key := e.key, durable := e.durable, dirty := e.dirty, pinned := e.pinned, gen := e.next }).setDirty dpn

/-- A page that takes a hot frame: from UNWRITTEN or ZERO with zero-filled content, from LOST with every line poison (R37, R38).
The caller writes the line and sets DIRTY. -/
def State.toHot (s : State) (dpn : Dpn) (frame : Nat) (owner key : BitVec 12) (durable : Bool) : State :=
  let e := s.entry dpn
  let fr := BitVec.ofNat 32 frame
  match e.state with
  | .unwritten =>
    ((s.putEntry dpn { LastEntry.zero with state := .hot, owner, key, durable, frame := fr, gen := e.next }).keyPages key true).formSpan dpn
  | .zero => (s.putEntry dpn { e with state := .hot, frame := fr, gen := e.next }).formSpan dpn
  | .lost =>
    let s := (s.putEntry dpn { e with state := .hot, frame := fr, gen := e.next }).formSpan dpn
    (List.range 64).foldl (fun s l => s.poisonLine frame l kindData) s
  | _ => s

/-! ### Plaintext of a stored page; a line that reads as poison is none -/

/-- Line of a page in a hot frame. -/
def State.hotPlain (s : State) (dpn : Dpn) (e : LastEntry) (line : Nat) : Option Line :=
  match s.lineContent e.frame.toNat line with
  | some r => if metaPoison (sideMeta r.side) then none else some (s.decHot e.key.toNat dpn.toNat line r)
  | none => none

/-- The granules of a chunk as content. -/
def State.granules (s : State) (e : LastEntry) (ch : Nat) : List (Option Raw) :=
  (List.range (e.chunk ch).cnt.toNat).map fun j => s.lineContent e.frame.toNat ((e.chunk ch).off.toNat + j)

/-- The lines of a warm chunk from its granules; none is a check mismatch (04 R82). -/
def State.chunkPlain (s : State) (dpn : Dpn) (e : LastEntry) (ch : Nat) (gs : List (Option Raw)) : Option (List (Option Line)) :=
  let k := e.key.toNat
  let d := dpn.toNat
  let cnt := (e.chunk ch).cnt.toNat
  if cnt = 16 then
    some (gs.zipIdx.map fun p => match p.1 with
      | some r => if metaPoison (sideMeta r.side) then none else some (s.decGranule k d ch p.2 r.data)
      | none => none)
  else if gs.all (·.isSome) then
    let bs := bytesOfLines (gs.zipIdx.map fun p => s.decGranule k d ch p.2 ((p.1.map (·.data)).getD 0))
    (decodeStored cnt bs).map fun o => (linesOfBytes 16 o).map some
  else none

def State.chunkRead (s : State) (dpn : Dpn) (e : LastEntry) (ch : Nat) : Option (List (Option Line)) :=
  s.chunkPlain dpn e ch (s.granules e ch)

/-- Whether an entry's stored form is a hot frame. -/
def LastEntry.hotForm (e : LastEntry) : Bool :=
  match e.state with
  | .hot => true
  | .inMotion => !e.warmSource
  | _ => false

def LastEntry.warmForm (e : LastEntry) : Bool :=
  match e.state with
  | .warm => true
  | .inMotion => e.warmSource
  | _ => false

/-- The 64 lines of a page as a read returns them; a chunk that fails its check reads as poison. -/
def State.pagePlain (s : State) (dpn : Dpn) : List (Option Line) :=
  let e := s.entry dpn
  if e.hotForm then (List.range 64).map fun l => s.hotPlain dpn e l
  else if e.warmForm then
    (List.range 4).flatMap fun ch => match s.chunkRead dpn e ch with | some ls => ls | none => List.replicate 16 none
  else if e.state = .lost ∨ e.state = .restoring then List.replicate 64 none
  else List.replicate 64 (some 0)

/-- Writes a line of a page into a hot frame, encrypted, or poison. -/
def State.writeHotLine (s : State) (dpn : Dpn) (key frame line : Nat) (x : Option Line) : State :=
  match x with
  | some p => (s.writeLine frame line (s.encHot key dpn.toNat line p) (metaOf kindData false true)).pmCrypto 1
  | none => s.poisonLine frame line kindData

/-- Writes a page's 64 lines into a hot frame. -/
def State.fillHot (s : State) (dpn : Dpn) (key frame : Nat) (ls : List (Option Line)) : State :=
  ls.zipIdx.foldl (fun s p => s.writeHotLine dpn key frame p.2 p.1) s

/-- Writes the granules of a chunk into a bin: one data unit; a poisoned granule carries META.POISON (04 R78). -/
def State.fillChunk (s : State) (dpn : Dpn) (key frame ch : Nat) (c : Chunk) (gs : List (Option Line)) : State :=
  let s := gs.zipIdx.foldl (fun s p => match p.1 with
    | some x => s.writeLine frame (c.off.toNat + p.2) (s.encGranule key dpn.toNat ch p.2 x) (metaOf kindGranule false true)
    | none => s.poisonLine frame (c.off.toNat + p.2) kindGranule) s
  if gs.isEmpty then s else s.pmCrypto 3

end Sys2Proof.Machine
end

