-- ==== Sys2Proof/Machine/Wire.lean ====
section
/-! DEFINITION. What the two ends of a Lace module send (08): flits as they stand on the wire, the queue of link messages that wait for a credit, the replay
buffer, CTRL and TRAIN flits. -/

namespace Sys2Proof.Machine

/-! ### One end of a module -/

def LaceMod.side (x : LaceMod) : LaceEnd → LaceSide
  | .hub => x.hub
  | .die => x.die

def LaceMod.setSide (x : LaceMod) (e : LaceEnd) (d : LaceSide) : LaceMod :=
  match e with | .hub => { x with hub := d } | .die => { x with die := d }

def State.side (s : State) (m : Nat) (e : LaceEnd) : LaceSide := (s.laceMod m).side e

def State.updSide (s : State) (m : Nat) (e : LaceEnd) (f : LaceSide → LaceSide) : State :=
  s.updLaceMod m fun x => x.setSide e (f (x.side e))

def State.updBoth (s : State) (m : Nat) (f : LaceSide → LaceSide) : State := (s.updSide m .hub f).updSide m .die f

/-! ### Flits (R188, R189) -/

/-- A flit from its header fields and payload bytes; what follows the bytes given is zero. -/
def wireFlit (type seq ack acknak : Nat) (payload : List Byte) : Flit :=
  let header : W64 := BitVec.ofNat 64 (type + seq * 16 + ack * 16384 + acknak * 16777216)
  let body : BitVec 1920 := ofBytes 1920 payload
  { header, payload := body, crc := crc64 (leBytes 8 header ++ leBytes 240 body) }

/-- What an end names in an ACK, the last number accepted in order; in a NAK, the number expected next. -/
def LaceSide.ackSeq (d : LaceSide) (acknak : Nat) : Nat := if acknak = 2 then d.expected else (d.expected + 1023) % 1024

def State.sendFlit (s : State) (m : Nat) (e : LaceEnd) (f : Flit) : State := s.emit (.flit (Fin.ofNat 4 m) e f)

/-! ### Link messages (R192): whole 16-byte slots, the first byte the opcode -/

/-- A header slot from its bytes; what follows them is zero. -/
def slotOf (bs : List Byte) : BitVec 128 := ofBytes 128 bs

/-- The header slot of a READ or WRITE. -/
def reqSlot (op : Nat) (ch : Nat) (r : ChanReq) : BitVec 128 :=
  slotOf (leNat 1 op ++ leNat 1 ch ++ leNat 1 r.master.val ++ leNat 1 (r.priority.val + if r.rt then 8 else 0) ++ leBytes 2 r.tag ++ leNat 1 r.line.val
    ++ leNat 1 (r.count - 1) ++ leNat 4 r.frame.toNat)

/-- A line and its side bits: five slots. -/
def rawSlots (x : Raw) : List (BitVec 128) := ((List.range 4).map fun i => x.data.extractLsb' (128 * i) 128) ++ [x.side.setWidth 128]

def readMsg (ch : Nat) (r : ChanReq) : LinkMsg := { cls := .req, channel := some (Fin.ofNat 12 ch), slots := [reqSlot 0x01 ch r] }

def writeMsg (ch : Nat) (r : ChanReq) (x : Raw) : LinkMsg := { cls := .req, channel := some (Fin.ofNat 12 ch), slots := reqSlot 0x03 ch r :: rawSlots x }

/-- A LINE_DATA message: the tag and the LAST mark of each line with what was read. -/
def lineDataMsg (ch : Nat) (tag : BitVec 13) (lines : List (Bool × Raw)) : LinkMsg :=
  { cls := .rsp, channel := some (Fin.ofNat 12 ch)
    slots := slotOf (leNat 1 0x81 ++ leNat 1 lines.length ++ lines.flatMap fun x => leNat 2 (tag.toNat + if x.1 then 8192 else 0))
      :: lines.flatMap fun x => rawSlots x.2 }

def writeDoneMsg (ch : Nat) (tag : BitVec 13) : LinkMsg :=
  { cls := .rsp, channel := some (Fin.ofNat 12 ch), slots := [slotOf (leNat 1 0x82 ++ leNat 1 1 ++ leBytes 2 tag)] }

def eventTakenMsg (num : W16) : LinkMsg := { cls := .rsp, channel := none, slots := [slotOf (leNat 1 0x91 ++ leNat 1 1 ++ leBytes 2 num)] }

/-! ### The sender (R192, R193, R197) -/

/-- The ready messages of a class that fill one flit of `n` slots, oldest first, and those that are left. A message that does not fit waits for the next flit
(R192 lets one continue there, and no sender must; DESIGN CHOICE, log 153). -/
def fillSlots (c : LClass) : Nat → List LinkMsg → List LinkMsg × List LinkMsg
  | _, [] => ([], [])
  | n, m :: r =>
    if m.cls ≠ c then let p := fillSlots c n r; (p.1, m :: p.2)
    else if m.slots.length ≤ n then let p := fillSlots c (n - m.slots.length) r; (m :: p.1, p.2)
    else ([], m :: r)

def LClass.type : LClass → Nat
  | .req => 1
  | .rsp => 2

/-- free(c) of a sender. -/
def LaceSide.freeOf (d : LaceSide) : LClass → Int
  | .req => laceFree d.uReq d.uRsp
  | .rsp => laceFree d.uRsp d.uReq

/-- The payload of a sent flit: its messages one after the other. -/
def SentFlit.payload (x : SentFlit) : List Byte := x.msgs.flatMap fun m => m.slots.flatMap (leBytes 16)

/-- A class with a ready message and a credit; a response first, as which of two is taken is not said (DESIGN CHOICE, log 153). -/
def LaceSide.nextClass (d : LaceSide) : Option LClass :=
  [LClass.rsp, .req].find? fun c => d.ready.any (fun m => decide (m.cls = c)) && decide (d.freeOf c ≥ 1)

/-- The next DATA flit of an end: its ACK rides in the header, it takes one credit and one sequence number, and it is kept for replay. -/
def State.sendNext (s : State) (m : Nat) (e : LaceEnd) : State :=
  let d := s.side m e
  if (s.laceMod m).state ≠ 2 ∨ d.replay.length ≥ 511 then s
  else match d.nextClass with
    | none => s
    | some c =>
      let p := fillSlots c 15 d.ready
      let x : SentFlit := { seq := d.nextSeq, cls := c, msgs := p.1 }
      let s := if e = .hub then s.pmLace m 0 else s
      let s := s.sendFlit m e (wireFlit c.type x.seq (d.ackSeq 1) 1 x.payload)
      s.updSide m e fun d =>
        { d with nextSeq := (d.nextSeq + 1) % 1024, replay := d.replay ++ [x], ready := p.2, sinceAck := 0
                 uReq := d.uReq + (if c = .req then 1 else 0), uRsp := d.uRsp + (if c = .rsp then 1 else 0) }

/-- Sends what may be sent. -/
def State.sendSome (s : State) (m : Nat) (e : LaceEnd) (fuel : Nat) : State := (List.range fuel).foldl (fun s _ => s.sendNext m e) s

def State.sendReady (s : State) (m : Nat) (e : LaceEnd) : State := s.sendSome m e (s.side m e).ready.length

/-- A message joins the queue of its end and goes out as soon as it may. -/
def State.post (s : State) (m : Nat) (e : LaceEnd) (x : LinkMsg) : State := (s.updSide m e fun d => { d with ready := d.ready ++ [x] }).sendReady m e

/-! ### CTRL and TRAIN flits (R191) -/

/-- Sends a CTRL flit of a kind from an end, with what it reports, sampled together. -/
def State.sendCtrl (s : State) (m : Nat) (e : LaceEnd) (kind acknak extra : Nat) : State :=
  let d := s.side m e
  let s := s.sendFlit m e (wireFlit 8 0 (d.ackSeq acknak) acknak
    (leNat 2 kind ++ leNat 2 d.incReq ++ leNat 2 d.incRsp ++ leNat 2 d.occReq ++ leNat 2 d.occRsp ++ leNat 2 extra))
  s.updSide m e fun d => { d with incReq := 0, incRsp := 0, sinceAck := 0 }

/-- A TRAIN flit: its kind, version 1, the rate in GT/s, the width in lanes, and the pattern. -/
def State.sendTrain (s : State) (m : Nat) (e : LaceEnd) (kind : Nat) (p : Fin 3 × Bool) : State :=
  s.sendFlit m e (wireFlit 12 0 0 0 (leNat 1 kind ++ leNat 1 1 ++ leNat 1 ([32, 24, 16].getD p.1.val 32) ++ leNat 1 (if p.2 then 32 else 64) ++ zeros 12
    ++ (List.range 224).map fun i => trainByte (16 + i)))

/-- The operating point that a training aims at. -/
def LaceMod.aim (x : LaceMod) : Fin 3 × Bool := x.pendingPoint.getD (x.rate, x.half)

/-- Both ends begin a training: a pattern, and their parameters. -/
def State.beginTraining (s : State) (m : Nat) : State :=
  let p := (s.laceMod m).aim
  [LaceEnd.hub, .die].foldl (fun s e => (s.sendTrain m e 0 p).sendTrain m e 1 p) s

end Sys2Proof.Machine
end

