-- ==== Sys2Proof/Machine/Load.lean ====
section
/-! DEFINITION. Regulation (11): usable bandwidth, effective guarantees, the arbiter, charges, device load, and what leaves the
hub as a READ or WRITE on Lace; the CXL responses that carry the device load, and the end of a host request. -/

namespace Sys2Proof.Machine

/-! ### Usable bandwidth (R277, R282) -/

/-- Package ranks of a channel, and those in service. -/
def State.ranksOf (s : State) (c : Nat) : Nat :=
  match (s.chan c).dimm with
  | some d => (s.chan c).modules * dimmRanks d
  | none => 0

/-- The packed rank number (DIMM, rank) of the k-th package rank. -/
def rankCode (pr k : Nat) : BitVec 3 := BitVec.ofNat 3 (k / pr + 2 * (k % pr))

def State.ranksIn (s : State) (c : Nat) : Nat :=
  let us := s.unitsOut.filter fun p => decide (p.2.channel.val = c)
  if us.any fun p => p.2.wholeChannel then 0
  else
    let pr := match (s.chan c).dimm with | some d => dimmRanks d | none => 1
    ((List.range (s.ranksOf c)).filter fun k => !us.any fun p => decide (p.2.ranksel = rankCode pr k)).length

/-- B_c in units of 1/320 MB/s. -/
def State.chanBwNow (s : State) (c : Nat) : Nat :=
  chanBw (s.chan c).rate (s.ranksIn c) (s.ranksOf c) (s.chan c).hotRefresh

/-- The module that carries a channel's traffic (01 R10). -/
def State.carrier (s : State) (c : Nat) : Nat :=
  let m := homeModule c
  if (s.laceMod m).state = 4 then partner m else if (s.laceMod (partner m)).carryAll then partner m else m

/-- U in units of 1/1,280 MB/s. -/
def State.usableNow (s : State) : Nat :=
  usableOf ((List.range s.nModules).map fun m =>
    let l := s.laceMod m
    if l.state = 4 then 0
    else
      let b := (((List.range s.channels).filter fun c => s.carrier c = m).map s.chanBwNow).sum
      min b (moduleCap (moduleBw l.rate l.half))).sum

/-- Recomputes U after a change of its inputs; SCALE follows at the next interval boundary (R282). -/
def State.recomputeUsable (s : State) : State :=
  let u := s.usableNow
  s.mapReg fun r => { r with usable := u }

def masterCount : Nat := 39

/-- Σ G of the configured settings, in 62.5 MB/s; M_SAVE and M_RESTORE have none (R273). -/
def State.sumG4 (s : State) : Nat :=
  ((List.range masterCount).map fun n =>
    if n = mSave ∨ n = mRestore then 0 else guarantee4 (s.master n).minRead (s.master n).minWrite).sum

def State.effMinRead (s : State) (n : Nat) : Nat := effMin (s.master n).minRead s.reg.scale
def State.effMinWrite (s : State) (n : Nat) : Nat := effMin (s.master n).minWrite s.reg.scale
def State.effG4 (s : State) (n : Nat) : Nat :=
  if n = mSave ∨ n = mRestore then 0 else guarantee4 (s.effMinRead n) (s.effMinWrite n)

/-- BUDGET in force in bytes per interval of 1 µs; M_RESTORE has RESTORE_PCT of U (R273); 0 is no ceiling. -/
def State.budgetBytes (s : State) (n : Nat) : Nat :=
  if n = mSave then 0
  else if n = mRestore then s.resume.restorePct * s.reg.usable / 128000
  else (s.master n).budget * 250

/-- The interval charge lies below the guarantee: G × 1 µs in bytes is effG4 × 62.5 (R278). -/
def State.withinGuarantee (s : State) (n : Nat) : Bool := decide (2 * (s.master n).interval < 125 * s.effG4 n)

/-! ### Charge (R276, R278) -/

/-- Adds a charge to a master at issue; bytes, of which the register shows units of 64 B (R287). -/
def State.charge (s : State) (n bytes : Nat) : State :=
  let b := s.budgetBytes n
  s.updMaster n fun m =>
    let i := m.interval + bytes
    { m with interval := i, charge := m.charge + bytes, overBudget := m.overBudget || (decide (b > 0) && decide (i > b)) }

/-! ### The arbiter (R279, R280) -/

def Master.held (m : Master) : Bool := m.holdRow || m.holdSoft

/-- Urgent tier requests: M_TIER with the rt mark (03 R71). -/
def ChanReq.urgent (r : ChanReq) : Bool := decide (r.master.val = mTier) && r.rt

def State.classOf (s : State) (r : ChanReq) : Nat :=
  let m := s.master r.master.val
  if r.master.val = mSave ∨ r.urgent then 1
  else if m.rt ∧ !m.overBudget ∧ !m.held then 1
  else if s.withinGuarantee r.master.val ∨ r.aged then 2
  else if !m.overBudget then 3
  else 4

/-- The priority a request carries now (R280). -/
def State.effPriority (s : State) (r : ChanReq) : Fin 8 :=
  let m := s.master r.master.val
  if (m.overBudget ∨ m.held) ∧ s.classOf r ≠ 1 then 0 else m.priority

/-- New messages of a channel may be sent: no handover of its module is under way, and its module is not about to return (08 R206, R207). -/
def State.chanOpen (s : State) (ch : Nat) : Bool :=
  let h := s.laceMod (homeModule ch)
  !h.returning && (decide (h.state ≠ 4) || (s.laceMod (partner (homeModule ch))).carryAll)

/-- The module whose queue takes a channel's message: its own, down as it is, while a handover or a return is under way (its queue moves with them). -/
def State.route (s : State) (ch : Nat) : Nat := if s.chanOpen ch then s.carrier ch else homeModule ch

/-- A request may be issued: its master is below OUTSTANDING, and the Lace module that carries its channel is UP with REQ credit
and replay space (R279; 08 R193, R197). -/
def State.canIssue (s : State) (r : ChanReq) : Bool :=
  let m := s.master r.master.val
  let l := s.laceMod (s.carrier (channelOf s.w r.frame.toNat))
  (decide (m.outstanding = 0) || decide (m.inflight < m.outstanding)) && decide (l.state = 2)
    && s.chanOpen (channelOf s.w r.frame.toNat) && decide (l.hub.freeOf .req ≥ 1) && decide (l.hub.replay.length < 511)

/-- The round-robin pointer that a request of class 3 or 4 meets: one for each priority of class 3, and one for class 4. -/
def State.rrSlot (s : State) (r : ChanReq) : Nat := if s.classOf r = 3 then (s.effPriority r).val else 8

/-- How many masters a master stands behind the one served last; master 0 is first at reset (DESIGN CHOICE, log 2). -/
def State.rrRank (s : State) (r : ChanReq) : Nat := (r.master.val + 38 - Tab.get (fun _ => 38) s.reg.rr (s.rrSlot r)) % masterCount

/-- First by class, then by effective priority (classes 2 and 3), then by round-robin among masters (classes 3 and 4), then oldest. -/
def State.nextIssue (s : State) : Option ChanReq :=
  let key (r : ChanReq) : Nat :=
    let c := s.classOf r
    400 * c + (if c = 2 ∨ c = 3 then 40 * (7 - (s.effPriority r).val) else 0) + (if c = 3 ∨ c = 4 then s.rrRank r else 0)
  (s.reg.arbiter.filter s.canIssue).foldl (fun best r =>
    match best with
    | none => some r
    | some b => if key r < key b then some r else some b) none

/-- Issue of a request: charge, in-flight count, priority, and its READ or WRITE on Lace. -/
def State.issue (s : State) (r : ChanReq) : State :=
  let c := channelOf s.w r.frame.toNat
  let n := r.master.val
  let turn := s.rrSlot r
  let s := if s.classOf r = 3 ∨ s.classOf r = 4 then s.mapReg fun x => { x with rr := Tab.set (fun _ => 38) turn n x.rr } else s
  let s := s.charge n (if r.write then chargeDeltaWrite else chargeRead r.count)
  let s := s.updMaster n fun m => { m with inflight := m.inflight + 1 }
  let cls := s.classOf r
  let m := s.master n
  let r := { r with rt := decide (cls = 1), priority := if (m.overBudget ∨ m.held) ∧ cls ≠ 1 then 0 else m.priority }
  let s := s.mapReg fun x => { x with arbiter := x.arbiter.filter fun q => q.tag ≠ r.tag ∨ q.line ≠ r.line }
  (s.post (s.carrier c) .hub (readMsg c r)).emit (.chanReq (Fin.ofNat 12 c) r)

/-- The arbiter leaves no cycle idle while a ready request and a credit exist. -/
def State.arbitrate : Nat → State → State
  | 0, s => s
  | fuel + 1, s =>
    match s.nextIssue with
    | some r => State.arbitrate fuel (s.issue r)
    | none => s

def State.enterArbiter (s : State) (r : ChanReq) : State :=
  let s := s.mapReg fun x => { x with arbiter := x.arbiter ++ [r] }
  State.arbitrate s.reg.arbiter.length s

/-- Completion of one of a master's requests. -/
def State.completeOne (s : State) (n : Nat) : State :=
  let s := s.updMaster n fun m => { m with inflight := m.inflight - 1 }
  State.arbitrate s.reg.arbiter.length s

/-! ### Device load (R284, R285) -/

/-- A write of the LD is held under 09 R222. -/
def State.windowHeld (s : State) (ld : Nat) : Bool := s.path.reqs.any fun r => decide (r.ld.val = ld) && decide (r.phase = .window)

/-- A ≥ pct: the charge of the previous interval against U × 1 µs. -/
def State.loadAtLeast (s : State) (pct : Nat) : Bool :=
  decide (s.reg.usable > 0) && decide (s.reg.lastTotal * 128000 ≥ pct * s.reg.usable)

/-- Set QoS Control of an LD at reset: both enables set (DESIGN CHOICE, log 33). -/
def teleDefault (_ : Nat) : Byte := 3

def State.devLoad (s : State) (ld : Nat) : Fin 4 :=
  let m := s.master ld
  if Tab.get teleDefault s.reg.telemetry ld &&& 3 = 0 then 0
  else if m.overBudget ∨ s.windowHeld ld then 3
  else if m.held ∨ (s.loadAtLeast s.reg.moderatePct ∧ 2 * m.interval > 125 * s.effG4 ld) then 2
  else if s.loadAtLeast s.reg.optimalPct then 1
  else 0

/-- A response counts when it carries Severe Overload. -/
def State.respond (s : State) (ld : Nat) (o : Fin 4 → Output) : State :=
  let d := s.devLoad ld
  let s := if d = 3 then s.countReg 5 else s
  s.emit (o d)

/-- A data response; poison data is a free value. -/
def State.respondData (s : State) (ld : Fin 32) (tag : BitVec 13) (x : Option Line) : State :=
  let s := s.pmCxl 0x25 0 ld.val
  match x with
  | some d => s.respond ld.val (.s2mData ld tag d false)
  | none =>
    let (n, s) := s.draw
    s.respond ld.val (.s2mData ld tag (Config.freeLine n) true)

/-- A completion of a write. -/
def State.respondDone (s : State) (ld : Fin 32) (tag : BitVec 13) : State := (s.pmCxl 0x24 0 ld.val).respond ld.val (.s2mNdr ld tag)

/-! ### Requests in the tracker: how they end (01 R13, R18; 17 R415) -/

/-- The M2S opcode of a request (CXL 3.1: MemRd 1, MemWr 1, MemWrPtl 2; PRESUMED, log 160). -/
def Req.opcode (r : Req) : Nat := if r.write.isSome ∧ r.be ≠ BitVec.allOnes 64 then 2 else 1

/-- Stage times that add up to a total: each stage that counts takes a share that is open, the last one the rest. -/
def splitStages (share : Nat → Nat) : List Bool → Nat → List Nat
  | [], _ => []
  | [_], rest => [rest]
  | b :: bs, rest =>
    let n := if b then share bs.length % (rest + 1) else 0
    n :: splitStages share bs (rest - n)

/-- The stages PORT_IN to PORT_OUT; those of a write from ARBITER to DECODE are zero (17 R415). -/
def stagesOf (write : Bool) : List Bool :=
  if write then [true, true, false, false, false, false, false, false, false, true] else List.replicate 10 true

/-- A sample record (17 Table — Sample record). The time from acceptance to the response is the model's; how it divides among the stages is open (DESIGN
CHOICE, log 117). -/
def State.sampleBytes (s : State) (x : Sample) (r : Req) (flags draw : Nat) : List Byte :=
  let total := s.time - x.time
  leNat 1 r.opcode ++ leNat 1 flags ++ leNat 1 r.ld.val ++ leNat 1 r.head.val ++ leBytes 4 x.seq ++ leNat 8 x.time ++ leBytes 8 x.hpa
    ++ leNat 8 (r.dpn.toNat * 4096 + r.line.val * 64)
    ++ (splitStages (Config.stageShare draw) (stagesOf r.write.isSome) total).flatMap (fun t => leNat 2 (min t 65535))
    ++ leNat 2 (min total 65535) ++ zeros 10

/-- Writes a sample record at the tail of its ring, or drops it. -/
def State.writeSample (s : State) (r : Req) (poison bufferHit : Bool) : State :=
  match r.smp with
  | none => s
  | some x =>
    let f := s.perfFn x.fn
    let log2 := Tab.get (fun _ => 4) f.sampLog2 x.port
    let tail := Tab.get (fun _ => 0) f.sampTail x.port
    if ringFull log2 (Tab.get (fun _ => 0) f.sampHead x.port) tail then
      s.updPerfFn x.fn fun f =>
        { f with sampDropped := Tab.set (fun _ => 0) x.port (min (Tab.get (fun _ => 0) f.sampDropped x.port + 1) 0xFFFFFFFF) f.sampDropped }
    else
      let flags := x.state + (if x.hit then 8 else 0) + (if x.rebuilt then 16 else 0) + (if r.write.isSome then 32 else 0)
        + (if poison then 64 else 0) + (if bufferHit then 128 else 0)
      let (n, s) := s.draw
      let addr := (Tab.get (fun _ => 0) f.sampBase x.port : W64).toNat + 64 * (tail % 2 ^ log2)
      (s.emit (.dma x.fn none addr (s.sampleBytes x r flags n))).updPerfFn
        x.fn fun f => { f with sampTail := Tab.set (fun _ => 0) x.port (nextIdx log2 tail) f.sampTail }

def State.req (s : State) (tag : BitVec 13) : Option Req := s.path.reqs.find? fun r => decide (r.tag = tag)

def State.updReq (s : State) (tag : BitVec 13) (f : Req → Req) : State :=
  s.mapPath fun p => { p with reqs := replaceFirst (fun r => decide (r.tag = tag)) f p.reqs }

def State.dropReq (s : State) (tag : BitVec 13) : State :=
  s.mapPath fun p => { p with reqs := p.reqs.filter fun r => decide (r.tag ≠ tag) }

def State.setPhase (s : State) (tag : BitVec 13) (p : Phase) : State := s.updReq tag fun r => { r with phase := p }

/-- A read ends: response, sample record, tag freed. -/
def State.finishRead (s : State) (r : Req) (x : Option Line) (bufferHit : Bool) : State :=
  let p := portOfLd r.ld.val
  let s := if x.isNone then s.pmPort p 4 r.ld.val else s
  let s := if bufferHit then s.pmPort p 6 r.ld.val else s
  ((s.respondData r.ld r.tag x).writeSample r x.isNone bufferHit).dropReq r.tag

/-- A write ends: completion, sample record, tag freed. -/
def State.finishWrite (s : State) (r : Req) : State := ((s.respondDone r.ld r.tag).writeSample r false false).dropReq r.tag

/-- A request that fails ends with poison for a read; a write is completed and discarded (R13, R26, R34, R108). -/
def State.failReq (s : State) (r : Req) : State := if r.write.isSome then s.finishWrite r else s.finishRead r none false

end Sys2Proof.Machine
end

