-- ==== Sys2Proof/Machine/L2.lean ====
section
/-! DEFINITION. The L2 that both worlds share (15 R371): which lines of internal memory it holds, in which ways, and what leaves it. What the lines hold is
not in the state (log 87). Its line of 64 bytes is PRESUMED, and so 8,192 sets of 16 ways; the set of a line and the victim are free values (log 128). -/

namespace Sys2Proof.Machine

/-- Pages of the internal SRAM come first, then those of the internal DRAM region (DESIGN CHOICE, log 86). -/
def internalPages : Nat := 4096 + 1048576

/-- The ways that hold the lines of a page: 12 to 15 for a SECURE page, 0 to 11 for any other. -/
def l2Ways (o : PageOwner) : List Nat := if o = .secure then [12, 13, 14, 15] else List.range 12

/-- Key of a way of a line's set. -/
def l2Key (page line way : Nat) : Nat := Config.l2Set page line % 8192 * 16 + way

def State.l2Line (s : State) (k : Nat) : Option L2Line := Tab.get (fun _ => none) s.world.l2 k

def State.setL2 (s : State) (k : Nat) (v : Option L2Line) : State := s.mapWorld fun w => { w with l2 := Tab.set (fun _ => none) k v w.l2 }

/-- A transfer of one line between the L2 and internal memory; one of the DRAM region is charged to M_FW (R365). -/
def State.l2Charge (s : State) (page : Nat) (write : Bool) : State :=
  if page < 4096 then s else s.charge mFw (if write then chargeDeltaWrite else chargeRead 1)

/-- A line leaves the L2, written back or not. -/
def State.l2Drop (s : State) (writeBack : Bool) (k : Nat) : State :=
  match s.l2Line k with
  | none => s
  | some x => if writeBack ∧ x.dirty then (s.l2Charge x.page.toNat true).setL2 k none else s.setL2 k none

/-- Lines that a test names leave. -/
def State.l2Clear (s : State) (writeBack : Bool) (p : Nat → L2Line → Bool) : State :=
  (s.world.l2.filter fun q => match q.2 with | some x => p q.1 x | none => false).foldl (fun s q => s.l2Drop writeBack q.1) s

/-- The lines of a page. -/
def State.l2Page (s : State) (page : BitVec 21) : State := s.l2Clear true fun _ x => decide (x.page = page)

/-- A secure-world restart invalidates ways 12 to 15 without writing them back. -/
def State.l2SecureOut (s : State) : State := s.l2Clear false fun k _ => decide (k % 16 ≥ 12)

/-- A normal-world restart writes ways 0 to 11 back and invalidates them. -/
def State.l2NormalOut (s : State) : State := s.l2Clear true fun k _ => decide (k % 16 < 12)

/-- The way that a new line takes: an empty one of its ways, the lowest-numbered, else a victim that a free value names. -/
def State.l2Room (s : State) (page : BitVec 21) (line : Fin 64) (ways : List Nat) : Nat × State :=
  match ways.find? fun w => (s.l2Line (l2Key page.toNat line.val w)).isNone with
  | some w => (l2Key page.toNat line.val w, s)
  | none =>
    let (n, s) := s.draw
    let k := l2Key page.toNat line.val (ways.getD ((Config.freeWord n).toNat % ways.length) 0)
    (k, s.l2Drop true k)

/-- A core's access to a line of internal memory through the L2. -/
def State.l2Access (s : State) (page : BitVec 21) (line : Fin 64) (write : Bool) : State :=
  let ways := l2Ways (s.pageOwner page.toNat)
  match (ways.map (l2Key page.toNat line.val)).find? fun k => (s.l2Line k).any fun x => decide (x.page = page) && decide (x.line = line) with
  | some k => if write then s.setL2 k (some { page, line, dirty := true }) else s
  | none =>
    let (k, s) := s.l2Room page line ways
    (s.l2Charge page.toNat false).setL2 k (some { page, line, dirty := write })

end Sys2Proof.Machine
end

