-- ==== Sys2Proof/Machine/Units.lean ====
section
/-! DEFINITION. Units that leave service: codec engines (04 R94), cores (15 R366), ranks and channels (06 R150 to R156), Lace
modules (08 R205, R206), and the fences by escalation of the event fabric (16 R392). -/

namespace Sys2Proof.Machine

/-! ### Armed injections (16 R400, R401) -/

def State.injs (s : State) : List (Nat × Injection) := s.fault.awl.filterMap fun p => p.2.map fun x => (p.1, x)

def Injection.tag (x : Injection) : W32 × Bool := (x.number, x.d.flags.getLsbD 0)

/-- An application of an injection counts in AWL_STATUS.APPLIED. -/
def State.countApplied (s : State) : State := s.mapFault fun f => { f with awlApplied := f.awlApplied + 1 }

/-- The application of an injection that waited for its item: it is disarmed when it was the last. -/
def State.spendInj (s : State) (n : Nat) (x : Injection) : State :=
  (s.setInj n (if x.left = 0 then none else some { x with due := false })).countApplied

/-! ### Codec engines (04 R94): 0 to 7 compressors, 8 to 23 decompressors, 24 and 25 deep engines -/

def State.engineFenced (s : State) (n : Nat) : Bool := s.codec.fenced.getLsbD n

def engineKind (n : Nat) : Nat := if n < 8 then 0 else if n < 24 then 1 else 2

def enginesOf (kind : Nat) : List Nat := (List.range 26).filter fun n => engineKind n = kind

def State.allFenced (s : State) (kind : Nat) : Bool := (enginesOf kind).all s.engineFenced

/-- The engine kind of a user. -/
def CodecUser.kind : CodecUser → Nat
  | .urgentDemotion | .demotion => 0
  | .hostRead _ | .writePromotion | .promotion => 1
  | .harden _ _ | .compressOut _ _ => 2

/-- The row of a user in its column of Table — Engine priority. -/
def CodecUser.order : CodecUser → Nat
  | .hostRead _ | .writePromotion | .harden _ _ => 1
  | .urgentDemotion | .compressOut _ _ => 2
  | .promotion => 3
  | .demotion => 4

/-- A descriptor is in execution. -/
def State.execRuns (s : State) (q : BitVec 20) (id : W16) : Bool :=
  match s.ctx q.toNat with
  | some c => c.execs.any fun x => decide (x.id = id) && x.started && x.finished.isNone
  | none => false

/-- What a job was issued for still stands. -/
def State.jobLives (s : State) (j : CodecJob) : Bool :=
  match j.user with
  | .hostRead tag => match s.req tag with | some r => decide (r.phase = .decode) | none => false
  | .harden q id | .compressOut q id => s.execRuns q id
  | .urgentDemotion | .demotion | .writePromotion | .promotion =>
    match s.trackerOf j.dpn with | some (_, t) => !t.flipped | none => false

/-- Jobs on an engine that a test names. -/
def State.jobsRunning (s : State) (p : CodecJob → Bool) : Nat := (s.codec.jobs.filter fun j => j.engine.isSome && p j).length

/-- An engine in service that no job holds. -/
def State.engineIdle (s : State) (n : Nat) : Bool :=
  !s.engineFenced n && !s.codec.jobs.any fun j => decide (j.engine.map (·.val) = some n)

/-- The lowest-numbered free engine of a kind; which of several free ones is taken is the hardware's: DESIGN CHOICE, log 36. -/
def State.idleEngine (s : State) (kind : Nat) : Option Nat := (enginesOf kind).find? s.engineIdle

/-- A free engine for a job: another than the one it avoids, unless no other of the kind is in service (log 36). -/
def State.engineFor (s : State) (j : CodecJob) : Option Nat :=
  let other (n : Nat) : Bool := decide (j.avoid.map (·.val) ≠ some n)
  match (enginesOf j.user.kind).find? fun n => s.engineIdle n && other n with
  | some n => some n
  | none => if (enginesOf j.user.kind).any fun n => !s.engineFenced n && other n then none else s.idleEngine j.user.kind

/-- The limits of R72 and 18 R425: background demotions hold at most 4 compressors, 2 under the thermal measures; background promotions at most 4
decompressors while host reads wait for one; the deep engines stop under the thermal measures. -/
def State.jobMay (s : State) (j : CodecJob) : Bool :=
  match j.user with
  | .demotion => decide (s.jobsRunning (fun x => decide (x.user = .demotion)) < if s.power.throttle then 2 else 4)
  | .promotion => decide (s.jobsRunning (fun x => decide (x.user = .promotion)) < 4) ||
      !s.codec.jobs.any fun x => x.engine.isNone && (match x.user with | .hostRead _ => true | _ => false)
  | .harden _ _ | .compressOut _ _ => !s.power.throttle
  | _ => true

/-- The waiting job that takes the next free engine of a kind: the first row of Table — Engine priority, then the one that came first. -/
def State.nextJob (s : State) (kind : Nat) : Option CodecJob :=
  (s.codec.jobs.filter fun j => j.engine.isNone && decide (j.user.kind = kind) && s.jobMay j && (s.engineFor j).isSome).foldl
    (fun best j => match best with
      | none => some j
      | some b => if j.user.order < b.user.order then some j else some b) none

/-- Gives a job an engine, whose buffers are wiped of another OWNER or KEY_ID first (R93). -/
def State.giveEngine (s : State) (kind : Nat) : State :=
  match s.nextJob kind with
  | none => s
  | some j =>
    match s.engineFor j with
    | none => s
    | some n => s.mapCodec fun c =>
        { c with jobs := replaceFirst (fun x => decide (x = j)) (fun x => { x with engine := some (Fin.ofNat 26 n), since := c.starts }) c.jobs
                 starts := c.starts + 1, holds := Tab.set (fun _ => none) n (some (j.owner, j.key)) c.holds }

/-- Free engines go to waiting jobs (R87); jobs whose purpose has gone leave. -/
def State.giveEngines (s : State) : State :=
  let s := s.mapCodec fun c => { c with jobs := c.jobs.filter s.jobLives }
  s.codec.jobs.foldl (fun s j => s.giveEngine j.user.kind) s

/-- A new job at the end of its queue. -/
def State.startJob (s : State) (user : CodecUser) (dpn : Dpn) (chunk : Nat) (owner key : BitVec 12) (avoid : Option (Fin 26) := none) : State :=
  (s.mapCodec fun c => { c with jobs := c.jobs ++ [{ user, engine := none, since := 0, generation := 0, avoid, dpn, chunk, owner, key }] }).giveEngines

/-- The jobs that a test names end, and their engines are free. -/
def State.endJobs (s : State) (p : CodecJob → Bool) : State :=
  (s.mapCodec fun c => { c with jobs := c.jobs.filter fun j => !p j }).giveEngines

/-- The job that a test names holds the engine (R93: an engine delivers a result only to the job that issued it). -/
def State.jobOn (s : State) (n : Nat) (p : CodecJob → Bool) : Bool :=
  s.codec.jobs.any fun j => decide (j.engine.map (·.val) = some n) && p j

/-- The old result of a job that a fence took from its engine (R94). -/
def State.lateOn (s : State) (n : Nat) (p : CodecJob → Bool) : Option CodecJob :=
  s.codec.late.find? fun j => decide (j.engine.map (·.val) = some n) && p j

/-- A late result is dropped and counted. -/
def State.dropLate (s : State) (j : CodecJob) : State := (s.mapCodec fun c => { c with late := c.late.erase j }).countCodec 6

/-- Fences an engine: its job goes back to its place among the waiting ones with its generation incremented, and takes another engine. -/
def State.fenceEngine (s : State) (n : Nat) : State :=
  if s.engineFenced n then s
  else
    let on (j : CodecJob) : Bool := decide (j.engine.map (·.val) = some n)
    let s := s.mapCodec fun c =>
      { c with fenced := c.fenced ||| (1#26 <<< n), late := c.late ++ c.jobs.filter on
               jobs := c.jobs.map fun j => if on j then { j with engine := none, generation := j.generation + 1 } else j }
    let s := fire 542 s.giveEngines
    if engineKind n = 1 ∧ s.allFenced 1 then raise { Ev.of 543 with cls := some .fatal } s
    else if engineKind n = 0 ∧ s.allFenced 0 then raise { Ev.of 543 with cls := some .severe } s
    else s

/-! ### Cores (15 R366): 0 to 5 normal, 6 and 7 secure -/

def worldCores (secure : Bool) : List Nat := if secure then [6, 7] else [0, 1, 2, 3, 4, 5]

def State.coresUp (s : State) (secure : Bool) : Nat := ((worldCores secure).filter fun n => !(s.core n).1).length

/-- A secured session ends: its slot is free. -/
def State.endSessions (s : State) : State := s.mapWorld fun w => { w with sessions := [] }

/-- Steps 1 and 2 of R376: SRC_HUB_SECURE_RESTART for causes 1 to 3 (R379), every session ended. -/
def State.secureRestart (s : State) (cause : Nat) : State :=
  if s.world.secure = .down then s
  else
    let s := s.mapWorld fun w =>
      { w with secure := .restarting, cause, faultTimes := if cause ≤ 3 then s.time :: w.faultTimes else w.faultTimes }
    let s := s.l2SecureOut.endSessions
    if cause ≤ 3 then fire 3 s else s

/-- While the normal world restarts, the secure world supplies the heartbeat (R375). -/
def State.supplyHeartbeat (s : State) : State :=
  if s.world.normal = .restarting ∧ s.world.secure = .up then s.mapFault fun f => { f with heartbeat := true } else s

/-- A normal-world recovery restart begins (R382). -/
def State.normalRestart (s : State) : State :=
  if s.world.normal = .down then s
  else fire 5 (s.l2NormalOut.mapWorld fun w => { w with normal := .restarting, normalRestarts := w.normalRestarts + 1, recovery := true }).supplyHeartbeat

/-- The secure world is down (R380). -/
def State.secureDown (s : State) : State := fire 4 (s.mapWorld fun w => { w with secure := .down })

/-- Fences a core; a world that loses its last core is down, else it takes a recovery restart (R366). -/
def State.fenceCore (s : State) (n : Nat) : State :=
  if (s.core n).1 then s
  else
    let secure := decide (n ≥ 6)
    let s := s.setCore n (true, (s.core n).2.1, (s.core n).2.2)
    let left := s.coresUp secure
    let s := raise { Ev.of 7 with cls := some (if left ≤ 1 then .severe else .degrade) } s
    if left = 0 then
      if secure then s.secureDown else s.mapWorld fun w => { w with normal := .down }
    else if secure then s.secureRestart 3 else s.normalRestart

/-! ### Ranks and channels (06) -/

/-! ### Spare frames (R152, R154) -/

/-- Spare ordinals that hold a member. -/
def State.memberSpares (s : State) : List Nat :=
  (s.unitsOut.flatMap fun p => p.2.map.filterMap fun e => match e.2 with | some (.spared o) => some o | _ => none)
    ++ s.welt.exceptions.filterMap (·.2)

/-- Spare ordinals in use: for members, for the copies of the unit maps and for that of the exception table (R146, R151, R161). -/
def State.usedSpares (s : State) : List Nat := s.memberSpares ++ (s.unitsOut.flatMap fun p => p.2.copies) ++ s.welt.mirror

/-- Groups that hold two members on one channel: those with a member in a spare frame (R154). -/
def State.doubledGroups (s : State) : List Nat :=
  ((s.unitsOut.flatMap fun p => p.2.map.filterMap fun e => match e.2 with | some (.spared _) => some e.1 | _ => none)
    ++ s.welt.exceptions.filterMap fun p => p.2.map fun _ => groupOf s.w p.1.toNat).eraseDups

def State.spareOk (s : State) (o : Nat) : Bool :=
  decide (o < s.welt.spareFrames) && !s.usedSpares.contains o && decide ((s.frameRec (s.spareFrame o)).kind ≠ .retired)
    && (s.unitOfFrame (s.spareFrame o)).isNone

/-- The ordinal of the spare frame of a channel in a spare group; none in the unused parity position. -/
def State.spareAt (s : State) (g c : Nat) : Option Nat :=
  if g % s.w = c then none else some (dataIndex s.w (g * s.w + c) - s.poolGroups * (s.w - 1))

/-- The lowest free spare frame of a channel from a group on. -/
def State.spareOn (s : State) (c : Nat) : Nat → Nat → Option Nat
  | 0, _ => none
  | fuel + 1, g =>
    match s.spareAt g c with
    | some o => if s.spareOk o then some o else s.spareOn c fuel (g + 1)
    | none => s.spareOn c fuel (g + 1)

/-- The spare for a member on channel c of group g: channels in service in order from (c + 1 + (g mod (W − 1))) mod W; a channel
with none left is passed over (DEDUCED, log 41). -/
def State.pickSpare (s : State) (g c : Nat) : Option Nat :=
  let order := (List.range s.w).map fun i => (c + 1 + g % (s.w - 1) + i) % s.w
  let order := order.filter fun x => !(s.unitsOut.any fun p => decide (p.2.channel.val = x) && p.2.wholeChannel)
  order.findSome? fun x => s.spareOn x (s.welt.spareFrames / (s.w - 1)) s.poolGroups

/-- The frames that one copy of a unit map fills, 32 bits a group (R151), and those of the exception table's, taken as 8 bytes an entry (log 24). -/
def State.mapFrames (s : State) : Nat := ceilDiv (4 * s.groups) 4096
def exceptionFrames : Nat := ceilDiv (8 * Config.exceptionMax) 4096

/-- The first n free spare frames of a channel; none when it has fewer. -/
def State.sparesOn (s : State) (c n : Nat) : Option (List Nat) :=
  let l := (((List.range (s.welt.spareFrames / (s.w - 1))).filterMap fun i => s.spareAt (s.poolGroups + i) c).filter s.spareOk).take n
  if l.length = n then some l else none

/-- Copies of a table in the reserve, each of n frames, on different channels in service: the lowest-numbered ones that have the room (DESIGN CHOICE,
log 24). -/
def State.pickCopies (s : State) (n copies : Nat) : List Nat := (((List.range s.w).filterMap fun c => s.sparesOn c n).take copies).flatten

/-- A frame of a copy that still stands. -/
def State.copyStands (s : State) (o : Nat) : Bool :=
  (s.unitOfFrame (s.spareFrame o)).isNone && decide ((s.frameRec (s.spareFrame o)).kind ≠ .retired)

/-- Places the copies of the unit maps in the slots and of the exception table that no longer stand (R146, R151). -/
def State.placeCopies (s : State) : State :=
  let s := (List.range 4).foldl (fun (s : State) n =>
    match s.unit n with
    | none => s
    | some u =>
      if u.copies.length = 2 * s.mapFrames ∧ u.copies.all s.copyStands then s
      else
        let s := s.setUnit n (some { u with copies := [] })
        s.setUnit n (some { u with copies := s.pickCopies s.mapFrames 2 })) s
  if s.welt.exceptions.isEmpty ∨ (s.welt.mirror.length = exceptionFrames ∧ s.welt.mirror.all s.copyStands) then s
  else
    let s := s.mapWelt fun w => { w with mirror := [] }
    s.mapWelt fun w => { w with mirror := s.pickCopies exceptionFrames 1 }

/-! ### A unit leaves and returns (R150 to R156) -/

/-- Number below `n` that meet a test of period `p`. -/
def countPeriodic (n p : Nat) (f : Nat → Bool) : Nat :=
  let c (k : Nat) : Nat := ((List.range k).filter f).length
  n / p * c p + c (n % p)

/-- A unit's scope: the whole channel or one package rank. -/
structure Scope where
  channel : Nat
  whole : Bool
  ranksel : BitVec 3
  deriving DecidableEq, Repr

def Scope.holds (x : Scope) (s : State) (f : Nat) : Bool :=
  decide (channelOf s.w f = x.channel) && (x.whole || decide ((s.placeOf f 0).rank3 = x.ranksel))

def UnitSlot.scope (u : UnitSlot) : Scope := { channel := u.channel.val, whole := u.wholeChannel, ranksel := u.ranksel }

/-- Period of the places of a channel's groups: parity every W, the bank and rank bits of 07 R167. -/
def State.placePeriod (s : State) (c : Nat) : Nat :=
  match (s.chan c).dimm with
  | some d => Nat.lcm s.w (32 * max 1 ((s.chan c).modules * dimmRanks d * dimmStack d))
  | none => s.w

/-- Free data frames of the pool on a unit. -/
def State.freeOn (s : State) (x : Scope) : Nat :=
  let g := min s.poolGroups s.resume.initGroups
  let frame (k : Nat) : Nat := k * s.w + x.channel
  let all := countPeriodic g (if x.whole then s.w else s.placePeriod x.channel) fun k =>
    !isParity s.w (frame k) && x.holds s (frame k)
  let used := (s.last.frames.filter fun p =>
    x.holds s p.1 && decide (groupOf s.w p.1 < g) && decide (p.2.kind ≠ .free)).length
  all - used

/-- Takes frames out of FREE_FRAMES, then out of the emergency bins. -/
def State.loseFree (s : State) (n : Nat) : State :=
  let a := min n s.tier.freeFrames
  (s.mapTier fun t => { t with freeFrames := t.freeFrames - a, emergencyBins := t.emergencyBins - (n - a) }).afterFree

/-- Members of a group that cannot be read. -/
def State.missingOf (s : State) (g : Nat) : List Nat :=
  ((List.range s.w).map fun c => g * s.w + c).filter fun f => decide (s.place f = .missing)

/-- Pages with storage in a frame become LOST (R155). -/
def State.loseFrame (s : State) (f : Nat) : State := (s.frameRec f).dpns.foldl (fun s d => s.toLost d) s

/-- A metadata group that has two members which cannot be read: looked for where members can still be unread, which is every
group that no unit map lists (R155). -/
def State.metaLost (s : State) : Bool :=
  let first := s.metaLow
  let listed := (s.unitsOut.map fun p => p.2.map.length).sum
  let span := min (s.groups - first) ((listed + 1) * s.placePeriod 0)
  (List.range span).any fun i => decide ((s.missingOf (first + i)).length ≥ 2)

/-- Runs of consecutive page numbers: first page, pages. -/
def dpnRuns (ds : List Nat) : List (Nat × Nat) :=
  ((sortBy (fun a b => decide (a < b)) ds.eraseDups).foldl (fun (acc : List (Nat × Nat)) d => match acc with
    | (a, n) :: r => if a + n = d then (a, n + 1) :: r else (d, 1) :: acc
    | [] => [(d, 1)]) []).reverse

/-- The DPN ranges that become LOST, as Insole records of KIND LOSS_RANGE (R155 names the ranges and no KIND: DEDUCED, log 157). -/
def recordRanges (l : List (Nat × Nat)) (s : State) : State := l.foldl (fun s r => insoleOther .lossRange [r.1, r.2, 0] none s) s

/-- The losses of R155 after a unit has left: data frames in groups with two members unread. -/
def State.dataLoss (s : State) : State :=
  let frames := (s.last.frames.filter fun p =>
    decide (p.2.kind = .hot ∨ p.2.kind = .bin) && decide (s.place p.1 = .missing)
      && decide ((s.missingOf (groupOf s.w p.1)).length ≥ 2)).map (·.1)
  let pages := frames.flatMap fun f => (s.frameRec f).dpns
  let s := frames.foldl State.loseFrame s
  let s := if pages.isEmpty then s else recordRanges (dpnRuns (pages.map (·.toNat))) (raise { Ev.of 75 with detail := [(pages.headD 0).toNat * 4096] } s)
  if s.unitsOut.length ≥ 2 ∧ s.metaLost then fire 66 s else s

/-- SPD identities of a channel's slots, for the unit record (R460). -/
def State.dimmId (s : State) (c slot : Nat) : W64 :=
  match Tab.get (fun _ => none) (s.chan c).dimms slot with
  | some d => d.id
  | none => 0

def State.recordUnit (s : State) (x : Scope) (cause : Fin 3) : State :=
  let r : UnitRecord :=
    { channel := Fin.ofNat 12 x.channel, wholeChannel := x.whole, ranksel := x.ranksel, cause
      dimm0 := s.dimmId x.channel 0, dimm1 := s.dimmId x.channel 1 }
  let other (q : UnitRecord) : Bool := decide (q.channel ≠ r.channel ∨ (q.ranksel ≠ r.ranksel ∧ !x.whole))
  s.mapWelt fun w => { w with records := w.records.filter other ++ [r] }

def State.forgetUnit (s : State) (x : Scope) : State :=
  let other (q : UnitRecord) : Bool := decide (q.channel.val ≠ x.channel ∨ (q.ranksel ≠ x.ranksel ∧ !x.whole))
  s.mapWelt fun w => { w with records := w.records.filter other }

/-- Free slot of the four, or a place beyond them for a failed unit that finds none (R155). -/
def State.unitIndex (s : State) (failed : Bool) : Option Nat :=
  ((List.range 4).find? fun n => (s.unit n).isNone).orElse fun _ =>
    if failed then (List.range 36).map (4 + ·) |>.find? fun n => (s.unit n).isNone else none

/-- The unit that covers a scope. -/
def State.unitFor (s : State) (x : Scope) : Option (Nat × UnitSlot) :=
  s.unitsOut.find? fun p => decide (p.2.channel.val = x.channel) && (p.2.wholeChannel || (!x.whole && decide (p.2.ranksel = x.ranksel)))

/-- Event 72 with the class of its cause: SEVERE on a failure, INFO for service or repair (R150). -/
def unitOutEvent (x : Scope) (cause : Fin 3) (inj : Option (W32 × Bool)) : Ev :=
  { Ev.of 72 with cls := some (if cause = 0 then .severe else .info), detail := [0, 0, 0, x.channel, x.ranksel.toNat, 0, 0, 0], inj }

/-- A failed unit beyond the four slots takes one that has become free (R155). -/
def State.takeFreeSlot (s : State) : State :=
  match (List.range 4).find? fun n => (s.unit n).isNone, s.unitsOut.find? fun p => decide (p.1 ≥ 4) with
  | some n, some (k, u) => (s.setUnit k none).setUnit n (some u)
  | _, _ => s

/-- A temporary or a rejoining unit meets a cause of R150: it becomes a failed unit (R151), the free frames that a rejoin had given back leave the pool
again, and a row under repair is HARD again (R145). -/
def State.unitFails (s : State) (n : Nat) (u : UnitSlot) (inj : Option (W32 × Bool)) : State :=
  let f (m : Option Member) : Option Member := match m with | some .current => some .stale | m => m
  let frame (g : Nat) : Nat := g * s.w + u.channel.val
  let back := if u.state ≠ 5 then 0 else ((List.range (min u.progress s.poolGroups)).filter fun g =>
    u.scope.holds s (frame g) && s.poolFree (frame g)).length
  let s := s.setUnit n (some { u with cause := 0, base := .stale, map := u.map.map fun p => (p.1, f p.2), state := 0, progress := 0, repair := none })
  let s := s.loseFree back
  let s := match u.repair with
    | some k => if (s.row k).state = RowState.repaired ∨ (s.row k).state = RowState.hard then s.setRow k { s.row k with state := .hard } else s
    | none => s
  -- a frequency change under way is abandoned
  let s := s.updChan u.channel.val fun c => { c with pendingRate := none }
  raise (unitOutEvent u.scope 0 inj) ((s.recordUnit u.scope 0).recomputeUsable).dataLoss

/-- A unit leaves service (R150, R151, R153, R155): CAUSE 0 failure, 1 service, 2 repair or another temporary cause. -/
def State.unitOut (s : State) (x : Scope) (cause : Fin 3) (inj : Option (W32 × Bool)) : State :=
  match s.unitFor x with
  | some (n, u) => if cause = 0 ∧ (u.cause = 2 ∨ u.state = 5) then s.unitFails n u inj else s
  | none =>
    match s.unitIndex (cause = 0) with
    | none => s
    | some n =>
      -- a channel that leaves as a whole takes over the rank units that were out on it
      let ranks := s.unitsOut.filter fun p => decide (p.2.channel.val = x.channel) && x.whole
      let lost := s.freeOn x
      let old := ranks.flatMap fun p => p.2.map.filter fun e => match e.2 with | some (.spared _) => true | _ => false
      let s := ranks.foldl (fun s p => s.setUnit p.1 none) s
      let n := match ranks with | [] => n | p :: _ => p.1
      let u : UnitSlot :=
        { channel := Fin.ofNat 12 x.channel, wholeChannel := x.whole, ranksel := if x.whole then 0 else x.ranksel, cause
          state := 0, progress := 0, exhausted := false, base := if cause = 2 then .current else .stale, map := old }
      let s := ((s.setUnit n (some u)).takeFreeSlot.loseFree lost).placeCopies
      let s := if x.whole then s.updChan x.channel fun c => { c with state := 1 } else s
      raise (unitOutEvent x cause inj) ((s.recordUnit x cause).recomputeUsable).dataLoss

/-- A unit is back in service: its slot and its record are free. -/
def State.unitIn (s : State) (n : Nat) (u : UnitSlot) : State :=
  let s := ((s.setUnit n none).takeFreeSlot.placeCopies).forgetUnit u.scope
  let s := if u.wholeChannel then s.mapWelt fun w => { w with rebalance := some u.channel } else s
  (s.updChan u.channel.val fun c => { c with state := 0 }).recomputeUsable

/-- Groups of the metadata region and the shadow queue area, the highest of the device. -/
def State.metaCount (s : State) : Nat := s.gMeta + Config.queueGroups

/-- Steps of a rebuild before its data frames: metadata groups, then the channel's parity groups (R153). -/
def State.rebuildPrelude (s : State) : Nat := s.metaCount + ceilDiv s.groups s.w

/-- A data frame in use on a unit that still cannot be read. -/
def State.nextStale (s : State) (x : Scope) : Option Nat :=
  (s.last.frames.find? fun p => (decide (p.2.kind = .hot) || decide (p.2.kind = .bin)) && x.holds s p.1
    && decide (s.place p.1 = .missing)).map (·.1)

/-- No member of the unit is CURRENT or STALE but free frames, which are withdrawn (R153). -/
def State.unitWhole (s : State) (u : UnitSlot) : Bool :=
  if u.base = .withdrawn then u.map.all fun e => decide (e.2 ≠ some .current) && decide (e.2 ≠ some .stale)
  else decide (u.cause ≠ 2) && !u.left && decide (u.progress ≥ s.rebuildPrelude) && (s.nextStale u.scope).isNone

/-- A spare frame on a unit holds a member. -/
def State.sparedOn (s : State) (x : Scope) : Bool :=
  (s.unitsOut.any fun p => p.2.map.any fun e => match e.2 with | some (.spared o) => x.holds s (s.spareFrame o) | _ => false)
    || s.welt.exceptions.any fun p => match p.2 with | some o => x.holds s (s.spareFrame o) | none => false

/-- Whether a unit may be fenced by escalation: a slot is free and no group would have two members unread (16 R392, R157). -/
def State.mayFenceUnit (s : State) (x : Scope) : Bool :=
  (s.unitIndex false).isSome && (s.unitFor x).isNone && (s.unitsOut.all fun p => s.unitWhole p.2) && !s.sparedOn x

/-! ### Lace modules (08 R205 to R208) -/

/-- Both modules of a die are down: FATAL (R208); a lost die that fails to rejoin at the next bring-up fires SRC_PWR_DIE_REJOIN
(18 R428). -/
def State.dieDown (s : State) (die : Nat) : State :=
  let s := [2 * die, 2 * die + 1].foldl (fun s m => s.updLaceMod m fun x => { x with state := 4, carryAll := false }) s
  let s := s.recomputeUsable
  if s.lace.lost.getLsbD die ∧ s.inResume then fire 905 s
  else fire (srcDieDown die) (s.mapLace fun l => { l with lost := l.lost ||| (1#2 <<< die) })

/-- A module goes down: its traffic passes to the die's other module by handover, or the die is down (R205, R206, R208). -/
def State.moduleDown (s : State) (m : Nat) : State :=
  if (s.laceMod m).state = 4 then s
  else
    let p := partner m
    let s := s.updLaceMod m fun x => { x with state := 4, carryAll := false, handoverSeen := 0, leakScheduled := false, soaking := false, returning := false, returnSent := false }
    let s := fire (srcLace m 5) s
    if (s.laceMod p).state = 4 then s.dieDown (m / 2)
    else
      let x := s.laceMod m
      let s := (s.sendCtrl p .hub 2 1 (x.hub.expected + 32768)).sendCtrl p .die 2 1 (x.die.expected + 32768)
      s.recomputeUsable

/-- Whether a module may be fenced by escalation (16 R392). -/
def State.mayFenceModule (s : State) (m : Nat) : Bool :=
  !(s.laceMod m).carryAll && decide ((s.laceMod (partner m)).state ≠ 4) && decide ((s.laceMod m).state ≠ 4)

/-! ### Fences by escalation (16 R392) -/

/-- The unit that a source's FENCE bit fences. `rank` is the rank of a channel event. -/
inductive FenceUnit where
  | engine (n : Nat)
  | core (n : Nat)
  | rank (x : Scope)
  | module (m : Nat)
  deriving DecidableEq, Repr

def State.mayFence (s : State) : FenceUnit → Bool
  | .engine n => !s.engineFenced n
  | .core n => !(s.core n).1
  | .rank x => s.mayFenceUnit x
  | .module m => s.mayFenceModule m

def State.doFence (s : State) (inj : Option (W32 × Bool)) : FenceUnit → State
  | .engine n => s.fenceEngine n
  | .core n => s.fenceCore n
  | .rank x => s.unitOut x 0 inj
  | .module m => s.moduleDown m

/-- The class a source would have after one more event, and whether it rises. -/
def State.wouldRise (s : State) (e : Ev) : Bool :=
  match e.inj with
  | some (_, true) => false
  | _ => (countSource (s.src e.source) s.tick s.time).2

/-- An event of a source whose unit the FENCE bit can fence; the fence is an elective removal that follows the record. -/
def raiseFencing (e : Ev) (u : FenceUnit) (s : State) : State :=
  let go := s.wouldRise e && (s.src e.source).fence && s.mayFence u && firesHere s e.source
  let s := raise { e with fenced := go } s
  if go then s.doFence e.inj u else s

/-- A byte-parity error in an engine: counted, and a second one fences it (04 R94). -/
def State.engineParity (s : State) (n : Nat) (inj : Option (W32 × Bool)) : State :=
  let s := raiseFencing { Ev.of (512 + n) with inj } (.engine n) s
  if s.codec.errors.getLsbD n then s.fenceEngine n
  else s.mapCodec fun c => { c with errors := c.errors ||| (1#26 <<< n) }

/-- A byte-parity error in a core: two within 24 h fence it (15 R366); one in a secure core restarts the secure world (R376 cause 3). -/
def State.coreParity (s : State) (n : Nat) (inj : Option (W32 × Bool)) : State :=
  let s := raiseFencing { Ev.of (8 + n) with inj } (.core n) s
  let c := s.core n
  let again := match c.2.2 with | some t => decide (s.time - t ≤ Config.nsDay) | none => false
  let s := s.setCore n (c.1, c.2.1 + 1, some s.time)
  if again then s.fenceCore n else if n ≥ 6 then s.secureRestart 3 else s

end Sys2Proof.Machine
end

