-- ==== Sys2Proof/Machine/Migrate.lean ====
section
/-! DEFINITION. Migrations (02 R49 to R54, 03 R58 to R66): taking a tracker, copying through the write buffer, coding a page, the
flip, the release of the source, the emergency demotion; and the steps of a check mismatch (04 R90). -/

namespace Sys2Proof.Machine

/-! ### Content through the write buffer (01 R19) -/

/-- A line of a page in hot form as a read returns it; none is poison. -/
def State.hotLine (s : State) (dpn : Dpn) (e : LastEntry) (line : Nat) : Option Line :=
  match s.buffered dpn line with
  | some w => if w.poison then none else some w.data
  | none => s.hotPlain dpn e line

/-- The 64 lines of a page as a read returns them. -/
def State.pageLines (s : State) (dpn : Dpn) : List (Option Line) :=
  let e := s.entry dpn
  if e.hotForm then (List.range 64).map fun l => s.hotLine dpn e l else s.pagePlain dpn

/-- Copies a line of a hot source to a hot destination: the buffered line, else the stored ciphertext with its META (05 R98). -/
def State.copyHotLine (s : State) (dpn : Dpn) (e : LastEntry) (dest line : Nat) : State :=
  match s.buffered dpn line with
  | some w => s.writeHotLine dpn e.key.toNat dest line (if w.poison then none else some w.data)
  | none =>
    match s.lineContent e.frame.toNat line with
    | some r =>
      if metaPoison (sideMeta r.side) then s.poisonLine dest line kindData
      else if metaWritten (sideMeta r.side) then s.writeLine dest line r.data (sideMeta r.side) else s
    | none => s.poisonLine dest line kindData

/-- Copies the granules of a warm page into a bin, as stored. -/
def State.copyGranules (s : State) (e : LastEntry) (dest : Nat) (place : List Chunk) : State :=
  (List.range 4).foldl (fun s ch =>
    (List.range (e.chunk ch).cnt.toNat).foldl (fun s j =>
      let dst := (place.getD ch Chunk.none).off.toNat + j
      match s.lineContent e.frame.toNat ((e.chunk ch).off.toNat + j) with
      | some r => if metaPoison (sideMeta r.side) then s.poisonLine dest dst kindGranule
                  else s.writeLine dest dst r.data (sideMeta r.side)
      | none => s.poisonLine dest dst kindGranule) s) s

/-! ### Check mismatch (04 R90, R91; 06 R142) -/

def State.inRepair (s : State) (dpn : Dpn) (ch line : Nat) : Bool :=
  s.codec.repair.any fun j => decide (j.dpn = dpn) && decide (j.chunk.val = ch) &&
    (match j.granule with | none => true | some g => decide (16 * ch + g.val = line))

def State.chunkInRepair (s : State) (dpn : Dpn) (ch : Nat) : Bool :=
  s.codec.repair.any fun j => decide (j.dpn = dpn) && decide (j.chunk.val = ch) && j.granule.isNone

/-- Step 1 has failed: shadow repair where the shadow copy is current and `shadow` allows it, else the page becomes LOST. The
answer says whether the page still stands. -/
def State.mismatchTail (s : State) (dpn : Dpn) (ch : Nat) (shadow : Bool) : Bool × State :=
  let e := s.entry dpn
  if shadow ∧ s.repairFree e then (true, s.addRepair dpn ch e none) else (false, s.toLost dpn)

def countMismatch (dpn : Dpn) (ch : Nat) (s : State) (inj : Option (W32 × Bool) := none) : State :=
  raise { Ev.of 541 with dpa := dpn.toNat * 4096, detail := [dpn.toNat * 4096, ch], inj } (s.countCodec 3)

/-- A KIND 8 injection on a decompressor spoils its next decode (16 R400). -/
def State.decodeSpoiled (s : State) (n : Nat) : Option (W32 × Bool) × State :=
  match s.injs.find? fun p => decide (p.2.d.kind = 8) && p.2.due && decide (p.2.d.target.toNat = n) with
  | some (k, x) => (some x.tag, s.spendInj k x)
  | none => (none, s)

/-- The decode on the free decompressor that an internal reader takes. -/
def State.internalDecode (s : State) (own : Bool) : Option (W32 × Bool) × State :=
  match s.idleEngine 1 with
  | some n => if own then (none, s) else s.decodeSpoiled (n - 8)
  | none => (none, s)

/-- A granule of a headerless raw chunk that cannot be rebuilt: repaired from the shadow record where R142 allows it, else
rewritten with poison, DIRTY set. -/
def State.granuleLost (s : State) (dpn : Dpn) (ch g : Nat) (shadow : Bool) : State :=
  let e := s.entry dpn
  if shadow ∧ s.repairFree e then s.addRepair dpn ch e (some (Fin.ofNat 16 g))
  else (s.poisonLine e.frame.toNat ((e.chunk ch).off.toNat + g) kindGranule).setDirty dpn

/-- The lines of a warm chunk for an internal reader, with the steps of R90 and R142 for what cannot be read: after a mismatch the granules are read
again and decoded on another decompressor, then shadow repair or loss follows; none when the page became LOST. `own` says that the reader's
codec jobs decode it (a promotion's). -/
def State.chunkFor (s : State) (dpn : Dpn) (ch : Nat) (shadow : Bool) (own : Bool := false) : Option (List (Option Line)) × State :=
  let e := s.entry dpn
  let cnt := (e.chunk ch).cnt.toNat
  if cnt = 0 then (some (List.replicate 16 (some 0)), s)
  else if s.chunkInRepair dpn ch then (some (List.replicate 16 none), s)
  else
    let gs := s.granules e ch
    if cnt = 16 then
      let bad := (List.range 16).filter fun g => (gs.getD g none).isNone && !s.inRepair dpn ch (16 * ch + g)
      let s := bad.foldl (fun s g => s.granuleLost dpn ch g shadow) s
      let ls := (s.chunkPlain dpn e ch gs).getD (List.replicate 16 none)
      (some (ls.zipIdx.map fun p => if s.inRepair dpn ch (16 * ch + p.2) then none else p.1), s)
    else
      let (inj, s) := s.internalDecode own
      match (if inj.isSome then none else s.chunkPlain dpn e ch gs) with
      | some ls => (some ls, s)
      | none =>
        let s := countMismatch dpn ch s inj
        match s.chunkPlain dpn e ch (s.granules e ch) with
        | some ls => (some ls, s.countCodec 4)
        | none =>
          let (ok, s) := s.mismatchTail dpn ch shadow
          if ok then (some (List.replicate 16 none), s) else (none, s)

/-- The 64 lines of a warm page for an internal reader. -/
def State.warmLines (s : State) (dpn : Dpn) (shadow : Bool) (own : Bool := false) : Option (List (Option Line)) × State :=
  (List.range 4).foldl (fun acc ch =>
    match acc.1 with
    | none => acc
    | some ls =>
      match acc.2.chunkFor dpn ch shadow own with
      | (some x, s) => (some (ls ++ x), s)
      | (none, s) => (none, s)) (some [], s)

/-! ### Starting a migration -/

def isPromotion : MigKind → Bool
  | .writePromotion | .readPromotion | .poqPromotion => true
  | _ => false

def State.trackersOf (s : State) (p : MigKind → Bool) : Nat :=
  (s.last.trackers.filter fun x => match x.2 with | some t => p t.kind | none => false).length

/-- A free tracker: 224 to 255 are those reserved for promotions, of which read and POQ promotions hold at most 16 (R50, R59;
that promotions use no other tracker is DEDUCED, log 26). -/
def State.freeTracker (s : State) (k : MigKind) : Option Nat :=
  let idx := if isPromotion k then (List.range 32).map (224 + ·) else List.range 224
  if isPromotion k ∧ k ≠ .writePromotion ∧ s.trackersOf (fun x => isPromotion x && decide (x ≠ .writePromotion)) ≥ 16 then none
  else idx.find? fun n => (s.tracker n).isNone

/-- Whether the entry's state and pin allow a migration of a kind (R49, R62). -/
def migrates (k : MigKind) (e : LastEntry) : Bool :=
  match k, e.state with
  | .writePromotion, .warm | .readPromotion, .warm | .poqPromotion, .warm => true
  | .demotion, .hot | .emergencyDemotion, .hot => !e.pinned
  | .compaction, .warm => true
  | .relocation, .hot | .relocation, .warm | .retirement, .hot | .retirement, .warm => true
  | .aggressor, .hot | .aggressor, .warm | .rebalance, .hot | .rebalance, .warm => true
  | _, _ => false

/-- A change of form needs a LOADED slot (05 R109). -/
def State.slotLoaded (s : State) (k : BitVec 12) : Bool := decide ((s.slot k.toNat).state = .loaded)

def changesForm (k : MigKind) : Bool := isPromotion k || decide (k = .demotion) || decide (k = .emergencyDemotion)

/-- Migrations run from S1 on and not behind the save fence (03 R73). -/
def State.mayMigrate (s : State) (k : MigKind) (dpn : Dpn) : Bool :=
  let e := s.entry dpn
  !s.path.fenced && decide (s.resume.level ≥ 1) && migrates k e && (s.trackerOf dpn).isNone
    && (!changesForm k || s.slotLoaded e.key)

/-- The frame of a hot destination: at or below RESERVE only a write's promotion gets one (03 Table — Free-frame thresholds). -/
def State.hotDest (s : State) (k : MigKind) (dpn : Dpn) (hint : Frame) (e : LastEntry) : Option (Nat × State) :=
  if k ≠ .writePromotion ∧ s.tier.freeFrames ≤ s.reserveFrames then none else s.takeFrame hint (hotRecord dpn e.owner)

/-- The record of a bin that nothing lies in yet; its OWNER is M_TIER's (DESIGN CHOICE, log 35). -/
def binRecord : FrameRec := { map := 0, dpns := [], kind := .bin, owner := 0x100 }

/-- A place in a bin for chunk counts: an open bin, else a free frame when `fresh` allows it (R64). -/
def State.binDest (s : State) (dpn : Dpn) (counts : List Nat) (ok : Nat → Bool) (fresh : Bool) (hint : Frame) :
    Option (Nat × List Chunk × State) :=
  match s.openBin counts ok with
  | some (f, cs) => some (f, cs, s.addToBin f dpn cs)
  | none =>
    if fresh then
      match s.takeFrame hint binRecord, placeChunks 0 counts with
      | some (f, s), some cs => some (f, cs, s.addToBin f dpn cs)
      | _, _ => none
    else none

/-- The urgent class of tier traffic: write-triggered promotions, emergency demotions, and demotions started at or below RESERVE (03 R71). -/
def State.urgentMig (s : State) (k : MigKind) : Bool :=
  decide (k = .writePromotion) || decide (k = .emergencyDemotion) || (decide (k = .demotion) && decide (s.tier.freeFrames ≤ s.reserveFrames))

/-- Takes tracker n: the entry goes IN_MOTION with its source placement (R49, R51); a span is broken first (R48). -/
def State.enterMotion (s : State) (n : Nat) (k : MigKind) (dpn : Dpn) (dest : Option Nat) (place : List Chunk)
    (recode : BitVec 4) : State :=
  let urgent := s.urgentMig k
  let s := (s.breakSpan dpn).pmLast 4 noLd
  let e := s.entry dpn
  let s := s.putEntry dpn { e with state := .inMotion }
  s.setTracker n (some { dpn, kind := k, source := e, dest := dest.map (BitVec.ofNat 32), place, gen := e.gen, map := 0, round := 1, urgent
                         holdWrites := false, coded := [], recode, mismatched := 0, flipped := false })

/-- The master of a migration's traffic (01 R22): M_SCRUB for what the Welt moves, rebalance, retirement (06 R146) and the relocations of a unit
rebuild (06 R153), else M_TIER. -/
def migMaster : MigKind → Nat
  | .rebalance | .retirement | .relocation => mScrub
  | _ => mTier

/-- Charges the lines that a migration reads and writes. -/
def State.chargeMig (s : State) (k : MigKind) (reads writes : Nat) : State :=
  s.charge (migMaster k) (chargeRead reads + writes * chargeDeltaWrite)

/-- Starts a migration; none when it must wait or may not start. A promotion whose page becomes LOST by a mismatch ends so. -/
def State.startMigration (s : State) (k : MigKind) (dpn : Dpn) (hint : Frame) : Option State :=
  if !s.mayMigrate k dpn then none
  else match s.freeTracker k with
    | none => none
    | some n =>
      let e := s.entry dpn
      if k = .demotion ∨ k = .emergencyDemotion then
        if s.allFenced 0 then none
        else
          let user := if s.urgentMig k then .urgentDemotion else .demotion
          let s := (s.enterMotion n k dpn none [] 0xF).chargeMig k 64 0
          some ((List.range 4).foldl (fun s ch => s.startJob user dpn ch e.owner e.key) s)
      else if e.state = .warm ∧ !isPromotion k then
        -- a rebalance goes to the rejoined channel (06 R160)
        let ok (f : Nat) : Bool :=
          decide (f ≠ e.frame.toNat) && (decide (k ≠ .rebalance) || decide (s.welt.rebalance.map (·.val) = some (channelOf s.w f)))
        match s.binDest dpn (e.chunks.map (·.cnt.toNat)) ok (decide (s.tier.freeFrames > s.reserveFrames)) hint with
        | none => none
        | some (f, cs, s) =>
          let s := (s.copyGranules e f cs).chargeMig k e.granules e.granules
          some (s.enterMotion n k dpn (some f) cs 0)
      else match s.hotDest k dpn hint e with
        | none => none
        | some (f, s) =>
          if e.state = .warm then
            let user := if k = .writePromotion then .writePromotion else .promotion
            let s := (s.enterMotion n k dpn (some f) [] 0).chargeMig k e.granules 64
            let s := ((List.range 4).filter fun ch => decide (0 < (e.chunk ch).cnt.toNat) && decide ((e.chunk ch).cnt.toNat < 16)).foldl
              (fun s ch => s.startJob user dpn ch e.owner e.key) s
            match s.warmLines dpn true true with
            | (some ls, s) => some (s.fillHot dpn e.key.toNat f ls)
            | (none, s) => some s
          else
            let s := (s.breakSpan dpn).chargeMig k 64 64
            let s := (List.range 64).foldl (fun s l => s.copyHotLine dpn e f l) s
            some (s.enterMotion n k dpn (some f) [] 0)

/-- Starts a migration, or leaves it waiting for a tracker when it lacks nothing else (R50); none when it may not start. -/
def State.startOrWait (s : State) (k : MigKind) (dpn : Dpn) (hint : Frame) : State :=
  match s.startMigration k dpn hint with
  | some s => s
  | none =>
    if s.mayMigrate k dpn ∧ (s.freeTracker k).isNone ∧ !(s.last.waiting.any fun x => decide (x.1 = dpn)) then
      s.mapLast fun l => { l with waiting := l.waiting ++ [(dpn, k, hint)] }
    else s

/-- The migrations that wait for a tracker, in order: one starts when a tracker of its share is free; one that may no longer start is given up. -/
def State.startWaiting (s : State) : State :=
  s.last.waiting.foldl (fun s x =>
    if s.mayMigrate x.2.1 x.1 ∧ (s.freeTracker x.2.1).isNone then s
    else
      let s := s.mapLast fun l => { l with waiting := l.waiting.erase x }
      match s.startMigration x.2.1 x.1 x.2.2 with
      | some s => s
      | none => s) s

/-! ### What is outstanding at the source (R52) -/

/-- Host operations that resolved at a generation and have not finished with the source, and Welt write-backs and verify reads
against the source frame. -/
def State.outstanding (s : State) (dpn : Dpn) (gen : Byte) (frame : Frame) : Nat :=
  (s.path.reqs.filter fun r => decide (r.dpn = dpn) && decide (r.gen = gen) &&
      (decide (r.phase = .line) || decide (r.phase = .chunk) || decide (r.phase = .decode) || decide (r.phase = .rebuild))).length
    + (s.welt.rebuilds.filter fun x => decide (x.frame = frame)).length
    + (s.welt.verifies.filter fun x => decide (x.1 = frame)).length + (s.welt.backs.filter fun x => decide (x.frame = frame)).length

/-- Writes of a page that stand in the write buffer or wait in a merge entry. -/
def State.writesOpen (s : State) (dpn : Dpn) : Bool :=
  (s.path.wbuf.any fun w => decide (w.dpn = dpn)) || s.path.merge.any fun m => decide (m.dpn = dpn) && !m.filled

/-! ### Flip and release -/

/-- Which TIER_COUNT a completed migration adds to. -/
def migCounter : MigKind → Option Nat
  | .readPromotion | .poqPromotion => some 0
  | .writePromotion => some 1
  | .demotion | .emergencyDemotion => some 2
  | _ => none

/-- The flip: the entry takes the destination, GEN + 1 (R54). -/
def State.flip (s : State) (n : Nat) (t : Tracker) (zero : Bool) : State :=
  let e := s.entry t.dpn
  let e1 : LastEntry :=
    if zero then { e with state := .zero, heat := 0, frame := 0, c0 := Chunk.none, c1 := Chunk.none, c2 := Chunk.none, c3 := Chunk.none }
    else if t.place.isEmpty then
      { e with state := .hot, frame := t.dest.getD 0, c0 := Chunk.none, c1 := Chunk.none, c2 := Chunk.none, c3 := Chunk.none }
    else
      { e with state := .warm, frame := t.dest.getD 0, pinned := false, c0 := t.place.getD 0 Chunk.none
               c1 := t.place.getD 1 Chunk.none, c2 := t.place.getD 2 Chunk.none, c3 := t.place.getD 3 Chunk.none }
  let s := (s.putEntry t.dpn { e1 with gen := t.gen + 1 }).pmLast 5 noLd
  let s := s.setTracker n (some { t with flipped := true, holdWrites := false })
  let s := match migCounter t.kind with | some k => s.countTier k | none => s
  if zero then s else s.formSpan t.dpn

/-- Enters a frame in the exception table; SRC_WELT_EXCEPTIONS_HIGH when it reaches 90 % (06 R146). -/
def State.addException (s : State) (f : Nat) (o : Option Nat) : State :=
  let n := s.welt.exceptions.length
  let s := s.mapWelt fun w => { w with exceptions := w.exceptions ++ [(BitVec.ofNat 32 f, o)] }
  if 10 * n < 9 * Config.exceptionMax ∧ 10 * (n + 1) ≥ 9 * Config.exceptionMax then fire 69 s else s

/-- A data frame leaves use for good (06 R146): it is withdrawn, which takes its content out of the parity of each line, and its
record becomes RETIRED; the exception table takes it. A free one has known zero-filled content. -/
def State.withdrawFrame (s : State) (f : Nat) : State :=
  let g := groupOf s.w f
  let free := decide ((s.frameRec f).kind = .free)
  let s := (List.range 64).foldl (fun s l =>
    match (if free then some (s.formLine f l 0 0) else s.lineContent f l) with
    | some r => s.deltaParity g l r
    | none => s.coverParity f l zeroRaw) s
  let s := s.setFrameRec f { frameReset with kind := .retired }
  (s.addException f none).countWelt 5

/-- Frees the source placement and the tracker (R52); a retirement withdraws its hot source, and a bin once it is empty. -/
def State.releaseSource (s : State) (n : Nat) (t : Tracker) : State :=
  let s := s.setTracker n none
  let f := t.source.frame.toNat
  if t.kind = .retirement then
    let s := if t.source.warmSource then
        let r := s.frameRec f
        s.setFrameRec f { r with map := r.map &&& ~~~(chunkMask t.source.chunks), dpns := r.dpns.filter (· ≠ t.dpn) }
      else s.setFrameRec f { s.frameRec f with map := 0, dpns := [] }
    if (s.frameRec f).map = 0 then s.withdrawFrame f else s
  else if t.source.warmSource then s.removeFromBin f t.dpn t.source.chunks
  else s.freeFrame f

/-- Releases the source when nothing that resolved at the old generation is outstanding. -/
def State.tryRelease (s : State) (n : Nat) : State :=
  match s.tracker n with
  | some t => if t.flipped ∧ s.outstanding t.dpn t.gen t.source.frame = 0 then s.releaseSource n t else s
  | none => s

/-! ### Coding (03 R63, 04 R78, R83 to R89) -/

/-- Codes chunk `ch` of a page's lines at a level: COUNT and plaintext granules. -/
def codeChunk (level : Nat) (ls : List (Option Line)) : Coded :=
  if ls.any (·.isNone) then { cnt := 16, granules := ls }
  else
    let bs := bytesOfLines (ls.map fun x => x.getD 0)
    let (c, st) := (formOf level false bs).stored level bs
    { cnt := BitVec.ofNat 5 c, granules := (linesOfBytes c st).map some }

/-- A chunk stored headerless raw. -/
def rawChunk (ls : List (Option Line)) : Coded := { cnt := 16, granules := ls }

def chunkLines (ls : List (Option Line)) (ch : Nat) : List (Option Line) := (ls.drop (16 * ch)).take 16

def codePage (level : Nat) (ls : List (Option Line)) : List Coded := (List.range 4).map fun ch => codeChunk level (chunkLines ls ch)

/-- Writes coded chunks at their places. -/
def State.putChunks (s : State) (dpn : Dpn) (key frame : Nat) (place : List Chunk) (cs : List (Nat × Coded)) : State :=
  cs.foldl (fun s p => s.fillChunk dpn key frame p.1 (place.getD p.1 Chunk.none) p.2.granules) s

/-! ### The candidate pool and the emergency demotion (03 R57, R66) -/

/-- A candidate as the tier manager reads it again before use. -/
def State.candidateOk (s : State) (dpn : Dpn) : Bool :=
  let e := s.entry dpn
  decide (e.state = .hot) && !e.pinned && decide (e.heat.toNat ≤ s.tier.policy.demoteMaxHeat)

/-- Takes the oldest usable candidate of the lowest non-empty bucket; those that are no longer usable are discarded. -/
def State.takeCandidate (s : State) : Nat → Option Dpn × State
  | 0 => (none, s)
  | fuel + 1 =>
    match (List.range 8).find? fun b => !(s.bucket b).isEmpty with
    | none => (none, s)
    | some b =>
      match s.bucket b with
      | [] => (none, s)
      | d :: r =>
        let s := s.setBucket b r
        if s.candidateOk d then (some d, s) else State.takeCandidate s fuel

/-- Candidates of one cache set in ascending way number (R66). -/
def State.setCandidates (s : State) (k : Nat) : List Dpn :=
  (s.cacheSet k).ways.filterMap fun p => match p.2 with
    | some w => if !w.isSpan ∧ !w.entry.span ∧ w.entry.state = .hot ∧ !w.entry.pinned then some w.dpn else none
    | none => none

/-- The walk over the Last cache from the set pointer: up to `need` pages, and the pointer after the last set examined. Only the
sets that the cache lists hold ways; the others are passed over. -/
def State.walkCache (s : State) (need : Nat) (have_ : List Dpn) : List Dpn × Nat :=
  let p := s.tier.setPointer
  let ks := s.last.cache.keys
  let order := (ks.filter (· ≥ p)) ++ (ks.filter (· < p))
  let r := order.foldl (fun (acc : List Dpn × Nat × Bool) k =>
    if acc.2.2 then acc
    else
      let ds := ((s.setCandidates k).filter fun d => s.mayMigrate .emergencyDemotion d && !have_.contains d && !acc.1.contains d)
      let got := acc.1 ++ ds.take (need - acc.1.length)
      (got, (k + 1) % Config.lastSets, decide (got.length ≥ need))) ([], p, false)
  -- every set examined once leaves the pointer where it began
  (r.1, if r.2.2 then r.2.1 else p)

/-- Entries of the candidate pool. -/
def State.poolSize (s : State) : Nat := ((List.range 8).map fun b => (s.bucket b).length).sum

/-- Up to four candidates: from the pool as far as it lasts, then from the cache. -/
def State.gather (s : State) : List Dpn × State :=
  let pool (acc : List Dpn × State) (_ : Nat) : List Dpn × State :=
    if acc.1.length ≥ 4 then acc
    else match acc.2.takeCandidate acc.2.poolSize with
      | (some d, s) => if s.mayMigrate .emergencyDemotion d ∧ !acc.1.contains d then (acc.1 ++ [d], s) else (acc.1, s)
      | (none, s) => (acc.1, s)
  let (ds, s) := (List.range s.poolSize).foldl pool ([], s)
  if ds.length ≥ 4 then (ds, s)
  else
    let (more, p) := s.walkCache (4 - ds.length) ds
    (ds ++ more, s.mapTier fun t => { t with setPointer := p })

/-- A page whose four chunks together need more than 64 − DEMOTE_MIN_GAIN granules (R63). -/
def State.failsGain (s : State) (dpn : Dpn) : Bool :=
  decide (((codePage 0 (s.pageLines dpn)).map (·.cnt.toNat)).sum > 64 - s.tier.policy.demoteMinGain)

/-- Demotions under way. -/
def State.demotionRuns (s : State) (p : MigKind → Bool) : Bool :=
  s.last.trackers.any fun x => match x.2 with | some t => p t.kind | none => false

/-- No emergency demotion can free a frame: every unpinned HOT page fails the gain rule, or none exists (R67), and no demotion is under way. -/
def State.poolExhausted (s : State) : Bool :=
  !s.demotionRuns (fun k => decide (k = .demotion) || decide (k = .emergencyDemotion)) &&
    s.last.table.all fun p =>
      let d : Dpn := BitVec.ofNat 32 p.1
      let e := s.entry d
      decide (e.state ≠ .hot) || e.pinned || s.failsGain d

/-- The emergency demotion of R66, which the host write that needs a frame starts and waits for: up to four candidates, demoted together into one
emergency bin; or the exhaustion of R67. One runs at a time; none before pool initialization has ended (10 R251). -/
def State.emergencyDemote (s : State) (hint : Frame) : State :=
  if !s.resume.initDone || s.allFenced 0 || s.demotionRuns (fun k => decide (k = .emergencyDemotion)) then s
  else if s.poolExhausted then
    if s.tier.exhausted then s else fire 33 (s.mapTier fun t => { t with exhausted := true })
  else
    let s := fire 32 (s.countTier 4)
    let (ds, s) := (s.mapTier fun t => { t with emergencyBin := none }).gather
    ds.foldl (fun s d => match s.startMigration .emergencyDemotion d hint with | some s => s | none => s) s

end Sys2Proof.Machine
end

