-- ==== Sys2Proof/Machine/Path.lean ====
section
/-! DEFINITION. The path of a host line (01): acceptance, decode, Last lookup, owner and key checks, the result by state, heat
samples and promotion triggers (03 R55 to R60), write and merge buffers (06 R130, R138), responses, and the waiting requests. -/

namespace Sys2Proof.Machine

/-! ### Acceptance and decode -/

/-- Where a request goes: its page and line, and the attributes of the capacity map entry that admits it. -/
structure Target where
  dpn : Dpn
  line : Fin 64
  shared : Bool
  poisonUnw : Bool
  durable : Bool
  deriving DecidableEq, Repr

def State.headSld (s : State) (h : Nat) : Bool := match (s.headOf h).link with | some l => !l.mld | none => false

def State.head68 (s : State) (h : Nat) : Bool := match (s.headOf h).link with | some l => !l.flit256 | none => false

/-- The static persistent partition is active: nothing of it waits for its restore (10 R264). -/
def State.staticActive (s : State) : Bool :=
  decide (s.resume.level = 3) || (decide (s.resume.imageStep = 2) &&
    s.resume.extents.all fun x => decide (x.state = .restored) || x.entries.all fun e => e.region.isSome)

/-- An LD DPA through the LD's capacity map (02 R25). A static persistent range that is not active yet decodes no request (10 R264; that
inactive memory answers as a decode miss does is PRESUMED, log 58). A head with 68-byte flits decodes no DC entry (12 R292). A port that operates
as a single logical device has the identity over its capacity, HOST_PAGES; an entry of the LD's map gives the attributes of the pages it covers (R25;
what the map says of such an LD is DEDUCED, log 38). -/
def State.mapLdDpa (s : State) (ld head : Nat) (dpa : Nat) : Option Target :=
  let d := dpa / 4096
  let line : Fin 64 := Fin.ofNat 64 (dpa / 64)
  let admits (e : MapEntry) : Bool := !(e.dc && s.head68 head) && (e.dc || !e.durable || s.staticActive)
  let target (dpn : Nat) (e : MapEntry) : Target :=
    { dpn := BitVec.ofNat 32 dpn, line, shared := e.shared, poisonUnw := e.poisonUnw, durable := e.durable }
  if s.headSld head then
    if d ≥ s.last.hostPages then none
    else match mapLookup (s.map ld) d with
      | some e => if admits e then some (target d e) else none
      | none => some { dpn := BitVec.ofNat 32 d, line, shared := false, poisonUnw := false, durable := false }
  else (mapLookup ((s.map ld).filter admits) d).map fun e => target (e.dev d) e

/-- HDM decode, then the capacity map. -/
def State.decodeAccess (s : State) (a : Access) : Option Target :=
  let f := s.fn a.ld.val
  match hdmDecode 0 a.hpa.toNat ((List.range 4).map fun i => Tab.get (fun _ => none) f.hdm i) with
  | none => none
  | some dpa => s.mapLdDpa a.ld.val a.head.val dpa

/-- The key ID of a request (05 R106). -/
def State.requestKey (s : State) (ld : Nat) (ckid : Option (BitVec 13)) : Option (BitVec 12) :=
  let t := s.tspOf ld
  if t.enabled then
    match ckid with
    | some c => if c.toNat ≤ 127 then Tab.get (fun _ => none) t.ckids c.toNat else none
    | none => none
  else some (s.defKey ld)

/-- A slot that is LOADED for an LD (05 R107, R108) and not in destruction (05 R119). -/
def State.keyUsable (s : State) (ld : Nat) (k : BitVec 12) : Bool :=
  decide ((s.slot k.toNat).state = .loaded) && !(s.slot k.toNat).destroying && (s.slot k.toNat).mask.getLsbD ld

def portOfTag (t : BitVec 13) : Nat := t.toNat / Config.tagsPerPort

/-- Port p is in 2X8 mode: the board configuration block says so (18 R437, R438). -/
def State.twoHeads (s : State) (p : Nat) : Bool :=
  match s.power.board with
  | some b => s.power.boardOk && b.flags.getLsbD p
  | none => false

/-- Head h exists in the mode of its port. -/
def State.headHere (s : State) (h : Nat) : Bool := s.hasHead h && (decide (h % 2 = 0) || s.twoHeads (portOfHead h))

/-- Full width of a head in lanes. -/
def State.fullWidth (s : State) (h : Nat) : Nat := if s.twoHeads (portOfHead h) then 8 else 16

/-- The lowest free tracker tag of a port: port p has tags 2,048 × p on. Which free tag is taken is open: DESIGN CHOICE, log 34. -/
def State.freeTag (s : State) (p : Nat) : Option (BitVec 13) :=
  ((List.range Config.tagsPerPort).map fun i => BitVec.ofNat 13 (p * Config.tagsPerPort + i)).find? fun t =>
    !s.path.reqs.any fun r => decide (r.tag = t)

/-- A port takes a request from a bound LD on an up head before the save fence and from S1 on (R21, R23; 10 R249). -/
def State.takes (s : State) (a : Access) : Bool :=
  !s.path.fenced && s.hasLd a.ld.val && s.hasHead a.head.val && (s.fn a.ld.val).bound && decide ((s.fn a.ld.val).head = some a.head)
    && (s.headOf a.head.val).up && decide (s.resume.level ≥ 1)

/-! ### The sampler (17 R414, R415) -/

/-- Position counting in the block of 2^LOG2_RATE requests; a new block draws its position, a free value. The answer says whether
this request is the sampled one. -/
def State.samplePick (s : State) (p fn : Nat) : Bool × State :=
  let log2 := Tab.get (fun _ => 10) (s.perfFn fn).sampRate p
  let x := s.sampler p
  let (n, s) := if x.inBlock = 0 then s.draw else (0, s)
  let pick := if x.inBlock = 0 then (Config.freeWord n).toNat % 2 ^ log2 else x.pick
  (decide (x.inBlock = pick), s.setSampler p { x with inBlock := (x.inBlock + 1) % 2 ^ log2, pick })

/-- A sample record for an accepted request, when its port's sampler chooses it. -/
def State.sampleFor (s : State) (a : Access) (write : Bool) : Option Sample × State :=
  let p := portOfLd a.ld.val
  match (s.sampler p).owner with
  | none => (none, s)
  | some o =>
    let d := Tab.get (fun _ => 0) (s.perfFn o.val).sampDir p
    if (o.val = a.ld.val ∨ (o.val ≥ 32 ∧ portOfHead (o.val - 32) = p)) ∧ (d = 0 ∨ (d = 1 ∧ !write) ∨ (d = 2 ∧ write)) then
      let (pick, s) := s.samplePick p o.val
      if pick then
        let x := s.sampler p
        (some { fn := o.val, port := p, seq := x.seq, time := s.time, hpa := a.hpa, state := 0, hit := false, rebuilt := false },
         s.setSampler p { x with seq := x.seq + 1 })
      else (none, s)
    else (none, s)

/-! ### Requests in the tracker -/

/-- Phases in which a request waits for something other than its own DRAM or codec work. -/
def Phase.waiting : Phase → Bool
  | .miss | .order | .tie | .promote | .frame | .window | .copyHold | .mergeFull => true
  | .line | .chunk | .decode | .rebuild | .merge => false

/-- Same-line order (R19): an earlier request to the line still waits, or is a write and this is a read. Writes join an open merge
entry (06 R138). -/
def State.behind (s : State) (r : Req) : Bool :=
  (s.path.reqs.takeWhile fun q => decide (q.tag ≠ r.tag)).any fun q =>
    decide (q.dpn = r.dpn) && decide (q.line = r.line) && (q.phase.waiting || (q.write.isSome && r.write.isNone))

/-! ### Heat and promotion triggers (03 R55, R58, R59) -/

/-- One heat sample of a page (R55). -/
def State.heatSample (s : State) (dpn : Dpn) : State :=
  let e := s.entry dpn
  match e.state with
  | .hot | .warm | .inMotion =>
    let (n, s) := s.draw
    if (Config.lfsr n).toNat % 2 ^ s.tier.policy.sampleShift = 0 then
      if e.span ∧ (s.pageWay dpn).isNone then s.countTier 6
      else s.touchEntry dpn fun e => { e with heat := if e.heat = 255 then 255 else e.heat + 1 }
    else s
  | _ => s

/-- A read-triggered promotion enters its queue (R58, R59). -/
def State.triggerPromotion (s : State) (dpn : Dpn) : State :=
  let e := s.entry dpn
  if e.state = .warm ∧ s.tier.policy.promoteThreshold ≠ 0 ∧ e.heat.toNat ≥ s.tier.policy.promoteThreshold
      ∧ !s.tier.promoQueue.contains dpn then
    if s.tier.promoQueue.length ≥ Config.promoQueueMax then s.countTier 5
    else s.mapTier fun t => { t with promoQueue := t.promoQueue ++ [dpn] }
  else s

/-! ### Reads that go to DRAM -/

/-- Issues the read of `count` lines of a frame for a request; lines that cannot be read where they lie are rebuilt, which the LD is charged for
(01 R22). -/
def State.readDram (s : State) (r : Req) (frame line count : Nat) (phase : Phase) : State :=
  let s := s.updReq r.tag fun r => { r with frame := BitVec.ofNat 32 frame, off := line, cnt := count, got := [] }
  match s.place frame with
  | .at p =>
    (s.setPhase r.tag phase).enterArbiter
      { tag := r.tag, master := Fin.ofNat 39 r.ld.val, priority := (s.master r.ld.val).priority, rt := false, write := false
        frame := BitVec.ofNat 32 p, line := Fin.ofNat 64 line, count, aged := false }
  | _ =>
    let jobs := (List.range count).map fun i =>
      ({ frame := BitVec.ofNat 32 frame, line := Fin.ofNat 64 (line + i), asRead := zeroRaw, err := true
         forWhom := .request r.tag } : Rebuild)
    ((s.updReq r.tag fun r => { r with phase := .rebuild, got := List.replicate count none }).mapWelt fun w =>
      { w with rebuilds := w.rebuilds ++ jobs }).charge r.ld.val (chargeRead (count * (s.w - 1)))

/-- A 4410 compatibility entry of a line of a HOT page (06 R147). -/
def State.compatOf (s : State) (dpn : Dpn) (line : Nat) : Option (Nat × Compat) :=
  ((List.range 8).filterMap fun i => (s.compat i).map fun c => (i, c)).find? fun p =>
    decide (p.2.dpa.toNat = dpn.toNat * 4096 + line * 64)

/-- A read of hot storage: while the page is HOT, from a compatibility entry that passes its check with the PLA of the line's own frame, else from
DRAM (06 R147). -/
def State.readHot (s : State) (r : Req) (e : LastEntry) : State :=
  let go (s : State) : State := s.readDram r e.frame.toNat r.line.val 1 .line
  match (if e.state = .hot then s.compatOf r.dpn r.line.val else none) with
  | some (i, c) =>
    if checkData c.raw (pla e.frame.toNat r.line.val) then
      s.finishRead r (if metaPoison (sideMeta c.raw.side) then none
        else some (s.decHot e.key.toNat r.dpn.toNat r.line.val c.raw)) false |>.pmCrypto 0
    else go (fire 70 (s.setCompat i none))
  | none => go s

/-- A warm read (01 R15 to R17): zeros for count 0, poison while in repair, the line's granule of a raw chunk, else all granules. -/
def State.readWarm (s : State) (r : Req) (e : LastEntry) : State :=
  let ch := r.line.val / 16
  let c := e.chunk ch
  if c.cnt = 0 then s.finishRead r (some 0) false
  else if s.inRepair r.dpn ch r.line.val then s.finishRead r none false
  else if c.cnt = 16 then
    (s.updReq r.tag fun r => { r with raw := true }).readDram r e.frame.toNat (c.off.toNat + r.line.val % 16) 1 .line
  else s.readDram r e.frame.toNat c.off.toNat c.cnt.toNat .chunk

/-- A read whose checks have passed, by STATE (02 R36 to R38, R51). -/
def State.serveRead (s : State) (r : Req) : State :=
  match s.buffered r.dpn r.line.val with
  | some w => s.finishRead r (if w.poison then none else some w.data) true
  | none =>
    let e := s.entry r.dpn
    match e.state with
    | .unwritten => s.finishRead r (if r.poisonUnw then none else some 0) false
    | .zero => s.finishRead r (some 0) false
    | .lost | .restoring => s.finishRead r none false
    | .hot => s.readHot r e
    | .warm => ((s.pmPort (portOfLd r.ld.val) 2 r.ld.val).triggerPromotion r.dpn).readWarm r e
    | .inMotion => if e.warmSource then s.readWarm r e else s.readHot r e

/-! ### Writes -/

/-- Puts a line into the write buffer: DIRTY is set (09 R215) and a migration from a hot source marks the line (02 R53). -/
def State.bufferLine (s : State) (dpn : Dpn) (line : Fin 64) (x : Line) (poison : Bool) (ld : Option (Fin 32)) : State :=
  let w : WbEntry := { dpn, line, data := x, poison, ld }
  let here (q : WbEntry) : Bool := decide (q.dpn = dpn) && decide (q.line = line)
  let s := s.mapPath fun p =>
    if p.wbuf.any here then { p with wbuf := replaceFirst here (fun _ => w) p.wbuf } else { p with wbuf := p.wbuf ++ [w] }
  let s := match s.trackerOf dpn with
    | some (n, t) => if t.flipped then s else s.setTracker n (some { t with map := t.map ||| (1#64 <<< line.val) })
    | none => s
  s.setDirty dpn

/-- Bytes of a line under their enables (06 R138). -/
def mergeBytes (old new : Line) (be : W64) : Line :=
  (List.range 64).foldl (fun x i =>
    if be.getLsbD i then (x &&& ~~~(0xFF#512 <<< (8 * i))) ||| ((byteAt new i).setWidth 512 <<< (8 * i)) else x) old

def State.mergeOf (s : State) (dpn : Dpn) (line : Nat) : Option MergeEntry :=
  s.path.merge.find? fun m => decide (m.dpn = dpn) && decide (m.line.val = line)

def State.dropMerge (s : State) (dpn : Dpn) (line : Nat) : State :=
  s.mapPath fun p => { p with merge := p.merge.filter fun m => !(decide (m.dpn = dpn) && decide (m.line.val = line)) }

/-- Completes the partial writes that a merge entry holds. -/
def State.completeMerge (s : State) (m : MergeEntry) : State :=
  m.tags.foldl (fun s t => match s.req t with | some r => s.finishWrite r | none => s) s

/-- A full line write: the line stands in the write buffer, a merge entry of the line is replaced, the completion is sent
(R18, R138). -/
def State.applyFull (s : State) (r : Req) (x : Line) : State :=
  let s := match s.mergeOf r.dpn r.line.val with
    | some m => (s.completeMerge m).dropMerge r.dpn r.line.val
    | none => s
  (s.bufferLine r.dpn r.line x r.poison (some r.ld)).finishWrite r

/-- A partial write: into the open entry, else into a new entry that reads the old line through the read path (R138). One that finds the merged line in the
write buffer completes at once; one that joins an entry before its old line has arrived completes with it (R18; DEDUCED, log 39). -/
def State.applyPartial (s : State) (r : Req) (x : Line) : State :=
  let here (m : MergeEntry) : Bool := decide (m.dpn = r.dpn) && decide (m.line = r.line)
  match s.mergeOf r.dpn r.line.val, s.buffered r.dpn r.line.val with
  | some m, w =>
    match (if m.filled then w else none) with
    | some w =>
      let y := mergeBytes w.data x r.be
      let s := s.mapPath fun p => { p with merge := replaceFirst here (fun m => { m with data := y }) p.merge }
      (s.bufferLine r.dpn r.line y w.poison (some r.ld)).finishWrite r
    | none =>
      let m' : MergeEntry := { m with data := mergeBytes m.data x r.be, be := m.be ||| r.be, tags := m.tags ++ [r.tag] }
      (s.mapPath fun p => { p with merge := replaceFirst here (fun _ => m') p.merge }).setPhase r.tag .merge
  | none, w =>
    if s.path.merge.length ≥ Config.mergeEntries - Config.mergeWelt then s.setPhase r.tag .mergeFull
    else
      let m : MergeEntry := { dpn := r.dpn, line := r.line, data := mergeBytes 0 x r.be, be := r.be, filled := false
                              entered := false, ld := r.ld, tags := [r.tag] }
      let s := s.mapPath fun p => { p with merge := p.merge ++ [m] }
      -- a line that stands in the write buffer is read there (01 R19)
      (if w.isSome then s else s.charge r.ld.val (chargeRead 1)).setPhase r.tag .merge

def State.applyWrite (s : State) (r : Req) (x : Line) : State :=
  if r.be = BitVec.allOnes 64 then s.applyFull r x else s.applyPartial r x

/-- The soft limit (09 R221): a write that newly dirties a page holds its master's priority at 0. -/
def State.softHold (s : State) (r : Req) : State :=
  let e := s.entry r.dpn
  if (e.durable || (decide (e.state = .unwritten) && r.durable)) ∧ !e.dirty
      ∧ s.dirtyBytes ≥ softOf s.shank.window s.shank.policy.softPct * mib64 then
    let s := if (s.master r.ld.val).holdSoft then s else s.countReg 4
    s.updMaster r.ld.val fun m => { m with holdSoft := true }
  else s

/-- Whether the window holds a write (09 R222): it would queue a new entry. -/
def State.windowHoldsWrite (s : State) (r : Req) : Bool :=
  let e := s.entry r.dpn
  if e.state = .unwritten then
    r.durable && s.shank.imageExists && (decide (s.dirtyBytes + 4160 > s.shank.window * mib64)
      || decide (s.shank.queue.length ≥ Config.shadowQueueMax) || s.shank.logFull)
  else s.windowHolds r.dpn 4160

/-- The frame a host write takes: from the pool, where a sequential run of first writes keeps its block's frames (02 R47); none: it waits for the
emergency demotion (03 R66), or until a frame frees (R67). -/
def State.frameForWrite (s : State) (r : Req) (rec : FrameRec) : Option Nat × State :=
  let s := if s.tier.freeFrames = 0 then s.emergencyDemote r.hint else s.reserveRun r.dpn
  match s.takeFrame r.hint rec with
  | some (f, s) => (some f, s)
  | none => (none, s)

/-- A write to a page without storage: a hot frame is allocated (02 R37, R38). -/
def State.writeFirst (s : State) (r : Req) (x : Line) : State :=
  let owner : BitVec 12 := if r.shared then 0 else ownerLd r.ld.val
  let e := s.entry r.dpn
  let own := if e.state = .unwritten then owner else e.owner
  match s.frameForWrite r (hotRecord r.dpn own) with
  | (none, s) => s.setPhase r.tag .frame
  | (some f, s) => ((s.softHold r).toHot r.dpn f owner (r.key.getD 0) r.durable).applyWrite r x

/-- A write to a page in warm form: it waits for a promotion, which starts at once; a migration to a warm destination is abandoned
for it (03 R60). -/
def State.writeWarm (s : State) (r : Req) : State :=
  let s := s.setPhase r.tag .promote
  let start (s : State) : State :=
    let s := if s.tier.freeFrames = 0 then s.emergencyDemote r.hint else s
    if s.tier.freeFrames = 0 then s.setPhase r.tag .frame
    else match s.startMigration .writePromotion r.dpn r.hint with
      | some s => s
      | none => s
  match s.trackerOf r.dpn with
  | some (_, t) => if t.flipped ∨ t.place.isEmpty then s else start (s.abandon r.dpn)
  | none => start s

/-- A write to a page in hot form, held in the third copy round of a move to a hot frame (02 R54). -/
def State.writeHot (s : State) (r : Req) (x : Line) : State :=
  match s.trackerOf r.dpn with
  | some (_, t) => if t.holdWrites then s.setPhase r.tag .copyHold else (s.softHold r).applyWrite r x
  | none => (s.softHold r).applyWrite r x

/-- A write whose checks have passed. -/
def State.serveWrite (s : State) (r : Req) (x : Line) : State :=
  if s.windowHoldsWrite r then
    let s := if r.phase = .window then s else fire 771 (s.countShank 3)
    s.setPhase r.tag .window
  else
    let e := s.entry r.dpn
    match e.state with
    | .unwritten | .zero | .lost => s.writeFirst r x
    | .hot => s.writeHot r x
    | .warm => s.writeWarm r
    | .inMotion => if e.warmSource then s.writeWarm r else s.writeHot r x
    | .restoring => s.failReq r

/-! ### Lookup and checks -/

/-- A Last lookup hits: the per-page way, or for a read a span that covers the page (02 R43, R48). -/
def State.lastHit (s : State) (dpn : Dpn) (write : Bool) : Bool :=
  (s.pageWay dpn).isSome || (!write && (s.spanWay dpn).isSome)

/-- Marks the way that a lookup hit. -/
def State.touchLast (s : State) (dpn : Dpn) : State :=
  match s.pageWay dpn with
  | some (k, i, _) => s.touchWay k i
  | none => match s.spanWay dpn with
    | some (k, i, _) => s.touchWay k i
    | none => s

/-- A miss: one metadata read for the page, charged to the LD, when the miss queue takes it (02 R46, 01 R22). -/
def State.missLast (s : State) (r : Req) : State :=
  let s := s.setPhase r.tag .miss
  if s.last.missq.contains r.dpn ∨ s.last.missq.length ≥ 1024 then s
  else (s.mapLast fun l => { l with missq := l.missq ++ [r.dpn] }).charge r.ld.val (chargeRead 1)

def ldEvent (n ld : Nat) (dpa : Nat) (detail : List Nat) : Ev :=
  { Ev.of n with ld := if h : ld < 32 then some ⟨ld, h⟩ else none, dpa, detail }

/-- Owner check (02 R34). -/
def ownerOk (e : LastEntry) (ld : Nat) : Bool := decide (e.owner = 0) || decide (e.owner = ownerLd ld)

/-- Key check (05 R108); a write to an UNWRITTEN page needs a usable slot (R107). A request that has passed it completes under its
key while the slot's destruction waits for it (05 R119). -/
def State.keyOk (s : State) (r : Req) (e : LastEntry) : Bool :=
  let usable (k : BitVec 12) : Bool :=
    if r.sampled then decide ((s.slot k.toNat).state = .loaded) && (s.slot k.toNat).mask.getLsbD r.ld.val else s.keyUsable r.ld.val k
  if e.state = .unwritten then
    r.write.isNone || (match r.key with | some k => usable k | none => false)
  else match r.key with
    | some k => decide (k = e.key) && usable k
    | none => false

/-- A request whose entry is known: checks, heat sample, result. -/
def State.serve (s : State) (r : Req) : State :=
  let e := s.entry r.dpn
  let s := s.touchLast r.dpn
  let dpa := r.dpn.toNat * 4096 + r.line.val * 64
  let p := portOfLd r.ld.val
  if !ownerOk e r.ld.val then (raise (ldEvent 641 r.ld.val dpa [dpa, e.owner.toNat]) (s.pmPort p 5 r.ld.val)).failReq r
  else if !s.keyOk r e then
    (raise (ldEvent 576 r.ld.val dpa [dpa, e.key.toNat]) ((s.pmPort p 5 r.ld.val).pmCrypto 4)).failReq r
  else
    let s := if r.sampled then s else s.heatSample r.dpn
    let r := { r with sampled := true, gen := e.gen
                      smp := r.smp.map fun x => if r.sampled then x else { x with state := e.state.code } }
    let s := s.updReq r.tag fun _ => r
    match r.write with
    | some x => s.serveWrite r x
    | none => s.serveRead r

/-- What the port and the Last unit count for the first lookup of a request (17 Table — Palfa events). -/
def State.countLookup (s : State) (r : Req) (hit : Bool) : State :=
  let ld := some r.ld.val
  let s := s.pmLast 0 ld
  if hit then
    let s := s.pmLast 1 ld
    if (s.pageWay r.dpn).isSome then s else s.pmLast 2 ld
  else (s.pmLast 3 ld).pmPort (portOfLd r.ld.val) 3 r.ld.val

/-- Runs a request of the tracker as far as it goes. `known` says that its entry has just been read (02 R43, R46). -/
def State.dispatch (s : State) (known : Bool) (tag : BitVec 13) : State :=
  match s.req tag with
  | none => s
  | some r =>
    if s.behind r then s.setPhase tag .order
    else
    let hit := s.lastHit r.dpn r.write.isSome
    let s := if known ∨ r.sampled then s else s.countLookup r hit
    if known ∨ hit then
      let r := { r with smp := r.smp.map fun x => if r.sampled then x else { x with hit := !known } }
      s.serve r
    else s.missLast r

/-! ### Acceptance -/

/-- The head that the pointer of R20 chooses among two, and the pointer after the tie (the pointer moves behind the winner:
DEDUCED, log 40). -/
def tieWinner (rr a b : Fin 4) : Fin 4 × Fin 4 :=
  let d (h : Fin 4) : Nat := (h.val + 4 - rr.val) % 4
  let w := if d a ≤ d b then a else b
  (w, w + 1)

/-- A request takes a tracker tag: the decode comes first, then the tracker takes it (R19, R20, R26). A tie names the other head whose
request for the same line follows; the loser of the tie waits for it. -/
def State.acceptTag (s : State) (a : Access) (write : Option Line) (be : W64) (poison : Bool) (tag : BitVec 13) : State :=
      let s := s.pmPort (portOfLd a.ld.val) (if write.isSome then 1 else 0) a.ld.val
      let s := s.pmCxl (if write.isSome then 0x21 else 0x20) (if write.isSome ∧ be ≠ BitVec.allOnes 64 then 2 else 1) a.ld.val
      let (smp, s) := s.sampleFor a write.isSome
      match s.decodeAccess a with
      | none =>
        let r : Req := { tag, head := a.head, ld := a.ld, dpn := 0, line := 0, gen := 0, key := none, poisonUnw := false, shared := false
                         durable := false, write, be, poison, phase := .order, sampled := true, got := [], frame := 0, off := 0, cnt := 0, raw := false
                         hint := a.hint, smp }
        (raise (ldEvent 640 a.ld.val 0 [a.hpa.toNat]) s).failReq r
      | some t =>
        let (win, rr) := match a.tie with
          | some b => let w := tieWinner s.path.rr a.head b; (decide (w.1 = a.head), w.2)
          | none => (true, s.path.rr)
        let r : Req := { tag, head := a.head, ld := a.ld, dpn := t.dpn, line := t.line, gen := 0, key := s.requestKey a.ld.val a.ckid
                         poisonUnw := t.poisonUnw, shared := t.shared, durable := t.durable, write, be, poison
                         phase := if win then .order else .tie, sampled := false, got := [], frame := 0, off := 0, cnt := 0, raw := false
                         hint := a.hint, smp }
        let mine (q : Req) : Bool := decide (q.phase = .tie) && decide (q.dpn = t.dpn) && decide (q.line = t.line)
        let loser := s.path.reqs.find? mine
        let s := s.mapPath fun p =>
          { p with rr, reqs := p.reqs.takeWhile (fun q => !mine q) ++ [r] ++ p.reqs.dropWhile (fun q => !mine q) }
        if !win then s
        else
          let s := s.dispatch false tag
          match loser with
          | some q => (s.setPhase q.tag .order).dispatch false q.tag
          | none => s

/-- CXL.mem receive credits of a head: M2S Req for reads, M2S RwD for writes (12 R296). -/
def State.rxCredits (s : State) (h : Nat) (write : Bool) : Nat :=
  (if write then 256 else 512) / (if s.fullWidth h = 16 then 1 else 2)

/-- A request that waits in its port for a tag keeps its credit; the host sends none for which it has no credit (R21; 12 R290, R296). -/
def State.holdRequest (s : State) (x : HeldReq) : State :=
  let same := s.path.held.filter fun y => decide (y.a.head = x.a.head) && (y.write.isSome == x.write.isSome)
  if same.length ≥ s.rxCredits x.a.head.val x.write.isSome then s else s.mapPath fun p => { p with held := p.held ++ [x] }

def HeldReq.port (x : HeldReq) : Nat := portOfLd x.a.ld.val

/-- Accepts a request, or lets it wait in its port while no tag of the port is free (R21). -/
def State.accept (s : State) (a : Access) (write : Option Line) (be : W64) (poison : Bool) : State :=
  if !s.takes a then s
  else if s.path.held.any fun x => decide (x.port = portOfLd a.ld.val) then s.holdRequest { a, write, be, poison }
  else match s.freeTag (portOfLd a.ld.val) with
    | none => s.holdRequest { a, write, be, poison }
    | some tag => s.acceptTag a write be poison tag

/-- The requests that wait in the ports take the tags that have become free, in order of arrival (12 R290). -/
def State.takeHeld (s : State) : State :=
  s.path.held.foldl (fun s x =>
    match s.freeTag x.port with
    | none => s
    | some tag =>
      let s := s.mapPath fun p => { p with held := p.held.erase x }
      if s.takes x.a then s.acceptTag x.a x.write x.be x.poison tag else s) s

/-! ### Waiting requests and notices -/

/-- Whether a waiting request may be tried again. -/
def State.retryable (s : State) (r : Req) : Bool :=
  match r.phase with
  | .order | .promote | .copyHold | .mergeFull | .window => true
  | .frame => decide (s.tier.freeFrames > 0) ||
      (!s.tier.exhausted && !s.demotionRuns (fun k => decide (k = .demotion) || decide (k = .emergencyDemotion)))
  | _ => false

/-- Writes or POQ operations are held by the window (09 R222, HARD_HIT of R248). -/
def State.holding (s : State) : Bool :=
  (s.path.reqs.any fun r => decide (r.phase = .window)) ||
    s.poq.ctxs.any fun p => match p.2 with | some q => q.execs.any (·.held) | none => false

/-- DIRTY_BYTES at or above the soft limit (09 R221, SOFT_HIT). -/
def State.softHit (s : State) : Bool := decide (s.dirtyBytes ≥ softOf s.shank.window s.shank.policy.softPct * mib64)

/-- STATE of a KIND 4 notice. -/
def State.windowState (s : State) : Fin 4 := if s.shank.short then 3 else if s.holding then 2 else if s.softHit then 1 else 0

/-- A KIND 4 notice whenever its STATE changes (14 R353). -/
def State.windowNotice (s : State) : State :=
  let v := s.windowState
  if v = s.shank.noticeState then s
  else postAll 4 [v.val, s.shank.window * mib64, s.dirtyBytes] (s.mapShank fun k => { k with noticeState := v })

/-- What waits goes on: migrations that wait for a tracker, the waiting requests in the order of their acceptance, then those that wait in the
ports. -/
def State.wake (s : State) : State :=
  let s := if s.path.fenced then s
    else ((s.path.reqs.map (·.tag)).foldl (fun s t =>
      match s.req t with
      | some r => if s.retryable r then s.dispatch false t else s
      | none => s) s.giveEngines.startWaiting).takeHeld
  s.windowNotice

end Sys2Proof.Machine
end

