-- ==== Sys2Proof/Machine/Repair.lean ====
section
/-! DEFINITION. The Welt engine at work (06): spare frames, moves of a member, the outcomes of a rebuild, the repair ladder, row
retirement; and the delivery of lines to the requests that wait for them (01 R14, R15). -/

namespace Sys2Proof.Machine

/-! ### Moves of a member (R134, R146) -/

/-- What a line that cannot be rebuilt leaves behind (R142). -/
def State.rebuildLost (s : State) (f l : Nat) : State :=
  let g := groupOf s.w f
  if s.metaLow ≤ g then (if g < s.queueLow then fire 66 s else s)
  else match (s.frameRec f).kind with
    | .hot | .free => s.poisonLine f l kindData
    | .bin =>
      match s.granuleOwner f l with
      | some (d, ch, j) => if ((s.entry d).chunk ch).cnt = 16 then s.granuleLost d ch j true else s
      | none => s
    | _ => s

/-- A parity line that fails together with data members: they are lost (R136, R142), and the parity is that of what the members then hold. -/
def State.parityPairLost (s : State) (g l : Nat) (reads : List MemberRead) (inj : Option (W32 × Bool)) : State :=
  let bad := (s.dataMembers g).filter fun f =>
    match s.readMember f l (upsetOf reads (channelOf s.w f)) with | some (_, ok) => !ok | none => true
  let s := bad.foldl (fun s f => (s.rebuildFails f l inj).rebuildLost f l) (s.dropParity g l)
  if (s.cachedParity g l).isSome then s
  else s.withParity g l fun s => s.putParity g l (parityOf (s.storedSum (s.dataMembers g) l))

/-- Writes a member's line at a physical frame p: the LCRC is re-formed and its change goes to the parity (R134). A parity member is copied or
recomputed; a line that cannot be rebuilt becomes poison, with the parity following, and a metadata line is lost (R142). -/
def State.moveLine (s : State) (f p l : Nat) (reads : List MemberRead) : State :=
  let g := groupOf s.w f
  if isParity s.w f then
    match (s.parityLine g l).orElse fun _ => s.rebuildParity g l reads with
    | some r => s.setParityRaw p g l r
    | none =>
      let s := s.parityPairLost g l reads none
      s.setParityRaw p g l (parityOf (s.storedSum (s.dataMembers g) l))
  else match s.contentOf f l Upset.none reads with
    | some old =>
      let new := freshRaw old.data (pla p l) (sideMeta old.side)
      let s := s.setRaw p l new
      if new = old then s else s.deltaParity g l (xorRaw old new)
    | none =>
      let s := s.rebuildFails f l none
      if s.metaGroup g then (if g < s.queueLow then fire 66 s else s)
      else
        let (n, s) := s.draw
        let new := freshRaw (Config.freeLine n) (pla p l) (metaOf (if (s.frameRec f).kind = .bin then kindGranule else kindData) true true)
        (s.setRaw p l new).coverParity f l new

/-- Moves every line of a member into spare o. The caller enters the new place. -/
def State.moveLines (s : State) (f o : Nat) (reads : List MemberRead) : State :=
  (List.range 64).foldl (fun s l => s.moveLine f (s.spareFrame o) l reads) s

/-- SRC_WELT_DOUBLED when the first group becomes DOUBLED. -/
def raiseDoubled (before : Nat) (s : State) : State := if before = 0 ∧ s.doubledGroups.length > 0 then fire 74 s else s

/-- Moves a member of a unit out of service into a spare frame. -/
def State.spareMember (s : State) (f o : Nat) (reads : List MemberRead) : State :=
  let n := s.doubledGroups.length
  raiseDoubled n ((s.moveLines f o reads).markMember f (.spared o))

/-- Moves a frame alone into a spare frame, recorded in the exception table (R146). -/
def State.exceptFrame (s : State) (f o : Nat) : State :=
  let n := s.doubledGroups.length
  let s := s.moveLines f o []
  raiseDoubled n (s.addException f (some o)).placeCopies

/-! ### Rows and the repair ladder (R143, R144) -/

def rowKey (ch idx : Nat) : Nat := ch * 256 + idx

def RowEntry.isAt (e : RowEntry) (p : Place) : Bool :=
  decide (e.state ≠ .free) && decide (e.row.toNat = p.row) && decide (e.ranksel = p.ranksel) && decide (e.bank = p.bankWord)

/-- The frames with a line in a row: the FPR frames of 07 R167. -/
def State.rowFrames (s : State) (ch : Nat) (e : RowEntry) : List Nat :=
  match (s.chan ch).dimm with
  | none => []
  | some d =>
    let pr := dimmRanks d
    let h := dimmStack d
    let nlr := max 1 ((s.chan ch).modules * pr * h)
    let fpr := if d.x8 then 2 else 4
    let lr := (fld e.ranksel 0 1 * pr + fld e.ranksel 1 2) * h + fld e.ranksel 3 3
    let bg := e.bank.toNat / 4
    let bank := e.bank.toNat % 4
    (List.range fpr).map fun slot => (bg + 8 * (bank + 4 * (lr + nlr * (slot + fpr * e.row.toNat)))) * s.w + ch

/-- A frame that has left use for good. -/
def State.frameRetired (s : State) (f : Nat) : Bool :=
  (s.welt.exceptions.any fun p => decide (p.1.toNat = f)) || decide ((s.frameRec f).kind = .retired)

/-- A spare frame holds a member. -/
def State.spareHolds (s : State) (o : Nat) : Bool := s.memberSpares.contains o

/-- A spare frame that holds a member gives it to another spare frame. -/
def State.reSpare (s : State) (o o' : Nat) : State :=
  let copy (s : State) (f : Nat) : State := (List.range 64).foldl (fun s l => s.moveLine f (s.spareFrame o') l []) s
  let s := s.unitsOut.foldl (fun s p =>
    match p.2.map.find? fun e => decide (e.2 = some (.spared o)) with
    | some (g, _) =>
      let s := copy s (g * s.w + p.2.channel.val)
      s.setUnit p.1 (some (p.2.setMember g (.spared o')))
    | none => s) s
  match s.welt.exceptions.find? fun p => decide (p.2 = some o) with
  | some (f, _) =>
    let s := copy s f.toNat
    s.mapWelt fun w => { w with exceptions := w.exceptions.map fun p => if p.1 = f then (f, some o') else p }
  | none => s

/-- Retires one frame as its kind requires (R146); a frame in use waits for the relocation of its pages. -/
def State.retireFrame (s : State) (f : Nat) : State :=
  if s.frameRetired f ∨ s.place f ≠ .at f then s
  else
    let g := groupOf s.w f
    let c := channelOf s.w f
    let spareLow := s.poolGroups
    let spareHigh := s.metaLow
    if spareLow ≤ g ∧ g < spareHigh then
      match s.spareAt g c with
      | none => s.setFrameRec f { frameReset with kind := .retired }
      | some o =>
        let s := if s.spareHolds o then
            match s.pickSpare g c with
            | some o' => s.reSpare o o'
            | none => s
          else s
        if s.spareHolds o then s else ((s.setFrameRec f { frameReset with kind := .retired }).countWelt 5).placeCopies
    else if isParity s.w f ∨ g ≥ spareHigh then
      match s.pickSpare g c with
      | some o => (s.exceptFrame f o).countWelt 5
      | none => s
    else match (s.frameRec f).kind with
      | .free => (s.loseFree 1).withdrawFrame f
      | _ => s

/-- A row goes to relocation; one whose retirement finds the exception table full stays HARD. -/
def State.relocateRow (s : State) (ch idx : Nat) : State :=
  let e := s.row (rowKey ch idx)
  let fs := s.rowFrames ch e
  if s.welt.exceptions.length + fs.length > Config.exceptionMax then s
  else
    let s := s.setRow (rowKey ch idx) { e with state := .relocating }
    fs.foldl State.retireFrame s

/-- Every device of a row's DEVICE_MASK reports a hard repair resource in the row's bank, and there is one (R144, 07 R181). -/
def State.rowRepairable (s : State) (ch : Nat) (e : RowEntry) : Bool :=
  decide (e.mask ≠ 0) && (List.range 20).all fun d =>
    !e.mask.getLsbD d || !(s.chan ch).noSpares.any fun x => decide (x.1 = e.ranksel) && decide (x.2.1 = e.bank) && decide (x.2.2.val = d)

/-- A row becomes HARD; one with an empty DEVICE_MASK, or on devices without a hard repair resource, goes to relocation. -/
def State.rowHard (s : State) (ch idx : Nat) (e : RowEntry) : State :=
  let s := (s.setRow (rowKey ch idx) { e with state := .hard }).countWelt 3
  if s.rowRepairable ch e then s else s.relocateRow ch idx

/-- An entry for a new row: a FREE one, else the oldest CANDIDATE, else after freeing REPAIRED and RETIRED entries of more than 30
days (R144). The oldest CANDIDATE is the one with the smallest LAST_TIME; the rule does not say which of its times counts (DESIGN CHOICE, log 147). -/
def State.newRow (s : State) (ch : Nat) : Option (Nat × State) :=
  let idxs := List.range 256
  let free (s : State) : Option Nat := idxs.find? fun i => decide ((s.row (rowKey ch i)).state = .free)
  match free s with
  | some i => some (i, s)
  | none =>
    let oldest := idxs.foldl (fun (b : Option Nat) i =>
      let e := s.row (rowKey ch i)
      if e.state = .candidate then
        match b with
        | none => some i
        | some j => if e.lastTime < (s.row (rowKey ch j)).lastTime then some i else b
      else b) none
    match oldest with
    | some i => some (i, s.setRow (rowKey ch i) rowReset)
    | none =>
      let old (i : Nat) : Bool :=
        let e := s.row (rowKey ch i)
        (decide (e.state = .repaired) || decide (e.state = .retired)) && decide (s.time - e.lastTime.toNat > 30 * Config.nsDay)
      let s := idxs.foldl (fun s i => if old i then s.setRow (rowKey ch i) rowReset else s) s
      (free s).map fun i => (i, s)

/-- One failure of a row on the ladder (R144). A REPAIRED row becomes HARD again as a CANDIDATE does (DEDUCED, log 42). -/
def State.rowFailure (s : State) (ch : Nat) (p : Place) (mask : BitVec 20) (verify : Bool) : State :=
  let now := BitVec.ofNat 64 s.time
  match (List.range 256).find? fun i => (s.row (rowKey ch i)).isAt p with
  | none =>
    match s.newRow ch with
    | none => fire 68 s
    | some (i, s) =>
      let e : RowEntry := { firstTime := now, lastTime := now, row := BitVec.ofNat 18 p.row, ranksel := p.ranksel, bank := p.bankWord
                            state := .candidate, count := 1, mask }
      if verify then s.rowHard ch i e else s.setRow (rowKey ch i) e
  | some i =>
    let e := s.row (rowKey ch i)
    let again := verify || decide (s.time - e.lastTime.toNat ≤ Config.nsDay)
    let e1 := { e with lastTime := now, count := if e.count = 255 then 255 else e.count + 1, mask := e.mask ||| mask }
    match e.state with
    | .candidate => if again then s.rowHard ch i e1
                    else s.setRow (rowKey ch i) { e1 with firstTime := now, count := 1, mask := mask }
    | .repaired =>
      if again then ((s.setRow (rowKey ch i) { e1 with state := .hard }).countWelt 3).relocateRow ch i
      else s.setRow (rowKey ch i) e1
    | _ => s.setRow (rowKey ch i) e1

/-- 64 or more distinct rows of one rank with a failed check within 1 s take the rank out (R150), whether or not the table holds them. -/
def State.rankFails (s : State) (ch : Nat) (rank : BitVec 3) : Bool :=
  decide (((s.welt.fails.filter fun x => decide (x.channel = ch) && decide (x.ranksel.extractLsb' 0 3 = rank)).map fun x => (x.ranksel, x.bank, x.row)).eraseDups.length ≥ 64)

/-- Notes a failed check in a row; failures of more than 1 s ago are forgotten. -/
def State.noteFail (s : State) (ch : Nat) (p : Place) : State :=
  let x : RowFail := { channel := ch, ranksel := p.ranksel, bank := p.bankWord, row := p.row, time := s.time }
  s.mapWelt fun w => { w with fails := (w.fails.filter fun y => decide (s.time - y.time ≤ 1000000000)) ++ [x] }

/-- A line of physical frame p failed its check: the ladder, and the rank leaves service when too many of its rows fail. -/
def State.lineFailure (s : State) (p l : Nat) (mask : BitVec 20) (verify : Bool) : State :=
  let ch := channelOf s.w p
  let pl := s.placeOf p l
  let s := (s.noteFail ch pl).rowFailure ch pl mask verify
  if s.rankFails ch pl.rank3 then s.unitOut { channel := ch, whole := false, ranksel := pl.rank3 } 0 none else s

def State.x8 (s : State) (p : Nat) : Bool := match (s.chan (channelOf s.w p)).dimm with | some d => d.x8 | none => false

/-! ### Injected line faults (16 R400, R401) -/

/-- An injection of KIND 1 or 2 that stands on a line of a frame. -/
def Injection.onLine (x : Injection) (s : State) (f l : Nat) : Bool :=
  x.marked && (decide (x.d.kind = 1) || decide (x.d.kind = 2)) && decide (fld x.d.address 6 6 = l)
    && decide ((s.entry (x.d.address.extractLsb' 12 32)).frame.toNat = f)

/-- The MASK of a line injection as a change of side bits: BPAR or LCRC. -/
def Injection.sideMask (x : Injection) : Side :=
  if x.d.kind = 1 then sideOf 0 (x.d.mask.extractLsb' 0 48) 0 else sideOf x.d.mask 0 0

/-- QUIESCE_CHANNEL and REJOIN_CHANNEL have ended the injections of KIND 4 on a channel (16 R400, R401). -/
def State.endChannelInj (s : State) (ch : Nat) : State :=
  (s.injs.filter fun p => decide (p.2.d.kind = 4) && decide (p.2.d.target.toNat = ch) && p.2.marked).foldl (fun s p =>
    s.setInj p.1 (if p.2.left = 0 then none else some { p.2 with marked := false })) s

/-- The injection to which a failing line is wholly attributed: KIND 4 of its channel, or KIND 1 or 2 whose undoing makes the line
pass. -/
def State.lineInj (s : State) (f l : Nat) (r : Raw) (err : Bool) : Option (W32 × Bool) :=
  let ch := channelOf s.w f
  match s.injs.find? fun p => p.2.marked && decide (p.2.d.kind = 4) && decide (p.2.d.target.toNat = ch) with
  | some p => some p.2.tag
  | none =>
    if err then none
    else match s.injs.find? fun p => p.2.onLine s f l && checkData { r with side := r.side ^^^ p.2.sideMask } (s.memberPla f l) with
      | some p => some p.2.tag
      | none => none

/-- A line that has been written again carries no injection; one that has no further application left is disarmed. -/
def State.clearLineInj (s : State) (f l : Nat) : State :=
  (s.injs.filter fun p => p.2.onLine s f l).foldl (fun s p =>
    s.setInj p.1 (if p.2.left = 0 then none else some { p.2 with marked := false })) s

/-! ### Delivery to requests -/

/-- A request that read one line, hot or a granule of a raw chunk, ends with it. -/
def State.endLine (s : State) (r : Req) (x : Option Raw) : State :=
  match x with
  | none => s.finishRead r none false
  | some raw =>
    if metaPoison (sideMeta raw.side) then s.finishRead r none false
    else
      let k := (r.key.getD 0).toNat
      let y := if (s.frameRec r.frame.toNat).kind = .bin then
          s.decGranule k r.dpn.toNat (r.line.val / 16) (r.line.val % 16) raw.data
        else s.decHot k r.dpn.toNat r.line.val raw
      (s.pmCrypto (if (s.frameRec r.frame.toNat).kind = .bin then 2 else 0)).finishRead r (some y) false

/-- A request that has its lines: one line ends it; a chunk goes to a decompressor (04 R87). -/
def State.gathered (s : State) (r : Req) : State :=
  let warm := decide ((s.frameRec r.frame.toNat).kind = .bin)
  if r.cnt = 1 ∧ (!warm ∨ r.raw) then
    s.endLine r (r.got.headD none)
  else
    let s := s.setPhase r.tag .decode
    s.startJob (.hostRead r.tag) r.dpn (r.line.val / 16) (s.entry r.dpn).owner (r.key.getD 0)

/-- A rebuilt line, or none, for a request. -/
def State.deliver (s : State) (tag : BitVec 13) (f l : Nat) (x : Option Raw) : State :=
  match s.req tag with
  | none => s
  | some r =>
    if r.phase ≠ .rebuild ∨ r.frame.toNat ≠ f then s
    else
      let got := r.got.set (l - r.off) x
      let smp := r.smp.map fun y => { y with rebuilt := true }
      let s := s.updReq tag fun r => { r with got, smp }
      if s.welt.rebuilds.any fun j => decide (j.forWhom = .request tag) then s
      else match s.req tag with
        | some r => s.gathered r
        | none => s

/-! ### Outcomes of a rebuild (R141, R142) -/

/-- A verify read of what has just been written becomes due (R141). -/
def State.queueVerify (s : State) (f l : Nat) (r : Raw) : State :=
  (s.mapWelt fun w => { w with verifies := w.verifies ++ [(BitVec.ofNat 32 f, Fin.ofNat 64 l, r)] }).charge mScrub (chargeRead 1)

/-- A hot line for which a host write stands in the buffer. -/
def State.writeStands (s : State) (f l : Nat) : Bool :=
  decide ((s.frameRec f).kind = .hot) && (s.frameRec f).dpns.any fun d => (s.buffered d l).isSome

/-- Write-back with fresh side bits and the verify read; a host write to the line that stands in the buffer takes its place, with the rebuilt value as its
old content and the verify read behind it. -/
def State.writeBack (s : State) (f l : Nat) (r : Raw) : State :=
  match s.place f with
  | .at p =>
    let raw := freshRaw r.data (pla p l) (sideMeta r.side)
    if s.writeStands f l then
      s.mapWelt fun w => { w with backs := w.backs ++ [{ frame := BitVec.ofNat 32 f, line := Fin.ofNat 64 l, raw := r, tag := none }] }
    else (((s.setRaw p l raw).lineStored f l raw).clearLineInj f l |>.charge mScrub 64).queueVerify f l raw
  | _ => s

/-- A write-back may go: its request has been answered (01 R14), and no buffered write takes its place. -/
def State.backDue (s : State) (b : WriteBack) : Bool :=
  match b.tag with
  | some t => (s.req t).isNone
  | none => !s.writeStands b.frame.toNat b.line.val

/-- The write-backs of rebuilt lines whose requests have been answered (01 R14). -/
def State.flushBacks (s : State) : State :=
  (s.welt.backs.filter s.backDue).foldl (fun s b =>
    if s.welt.backs.contains b then
      (s.mapWelt fun w => { w with backs := w.backs.erase b }).writeBack b.frame.toNat b.line.val b.raw
    else s) s

/-- A recomputed parity line is written to its place, and read again to verify it (R141, R142). -/
def State.writeParity (s : State) (f l : Nat) (r : Raw) : State :=
  let g := groupOf s.w f
  match s.place f with
  | .at p =>
    let s := if s.metaGroup g then s else (s.setParityRaw p g l r).dropParity g l
    ((s.lineStored f l r).charge mScrub 64).queueVerify f l r
  | _ => s.withParity g l fun s => s.putParity g l r

/-- Ends a rebuild: the line for whoever waits, counts, ladder, write-back or loss. `asRead` is the line as read. The write-back of a line that the
request `tag` waits for comes after its answer (01 R14). -/
def State.finishRebuild (s : State) (f l : Nat) (asRead : Option Raw) (reads : List MemberRead) (inj : Option (W32 × Bool))
    (tag : Option (BitVec 13) := none) : Option Raw × State :=
  let phys := match s.place f with | .at p => some p | _ => none
  let dpa := match (s.frameRec f).dpns with | d :: _ => d.toNat * 4096 | [] => 0
  -- the row enters the ladder (R144), unless the failure is an injection's
  let ladder (mask : BitVec 20) (s : State) : State :=
    match phys, asRead with
    | some p, some _ => if inj.isSome then s else s.lineFailure p l mask false
    | _, _ => s
  if isParity s.w f then
    match s.rebuildParity (groupOf s.w f) l reads with
    | some r =>
      let mask := match phys, asRead with | some p, some a => deviceMask (s.x8 p) a r | _, _ => 0
      (some r, ladder mask (s.writeParity f l r))
    | none => (none, ladder 0 (s.parityPairLost (groupOf s.w f) l reads inj))
  else match s.rebuildData f l reads with
    | some r =>
      let mask := match phys, asRead with | some p, some a => deviceMask (s.x8 p) a r | _, _ => 0
      let s := raise { Ev.of 64 with dpa, detail := s.lineDetail dpa f l mask, inj } (s.countWelt 0)
      let s := match tag with
        | some tag => s.mapWelt fun w => { w with backs := w.backs ++ [{ frame := BitVec.ofNat 32 f, line := Fin.ofNat 64 l, raw := r, tag := some tag }] }
        | none => s.writeBack f l r
      (some r, ladder mask s)
    | none => (none, ladder 0 ((s.rebuildFails f l inj).rebuildLost f l))

end Sys2Proof.Machine
end

