-- ==== Sys2Proof/Machine/HostOps.lean ====
section
/-! DEFINITION. The meanings of the host's requests and of what returns for them: reads, writes, merges, Last entries, lines,
rebuilds, verify reads, chunk decodes, and the delta write (01; 02; 04; 06). -/

namespace Sys2Proof.Machine

/-- CXL_MEM_READ (01 R12). -/
def execCxlMemRead (a : Access) (s : State) : Out := .next (s.accept a none (BitVec.allOnes 64) false).windowNotice

/-- CXL_MEM_WRITE (01 R18). -/
def execCxlMemWrite (a : Access) (data : Line) (poison : Bool) (s : State) : Out :=
  .next (s.accept a (some data) (BitVec.allOnes 64) poison).windowNotice

/-- PARTIAL_LINE_WRITE (06 R138). -/
def execPartialLineWrite (a : Access) (data : Line) (be : W64) (s : State) : Out := .next (s.accept a (some data) be false).windowNotice

/-- The member reads of a rebuild that a host access causes inline are charged to the LD (01 R22). -/
def State.chargeRebuild (s : State) (n f l : Nat) (u : Upset) : State :=
  match s.readMember f l u with
  | some (_, true) => s
  | _ => s.charge n (chargeRead (s.w - 1))

/-- The old line of a merge entry, rebuilt when it fails its check; none is poison. -/
def State.oldLine (s : State) (f l : Nat) (u : Upset) : Option Raw × State :=
  match s.readMember f l u with
  | some (r, true) => (some r, s)
  | other =>
    let asRead := match other, s.place f with | some (r, _), .at _ => some r | _, _ => none
    let inj := match asRead with | some r => s.lineInj f l r u.err | none => none
    s.finishRebuild f l asRead [] inj

/-- MERGE_OLD_LINE_ARRIVED (06 R138): the old line comes from the write buffer where it stands there, else from DRAM; the held bytes are applied, the merged
line enters the write buffer, its writes complete. -/
def execMergeOldLineArrived (dpn : Dpn) (line : Fin 64) (upset : Upset) (s : State) : Out :=
  match s.mergeOf dpn line.val with
  | none => .next s
  | some m =>
    let e := s.entry dpn
    if m.filled ∨ !e.hotForm then .next s
    else
      let (x, poison, s) := match s.buffered dpn line.val with
        | some w => (w.data, w.poison, s)
        | none =>
          let (old, s) := (s.chargeRebuild m.ld.val e.frame.toNat line.val upset).oldLine e.frame.toNat line.val upset
          match old with
          | some r => (s.decHot e.key.toNat dpn.toNat line.val r, metaPoison (sideMeta r.side), s)
          | none => (0, true, s)
      let y := mergeBytes x m.data m.be
      let s := s.bufferLine dpn line y poison (some m.ld)
      let s := s.completeMerge m
      let here (q : MergeEntry) : Bool := decide (q.dpn = dpn) && decide (q.line = line)
      let s := s.mapPath fun p =>
        { p with merge := replaceFirst here (fun q => { q with data := y, filled := true, entered := true, tags := [] }) p.merge }
      .next s.wake

/-- Requests that wait for a miss whose page is not in the queue enter it as far as it has room (02 R46). -/
def State.fillMissQueue (s : State) : State :=
  s.path.reqs.foldl (fun s r => if r.phase = .miss then s.missLast r else s) s

/-- LAST_ENTRY_RETURNED (02 R46): the entry is cached and the requests that waited for it go on, in order. -/
def execLastEntryReturned (dpn : Dpn) (s : State) : Out :=
  if s.last.missq.contains dpn then
    let s := s.mapLast fun l => { l with missq := l.missq.erase dpn }
    let s := if (s.pageWay dpn).isNone then s.cacheInsert dpn false (s.tableEntry dpn.toNat) else s
    let tags := (s.path.reqs.filter fun r => decide (r.dpn = dpn) && decide (r.phase = .miss)).map (·.tag)
    let s := tags.foldl (fun s t => s.dispatch true t) s
    .next s.fillMissQueue.wake
  else .next s

/-- Modified ways of the Last cache in set order. -/
def State.modifiedWays (s : State) : List (Nat × Nat × Way) :=
  s.last.cache.flatMap fun p => p.2.ways.filterMap fun w => match w.2 with
    | some x => if x.modified then some (p.1, w.1, x) else none
    | none => none

/-- Writes one modified way back to the Last table (02 R45). -/
def State.cleanWay (s : State) (x : Nat × Nat × Way) : State :=
  let s := s.putTable x.2.2.dpn x.2.2.entry
  let s := s.updCacheSet x.1 fun c => { c with ways := Tab.set (fun _ => none) x.2.1 (some { x.2.2 with modified := false }) c.ways }
  s.mapLast fun l => { l with modified := l.modified - 1 }

/-- LAST_CACHE_CLEAN (02 R45): while more than 1/8 of the cache is modified, entries are written back, in set order. -/
def execLastCacheClean (s : State) : Out :=
  let limit := Config.lastSets * Config.lastWays / 8
  .next ((s.modifiedWays.take (s.last.modified - limit)).foldl State.cleanWay s)

/-! ### The delta write (06 R133) -/

/-- The new stored form of a buffered line: ciphertext, or poison over a free value. -/
def State.bufferForm (s : State) (w : WbEntry) (e : LastEntry) : Line × W16 × State :=
  if w.poison then
    let (n, s) := s.draw
    (Config.freeLine n, metaOf kindData true true, s)
  else (s.encHot e.key.toNat w.dpn.toNat w.line.val w.data, metaOf kindData false true, s.pmCrypto 1)

/-- Writes a line over its old content, which is read with an upset and rebuilt when its check fails (R133). A write that takes the place of a
write-back uses the rebuilt value as its old content, and the verify read follows it (R141). -/
def State.deltaLine (s : State) (f l : Nat) (x : Line) (m : W16) (u : Upset) (reads : List MemberRead) : State :=
  let here := match s.place f with | .at _ => true | _ => false
  match s.welt.backs.find? fun b => decide (b.frame.toNat = f) && decide (b.line.val = l) with
  | some b => ((s.deltaWrite f l b.raw x m).clearLineInj f l).queueVerify f l (s.formLine f l x m)
  | none =>
    match s.readMember f l u with
    | some (r, true) => s.deltaWrite f l r x m
    | other =>
      let phys := match s.place f with | .at p => some p | _ => none
      let asRead := match other, phys with | some (r, _), some _ => some r | _, _ => none
      let inj := match asRead with | some r => s.lineInj f l r u.err | none => none
      let dpa := match (s.frameRec f).dpns with | d :: _ => d.toNat * 4096 | [] => 0
      match s.rebuildData f l reads with
      | some old =>
        let s := (s.deltaWrite f l old x m).countWelt 0
        let s := if here then s.queueVerify f l (s.formLine f l x m) else s
        let mask := match phys, asRead with | some p, some a => deviceMask (s.x8 p) a old | _, _ => 0
        let s := raise { Ev.of 64 with dpa, detail := s.lineDetail dpa f l mask, inj } s
        match phys, asRead with
        | some p, some _ => if inj.isSome then s.clearLineInj f l else s.lineFailure p l mask false
        | _, _ => s
      | none =>
        let s := (s.writeOverLost f l x m reads).rebuildFails f l inj
        match phys, asRead with
        | some p, some _ => if inj.isSome then s.clearLineInj f l else s.lineFailure p l 0 false
        | _, _ => s

/-- A read of the line that the tracker ordered before the buffered write is still at DRAM (01 R19). -/
def State.olderRead (s : State) (dpn : Dpn) (line : Nat) : Bool :=
  s.path.reqs.any fun r => decide (r.dpn = dpn) && decide (r.line.val = line) && r.write.isNone && !r.phase.waiting

/-- The master that a drained line is charged to: M_SAVE during a save, else the LD that wrote it, else M_POQ (01 R22). -/
def State.drainMaster (s : State) (w : WbEntry) : Nat :=
  if s.inSave then mSave else match w.ld with | some n => n.val | none => mPoq

/-- The WRITE message of a line that stands in DRAM from now on (08 R192). Its tag, one of the 4,096 of the engines (01 R21), is the number of
its place in the write buffer (DESIGN CHOICE, log 153). -/
def State.sendWrite (s : State) (master f l : Nat) : State :=
  match s.place f with
  | .at p =>
    let ch := channelOf s.w p
    let r : ChanReq := { tag := BitVec.ofNat 13 (4096 + s.path.wbuf.length), master := Fin.ofNat 39 master, priority := (s.master master).priority
                         rt := decide (master = mSave), write := true, frame := BitVec.ofNat 32 p, line := Fin.ofNat 64 l, count := 1, aged := false }
    s.post (s.route ch) .hub (writeMsg ch r (s.rawLine p l))
  | _ => s

/-- Carries a buffered line to DRAM: stored form, delta, compatibility entry (R147), buffer and merge entry freed. -/
def State.drainLine (s : State) (w : WbEntry) (u : Upset) (reads : List MemberRead) : State :=
  let e := s.entry w.dpn
  let f := e.frame.toNat
  let l := w.line.val
  let s := s.chargeRebuild (s.drainMaster w) f l u
  let (x, m, s) := s.bufferForm w e
  let s := s.deltaLine f l x m u reads
  let s := match s.compatOf w.dpn l with
    | some (i, c) => s.setCompat i (some { c with raw := freshRaw x (pla f l) m })
    | none => s
  let s := (s.charge (s.drainMaster w) chargeDeltaWrite).sendWrite (s.drainMaster w) f l
  let here (d : Dpn) (i : Fin 64) : Bool := decide (d = w.dpn) && decide (i = w.line)
  s.mapPath fun p => { p with wbuf := p.wbuf.filter fun q => !here q.dpn q.line, merge := p.merge.filter fun m => !(m.filled && here m.dpn m.line) }

/-- WELT_DELTA_WRITE (06 R133). -/
def execWeltDeltaWrite (dpn : Dpn) (line : Fin 64) (old : Upset) (reads : List MemberRead) (s : State) : Out :=
  match s.buffered dpn line.val with
  | none => .next s
  | some w =>
    if s.olderRead dpn line.val ∨ !(s.entry dpn).hotForm then .next s
    else .next (s.drainLine w old reads).wake

/-! ### Lines that return (08 R192, 06 R132, R140) -/

/-- One line of a LINE_DATA message for the request with its tag. -/
def State.takeLine (s : State) (x : LineEntry) : State :=
  match s.req x.tag with
  | none => s
  | some r =>
    if r.phase ≠ .line ∧ r.phase ≠ .chunk then s
    else
      let f := r.frame.toNat
      let l := r.off + r.got.length
      let s := match s.place f with | .at p => s.pmChan (channelOf s.w p) 1 | _ => s
      let read := match s.place f with
        | .at p =>
          let raw := (s.rawLine p l).flip x.upset
          (raw, !x.upset.err && checkData raw (pla p l))
        | _ => (zeroRaw, false)
      let s := if read.2 then s.updReq r.tag fun r => { r with got := r.got ++ [some read.1] }
        else
          let job : Rebuild := { frame := r.frame, line := Fin.ofNat 64 l, asRead := read.1, err := x.upset.err, forWhom := .request r.tag }
          let s := s.updReq r.tag fun r => { r with got := r.got ++ [none] }
          (s.mapWelt fun w => { w with rebuilds := w.rebuilds ++ [job] }).charge r.ld.val (chargeRead (s.w - 1))
      match s.req r.tag with
      | none => s
      | some r =>
        if r.got.length < r.cnt then s
        else
          let s := s.completeOne r.ld.val
          if s.welt.rebuilds.any fun j => decide (j.forWhom = .request r.tag) then s.setPhase r.tag .rebuild else s.gathered r


/-- REBUILD_COMPLETE (06 R142): the oldest rebuild of the line ends. -/
def execRebuildComplete (frame : Frame) (line : Fin 64) (reads : List MemberRead) (s : State) : Out :=
  match s.welt.rebuilds.find? fun j => decide (j.frame = frame) && decide (j.line = line) with
  | none => .next s
  | some j =>
    let s := s.mapWelt fun w => { w with rebuilds := w.rebuilds.erase j }
    let f := frame.toNat
    let asRead := match s.place f with | .at _ => some j.asRead | _ => none
    let inj := match asRead with | some r => s.lineInj f line.val r j.err | none => none
    let tag := match j.forWhom with | .request tag => some tag | _ => none
    let (x, s) := s.finishRebuild f line.val asRead reads inj tag
    let s := match tag with
      | some tag => (s.deliver tag f line.val x).flushBacks
      | none => s
    .next s.wake

/-- VERIFY_READ_RESULT (06 R141): the line as it stands is read again; a failed verify advances its row, with the devices in which it differs from the line as
written (R143). -/
def execVerifyReadResult (frame : Frame) (line : Fin 64) (upset : Upset) (s : State) : Out :=
  match s.welt.verifies.find? fun v => decide (v.1 = frame) && decide (v.2.1 = line) with
  | none => .next s
  | some v =>
    let s := s.mapWelt fun w => { w with verifies := w.verifies.erase v }
    match s.place frame.toNat with
    | .at p =>
      let r := (s.lineAt frame.toNat p line.val).flip upset
      let ok := if isParity s.w frame.toNat then checkParity r (s.parityAx (groupOf s.w frame.toNat) line.val) else checkData r (pla p line.val)
      if !upset.err ∧ ok then .next s
      else .next ((s.countWelt 2).lineFailure p line.val (deviceMask (s.x8 p) r v.2.2) true)
    | _ => .next s

/-! ### Chunk decode (04 R82, R90, R94) -/

/-- Step 1 of R90: the granules read again with what the new reads meet, rebuilt where they fail. -/
def State.rereadChunk (s : State) (r : Req) (rereads : List Upset) : List (Option Raw) :=
  (List.range r.cnt).map fun j => s.contentOf r.frame.toNat (r.off + j) (rereads.getD j Upset.none) []

/-- The requested line of decoded lines. -/
def lineOf (ls : List (Option Line)) (line : Nat) : Option Line := ls.getD (line % 16) none

/-- The lines of a request's granules, decrypted and decoded. -/
def State.reqPlain (s : State) (r : Req) (gs : List (Option Raw)) : Option (List (Option Line)) :=
  let c : Chunk := { off := BitVec.ofNat 6 r.off, cnt := BitVec.ofNat 5 r.cnt }
  let ch := r.line.val / 16
  let e : LastEntry := { LastEntry.zero with state := .warm, key := r.key.getD 0, frame := r.frame, c0 := c, c1 := c, c2 := c, c3 := c }
  s.chunkPlain r.dpn e ch gs

/-- What the codec and crypto units count for a decoded chunk (17 Table — Palfa events). -/
def State.chunkDecoded (s : State) (r : Req) : State := ((s.pmCodec 0).pmCodec 5 r.cnt).pmCrypto 2

/-- CHUNK_DECODE_DONE (04 R82): the result of the decompressor that holds the request's job. `bad` and `retryBad` say that a decode went wrong in the
engine; the result of a job that a fence has moved is dropped and counted (R94). A KIND 8 injection on the decompressor spoils its next decode (16 R400). -/
def execChunkDecodeDone (tag : BitVec 13) (decomp : Fin 16) (bad : Bool) (retryBad : Bool) (rereads : List Upset) (s : State) : Out :=
  let mine (j : CodecJob) : Bool := decide (j.user = .hostRead tag)
  match s.lateOn (8 + decomp.val) mine, s.req tag with
  | some j, _ => .next (s.dropLate j)
  | none, none => .next s
  | none, some r =>
    if r.phase ≠ .decode ∨ !s.jobOn (8 + decomp.val) mine then .next s
    else
      let ch := r.line.val / 16
      let (inj, s) := (s.endJobs mine).decodeSpoiled decomp.val
      match (if bad ∨ inj.isSome then none else s.reqPlain r r.got) with
      | some ls => .next ((s.chunkDecoded r).finishRead r (lineOf ls r.line.val) false).flushBacks.wake
      | none =>
        let dpa := r.dpn.toNat * 4096 + r.line.val * 64
        let s := raise { Ev.of 541 with dpa, detail := [dpa, ch], inj } (s.countCodec 3)
        match (if retryBad then none else s.reqPlain r (s.rereadChunk r rereads)) with
        | some ls => .next (((s.countCodec 4).chunkDecoded r).finishRead r (lineOf ls r.line.val) false).flushBacks.wake
        | none =>
          let e := s.entry r.dpn
          let s := (s.finishRead r none false).flushBacks
          if e.gen = r.gen ∧ e.warmForm then .next (s.mismatchTail r.dpn ch true).2.wake else .next s.wake

end Sys2Proof.Machine
end

