-- ==== Sys2Proof/Machine/Tiers.lean ====
section
/-! DEFINITION. The meanings of the tier manager's and the codec's steps (02 R50 to R54; 03; 04 R83 to R94). -/

namespace Sys2Proof.Machine

/-! ### Migrations -/

/-- A row under retirement holds the page's frame (06 R146). -/
def State.inRetirement (s : State) (f : Nat) : Bool :=
  let ch := channelOf s.w f
  (List.range 256).any fun i => decide ((s.row (rowKey ch i)).state = .relocating) && (s.rowFrames ch (s.row (rowKey ch i))).contains f

def granulesUsed (map : W64) : Nat := ((List.range 64).filter fun i => map.getLsbD i).length

/-- A bin is a compaction candidate while compaction runs (03 R64). -/
def State.compacts (s : State) (bin : Nat) : Bool :=
  decide ((s.frameRec bin).kind = .bin) && decide (granulesUsed (s.frameRec bin).map < 32) && decide (s.tier.freeFrames ≤ s.lowFrames)

/-- A PIN_HOT or PROMOTE stands at a page (03 R58). -/
def State.poqWants (s : State) (dpn : Dpn) : Bool :=
  s.poq.ctxs.any fun p => match p.2 with
    | some q => q.execs.any fun x => (decide (x.d.opcode = 3) || decide (x.d.opcode = 5)) && x.started && x.finished.isNone &&
        (match s.mapLdDpa q.ld.val (match (s.fn q.ld.val).head with | some h => h.val | none => 0) (x.d.dpa.toNat + x.pos) with
          | some t => decide (t.dpn = dpn)
          | none => false)
    | none => false

/-- The tier manager, or the block that moves the page, has a reason to start a migration of a kind: a write that waits (03 R58), the head of the
read-promotion queue above the low threshold (R59), a POQ operation at the page (R58), a candidate while demotion runs (R62), a bin in compaction (R64),
a frame of a unit out of service (06 R153), a row in retirement (06 R146), or a migration that waits for a tracker (02 R50). An emergency demotion starts
with the write that needs the frame (R66), a rebalance with its own command. -/
def State.migrationDue (s : State) (kind : MigKind) (dpn : Dpn) : Bool :=
  let f := (s.entry dpn).frame.toNat
  (s.last.waiting.any fun x => decide (x.1 = dpn) && decide (x.2.1 = kind)) ||
    match kind with
    | .writePromotion => s.path.reqs.any fun r => decide (r.dpn = dpn) && decide (r.phase = .promote)
    | .readPromotion => decide (s.tier.promoQueue.head? = some dpn) && decide (s.tier.freeFrames > s.lowFrames)
    | .poqPromotion => s.poqWants dpn
    | .demotion => s.tier.demoting && s.candidateOk dpn && (List.range 8).any fun b => (s.bucket b).contains dpn
    | .compaction => s.compacts f
    | .relocation => (s.unitOfFrame f).isSome
    | .retirement => s.inRetirement f
    | .emergencyDemotion | .aggressor | .rebalance => false

/-- What a migration that has started leaves: it waits no more, and neither the promotion queue nor the candidate pool names its page. -/
def State.migrationTaken (s : State) (kind : MigKind) (dpn : Dpn) : State :=
  let s := s.mapLast fun l => { l with waiting := l.waiting.filter fun x => decide (x.1 ≠ dpn) }
  match kind with
  | .readPromotion => s.mapTier fun t => { t with promoQueue := t.promoQueue.erase dpn }
  | .demotion => (List.range 8).foldl (fun s b => s.setBucket b ((s.bucket b).erase dpn)) s
  | _ => s

/-- MIGRATION_START (02 R50): a migration that is due takes a tracker; one that finds none free waits for one. -/
def execMigrationStart (dpn : Dpn) (kind : MigKind) (hint : Frame) (s : State) : Out :=
  if !s.migrationDue kind dpn then .next s
  else match s.startMigration kind dpn hint with
    | some s => .next (s.migrationTaken kind dpn).wake
    | none => .next (s.startOrWait kind dpn hint)

/-- Chunks that hold marked lines. -/
def chunksOf (map : W64) : BitVec 4 :=
  (List.range 4).foldl (fun m ch => if map.extractLsb' (16 * ch) 16 ≠ 0 then m ||| (1#4 <<< ch) else m) 0

/-- An abandoned demotion: counted, its codec jobs end (02 R54, 03 R63). -/
def State.abandonDemotion (s : State) (dpn : Dpn) : State := ((s.abandon dpn).countTier 3).giveEngines

/-- Another round of a demotion: the chunks with marked lines are coded again. -/
def State.recodeRound (s : State) (n : Nat) (t : Tracker) : State :=
  let cs := chunksOf t.map
  let coded := (List.range 4).foldl (fun c ch => if cs.getLsbD ch then Tab.set (fun _ => none) ch none c else c) t.coded
  let s := s.setTracker n (some { t with map := 0, round := t.round + 1, recode := cs, coded, mismatched := 0 })
  let user := if t.urgent then .urgentDemotion else .demotion
  (List.range 4).foldl (fun s ch => if cs.getLsbD ch then s.startJob user t.dpn ch t.source.owner t.source.key else s) s

/-- Coded chunks of a tracker; none when one is not coded. -/
def Tracker.allCoded (t : Tracker) : Option (List Coded) :=
  (List.range 4).foldr (fun ch acc => match acc, Tab.get (fun _ => none) t.coded ch with
    | some l, some c => some (c :: l)
    | _, _ => none) (some [])

/-- The end of a demotion round: exit, abandonment or another round (02 R54). -/
def State.closeDemotionRound (s : State) (n : Nat) (t : Tracker) (zero : Bool) : State :=
  if t.map = 0 then (s.flip n t zero).giveEngines
  else if t.round ≥ 3 then s.abandonDemotion t.dpn
  else s.recodeRound n t

/-- The bin of an emergency demotion: the one that its pages share while they fit, taken from the emergency bins (03 R66). -/
def State.emergencyDest (s : State) (dpn : Dpn) (counts : List Nat) (hint : Frame) : Option (Nat × List Chunk × State) :=
  match s.tier.emergencyBin with
  | some b =>
    let r := s.frameRec b.toNat
    if r.dpns.length < 4 then (placeChunks r.map counts).map fun cs => (b.toNat, cs, s.addToBin b.toNat dpn cs) else none
  | none =>
    match s.takeEmergency hint binRecord, placeChunks 0 counts with
    | some (f, s), some cs => some (f, cs, (s.mapTier fun t => { t with emergencyBin := some (BitVec.ofNat 32 f) }).addToBin f dpn cs)
    | _, _ => none

/-- The first placement of a demotion: the gain rule (03 R63), a bin (R64); at or below RESERVE a demotion gets no free frame as its bin (R61). A page of
an emergency demotion that does not fit in its bin stays HOT. -/
def State.placeDemotion (s : State) (n : Nat) (t : Tracker) (cs : List Coded) (hint : Frame) : State :=
  let counts := cs.map (·.cnt.toNat)
  if counts.sum = 0 then s.closeDemotionRound n { t with recode := 0 } true
  else if counts.sum > 64 - s.tier.policy.demoteMinGain then s.abandonDemotion t.dpn
  else match (if t.kind = .emergencyDemotion then s.emergencyDest t.dpn counts hint
      else s.binDest t.dpn counts (fun f => decide (f ≠ t.source.frame.toNat)) (decide (s.tier.freeFrames > s.reserveFrames)) hint) with
    | none => if t.kind = .emergencyDemotion then s.abandonDemotion t.dpn else s
    | some (f, place, s) =>
      let s := (s.putChunks t.dpn t.source.key.toNat f place (cs.zipIdx.map fun p => (p.2, p.1))).chargeMig t.kind 0 counts.sum
      let t := { t with dest := some (BitVec.ofNat 32 f), place, recode := 0 }
      (s.setTracker n (some t)).closeDemotionRound n t false

/-- A later round: each chunk coded again must fit its granules; a smaller one frees the rest. -/
def State.replaceChunks (s : State) (n : Nat) (t : Tracker) (cs : List Coded) : State :=
  let f := (t.dest.getD 0).toNat
  let again := (List.range 4).filter fun ch => t.recode.getLsbD ch
  let new (ch : Nat) : Nat := ((cs.map (·.cnt.toNat)).getD ch 0)
  if again.any fun ch => decide (new ch > (t.place.getD ch Chunk.none).cnt.toNat) then s.abandonDemotion t.dpn
  else
    let place := t.place.zipIdx.map fun p =>
      if again.contains p.2 then (if new p.2 = 0 then Chunk.none else { p.1 with cnt := BitVec.ofNat 5 (new p.2) }) else p.1
    let s := s.updFrameRec f fun r => { r with map := (r.map &&& ~~~(chunkMask t.place)) ||| chunkMask place }
    let s := s.putChunks t.dpn t.source.key.toNat f place
      (again.filterMap fun ch => (Tab.get (fun _ => none) t.coded ch).map fun c => (ch, c))
    let s := s.chargeMig t.kind (16 * again.length) (again.map new).sum
    let t := { t with place, recode := 0 }
    let s := s.setTracker n (some t)
    let zero := decide (place.all fun c => decide (c.cnt = 0))
    let s := if zero ∧ t.map = 0 then s.removeFromBin f t.dpn place else s
    s.closeDemotionRound n t zero

/-- The decodes of a promotion that hold a decompressor end. A decode that a KIND 8 injection spoils ends in a check mismatch, which the decode on
another decompressor clears (04 R90 step 1): what the chunk holds was readable when the promotion began. -/
def State.endDecodes (s : State) (dpn : Dpn) : State :=
  let mine (j : CodecJob) : Bool := decide (j.dpn = dpn) && (decide (j.user = .promotion) || decide (j.user = .writePromotion)) && j.engine.isSome
  let s := (s.codec.jobs.filter mine).foldl (fun s j =>
    match s.decodeSpoiled ((j.engine.getD 0).val - 8) with
    | (some inj, s) => (countMismatch dpn j.chunk s (some inj)).countCodec 4
    | (none, s) => s) s
  s.endJobs mine

/-- A decode of a promotion still waits for a decompressor. -/
def State.decodesWait (s : State) (dpn : Dpn) : Bool :=
  s.codec.jobs.any fun j => decide (j.dpn = dpn) && (decide (j.user = .promotion) || decide (j.user = .writePromotion))

/-- The end of a copy round towards a hot or warm frame without coding. -/
def State.closeCopyRound (s : State) (n : Nat) (t : Tracker) : State :=
  if t.map = 0 then s.flip n t false
  else
    let f := (t.dest.getD 0).toNat
    let e := s.entry t.dpn
    let marked := (List.range 64).filter fun l => t.map.getLsbD l
    let s := (marked.foldl (fun s l => s.copyHotLine t.dpn e f l) s).chargeMig t.kind marked.length marked.length
    s.setTracker n (some { t with map := 0, round := t.round + 1, holdWrites := t.holdWrites || decide (t.round ≥ 3) })

/-- MIGRATION_COPY_ROUND_DONE (02 R54): nothing happens while a write at the start generation is open or a chunk is not coded. -/
def execMigrationCopyRoundDone (n : Fin 256) (s : State) : Out :=
  match s.tracker n.val with
  | none => .next s
  | some t =>
    if t.flipped ∨ s.writesOpen t.dpn then .next s
    else if t.kind = .demotion ∨ t.kind = .emergencyDemotion then
      match t.allCoded with
      | none => .next s
      | some cs => .next (if t.dest.isNone then s.placeDemotion n.val t cs t.source.frame else s.replaceChunks n.val t cs).wake
    else
      let s := s.endDecodes t.dpn
      if s.decodesWait t.dpn then .next s else .next (s.closeCopyRound n.val t).wake

/-- MIGRATION_SOURCE_RELEASE (02 R52). -/
def execMigrationSourceRelease (n : Fin 256) (s : State) : Out := .next (s.tryRelease n.val).wake

/-! ### The codec (04 R83, R89, R94) -/

/-- CHUNK_CODED: the compressor's result for a chunk of a demotion whose job it holds, and its verify decode. The result of a job that a fence has moved
has an older job generation: it is dropped and counted. A CODED or REPEAT chunk that its verify finds different is coded again on another compressor, and
the second time stored headerless raw (R89). -/
def execChunkCoded (n : Fin 256) (chunk : Fin 4) (engine : Fin 8) (mismatch : Bool) (s : State) : Out :=
  match s.lateOn engine.val (fun j => decide (j.chunk = chunk.val)), s.tracker n.val with
  | some j, _ => .next (s.dropLate j)
  | none, none => .next s
  | none, some t =>
    let mine (j : CodecJob) : Bool := decide (j.dpn = t.dpn) && decide (j.chunk = chunk.val) && decide (j.user.kind = 0)
    if t.flipped ∨ !t.recode.getLsbD chunk.val ∨ (Tab.get (fun _ => none) t.coded chunk.val).isSome ∨ !s.jobOn engine.val mine then .next s
    else
      let ls := chunkLines (s.pageLines t.dpn) chunk.val
      let s := (s.pmCrypto 0 16).pmCodec 1
      let c := codeChunk 0 ls
      let verified := decide (c.cnt ≠ 0) && decide (c.cnt ≠ 16)
      let mismatch := mismatch && verified
      let s := if mismatch then raise { Ev.of 540 with dpa := t.dpn.toNat * 4096, detail := [t.dpn.toNat * 4096, chunk.val] } (s.countCodec 2) else s
      if mismatch ∧ !t.mismatched.getLsbD chunk.val then
        let user := if t.urgent then .urgentDemotion else .demotion
        let s := s.setTracker n.val (some { t with mismatched := t.mismatched ||| (1#4 <<< chunk.val) })
        .next ((s.endJobs mine).startJob user t.dpn chunk.val t.source.owner t.source.key (some (Fin.ofNat 26 engine.val)))
      else
        let c := if mismatch then rawChunk ls else c
        let s := if c.cnt = 16 then s.countCodec 1 else s
        .next (((s.countCodec 0).setTracker n.val (some { t with coded := Tab.set (fun _ => none) chunk.val (some c) t.coded })).endJobs mine)

/-! ### The decay sweep (03 R56, R57; 09 R242) -/

/-- Starts a pass: the whole decay periods since the start of the previous pass, the remainder carried. -/
def Tier.startPass (t : Tier) (now hostPages : Nat) : Tier :=
  let period := t.policy.decayMs * Config.nsMs
  let e := now - t.passStart + t.decayCarry
  { t with sweepPos := 0, passStart := now, passShift := e / max 1 period, decayCarry := e % max 1 period
           effectiveDecay := min (passLength t.policy t.rate hostPages / Config.nsMs) 65535 }

/-- Enters a candidate, which leaves the bucket of the pass before; a full bucket gives up its oldest entry (03 R57). -/
def State.enterCandidate (s : State) (dpn : Dpn) (heat : Nat) : State :=
  let b := bucketOf heat
  if (s.bucket b).contains dpn then s
  else
    let s := (List.range 8).foldl (fun s k => s.setBucket k ((s.bucket k).erase dpn)) s
    let l := s.bucket b
    s.setBucket b ((if l.length ≥ Config.bucketMax then l.tail else l) ++ [dpn])

/-- The heat map of a finished pass goes to the copy that is not current (09 R242). -/
def State.writeHeatMap (s : State) : State :=
  if s.shank.imageExists ∧ s.shank.saveStep = 0 then
    let s := s.mapImage fun i => { i with heatSeq := i.heatSeq + 1, heatOld := i.heat, heat := s.tier.heatMapWork }
    let s := s.writeImage (.heat s.image.heatSeq s.time s.heatBlocks s.tier.heatMapWork)
    s.mapTier fun t => { t with heatMapWork := [] }
  else s.mapTier fun t => { t with heatMapWork := [] }

/-- The sweep's traffic, charged to M_TIER (03 R71): one read for the four entries of a table line, and the write-back of a line in which a HEAT
changed (R56). -/
def State.chargeSweep (s : State) (pos : Nat) (changed : Bool) : State :=
  let s := if pos % 4 = 0 then s.charge mTier (chargeRead 1) else s
  let dirty := changed || s.tier.sweepDirty
  if pos % 4 = 3 then (if dirty then s.charge mTier chargeDeltaWrite else s).mapTier fun t => { t with sweepDirty := false }
  else s.mapTier fun t => { t with sweepDirty := dirty }

/-- DECAY_SWEEP_VISIT: the next entry of the pass. The table is walked from S1 on. -/
def execDecaySweepVisit (s : State) : Out :=
  if s.resume.level = 0 ∨ s.path.fenced ∨ s.last.hostPages = 0 then .next s
  else
    let pos := s.tier.sweepPos
    let dpn : Dpn := BitVec.ofNat 32 pos
    let e := s.entry dpn
    let h : Byte := e.heat >>> (min 8 s.tier.passShift)
    let s := if h = e.heat then s
      else if (s.pageWay dpn).isSome then s.touchEntry dpn fun e => { e with heat := h }
      else s.putTable dpn { s.tableEntry pos with heat := h }
    let s := s.chargeSweep pos (decide (h ≠ e.heat) && (s.pageWay dpn).isNone)
    let s := if e.state = .hot ∧ !e.pinned ∧ h.toNat ≤ s.tier.policy.demoteMaxHeat then s.enterCandidate dpn h.toNat else s
    let s := s.mapTier fun t =>
      let k := pos / 512
      let m := Tab.get (fun _ => 0) t.heatMapWork k
      { t with heatMapWork := Tab.set (fun _ => 0) k (if h > m then h else m) t.heatMapWork, sweepPos := pos + 1 }
    if pos + 1 ≥ s.last.hostPages then
      let s := s.writeHeatMap
      .next (s.mapTier fun t => t.startPass s.time s.last.hostPages)
    else .next s

/-! ### Promotion, demotion, compaction (03 R59, R62, R64) -/

/-- QUEUED_PROMOTION_START: the head of the queue, while FREE_FRAMES exceeds the low threshold. R59 does not say what becomes of a page at the head
that is IN_MOTION or no longer WARM: it is dropped from the queue (DESIGN CHOICE, log 140). -/
def execQueuedPromotionStart (hint : Frame) (s : State) : Out :=
  match s.tier.promoQueue with
  | [] => .next s
  | d :: r =>
    if s.tier.freeFrames ≤ s.lowFrames then .next s
    else
      let drop (s : State) : State := s.mapTier fun t => { t with promoQueue := r }
      if (s.entry d).state ≠ .warm then .next (drop s)
      else match s.startMigration .readPromotion d hint with
        | some s => .next (drop s).wake
        | none => .next s

/-- BACKGROUND_DEMOTION_START: a candidate of the lowest bucket, while background demotion runs. -/
def execBackgroundDemotionStart (hint : Frame) (s : State) : Out :=
  if !s.tier.demoting ∨ s.path.fenced ∨ s.allFenced 0 ∨ (s.freeTracker .demotion).isNone then .next s
  else match s.takeCandidate (8 * Config.bucketMax) with
    | (none, s) => .next s
    | (some d, s) => match s.startMigration .demotion d hint with
      | some s => .next s
      | none => .next s

/-- BIN_COMPACTION: a bin whose used granules are below 32, while FREE_FRAMES is at or below the low threshold; each of its pages
moves, and waits for a tracker where it finds none free (02 R50). -/
def execBinCompaction (bin : Frame) (hint : Frame) (s : State) : Out :=
  if s.compacts bin.toNat then
    .next ((s.frameRec bin.toNat).dpns.foldl (fun s d => s.startOrWait .compaction d hint) s)
  else .next s

/-- Frames in use on a channel. -/
def State.framesUsed (s : State) (c : Nat) : Nat :=
  (s.last.frames.filter fun p => decide (channelOf s.w p.1 = c) && (decide (p.2.kind = .hot) || decide (p.2.kind = .bin))).length

/-- A channel's in-use frames exceed the device mean by more than 1 % (06 R160). -/
def State.crowded (s : State) (c : Nat) : Bool :=
  decide (s.framesUsed c * s.w * 100 > ((List.range s.w).map s.framesUsed).sum * 101)

/-- REBALANCE (06 R160): after a rejoin a page leaves a crowded channel for the rejoined one, until no channel is crowded. -/
def execRebalance (dpn : Dpn) (hint : Frame) (s : State) : Out :=
  match s.welt.rebalance with
  | none => .next s
  | some c =>
    if !(List.range s.w).any s.crowded then .next (s.mapWelt fun w => { w with rebalance := none })
    else if !s.crowded (channelOf s.w (s.entry dpn).frame.toNat) then .next s
    else match s.nextFree (fun f => decide (channelOf s.w f = c.val)) (s.poolGroups * s.w) hint.toNat with
      | none => .next s
      | some f => .next (s.startOrWait .rebalance dpn (BitVec.ofNat 32 f))

/-! ### Release requests (03 R69) -/

/-- Written pages of a map entry. -/
def State.extentPages (s : State) (e : MapEntry) : List Dpn :=
  (s.last.table.keys.filter fun d => e.holdsDev d).map (BitVec.ofNat 32)

/-- Stored footprint of an extent in granules: 64 for a HOT page, its granules for a WARM page. -/
def State.footprint (s : State) (e : MapEntry) : Nat :=
  ((s.extentPages e).map fun d => let x := s.entry d; if x.hotForm then 64 else if x.warmForm then x.granules else 0).sum

def State.heatSum (s : State) (e : MapEntry) : Nat := ((s.extentPages e).map fun d => (s.entry d).heat.toNat).sum

/-- Dynamic-capacity extents with no pinned page, each once, with the LDs that hold it. -/
def State.releasable (s : State) : List (MapEntry × List (Fin 32)) :=
  let all := (List.range s.nLds).flatMap fun n => (s.map n).map fun e => (Fin.ofNat 32 n, e)
  let dc := all.filter fun p => p.2.valid && p.2.dc && !(s.extentPages p.2).any fun d => (s.entry d).pinned
  let firsts := dc.foldl (fun acc p => if acc.any fun (q : MapEntry) => decide (q.devBase = p.2.devBase) then acc else acc ++ [p.2]) []
  firsts.map fun e => (e, (dc.filter fun p => decide (p.2.devBase = e.devBase)).map (·.1))

/-- Order of R69: non-durable regions first, then the lowest summed HEAT. -/
def State.releaseOrder (s : State) (l : List (MapEntry × List (Fin 32))) : List (MapEntry × List (Fin 32)) :=
  sortBy (fun a b =>
    if a.1.durable ≠ b.1.durable then !a.1.durable else decide (s.heatSum a.1 < s.heatSum b.1)) l

/-- Extents until their footprints cover the shortfall. -/
def State.chooseRelease (s : State) (need : Nat) : List (MapEntry × List (Fin 32)) :=
  ((s.releaseOrder s.releasable).foldl (fun (acc : Nat × List (MapEntry × List (Fin 32))) p =>
    if acc.1 ≥ need then acc else (acc.1 + s.footprint p.1, acc.2 ++ [p])) (0, [])).2

/-- RELEASE_REEVALUATION: extents of the last request that are still held count as declined; below PRESSURE a new request goes
out. -/
def execReleaseReevaluation (s : State) : Out :=
  let held := s.tier.release.filter fun p => (s.map p.1.val).any fun e => e.valid && e.dc && decide (e.tag = p.2.1) && decide (e.devBase = p.2.2)
  let s := (held.map (·.2)).eraseDups.foldl (fun s _ => fire 34 s) s
  let s := s.mapTier fun t => { t with release := [], releasePending := false }
  if s.tier.poolFrames = 0 ∨ s.tier.freeFrames > s.pressureFrames then .next s
  else
    let need := (s.highFrames - s.tier.freeFrames) * 64
    let chosen := s.chooseRelease need
    let req := chosen.flatMap fun p => p.2.map fun n => (n, p.1.tag, p.1.devBase)
    let s := s.emits (req.map fun r => .releaseRequest r.1 r.2.1)
    let s := s.mapTier fun t => { t with release := req, releasePending := !req.isEmpty }
    .next (s.countTier 7 chosen.length)

/-! ### On-chip parity errors (06 R129, R130, R136, R138; 04 R94; 15 R366) -/

/-- The KIND 3 injection that an error in a block is attributed to (16 R400). -/
def State.takeOnchip (s : State) (target : Nat) : Option (W32 × Bool) × State :=
  match s.injs.find? fun p => decide (p.2.d.kind = 3) && p.2.due && decide (p.2.d.target.toNat = target) with
  | none => (none, s)
  | some (n, x) => (some x.tag, s.spendInj n x)

/-- SRC_HUB_PARITY. -/
def hubParity (inj : Option (W32 × Bool)) (s : State) : State := raise { Ev.of 0 with inj } s

/-- A dirty parity line that failed: recomputed from its data members; a member that fails too is lost with it (R136, R142). -/
def State.parityLost (s : State) (g l : Nat) (reads : List MemberRead) (inj : Option (W32 × Bool)) : State :=
  let s := raise { Ev.of 67 with inj } (s.countWelt 7)
  match s.rebuildParity g l reads with
  | some p => s.putParity g l p
  | none => s.parityPairLost g l reads inj

/-- Both copies of a write-buffer line failed (R130). -/
def State.bufferLost (s : State) (w : WbEntry) : State :=
  let s := s.drainLine { w with poison := true } Upset.none []
  let dpa := w.dpn.toNat * 4096 + w.line.val * 64
  raise { Ev.of 16 with dpa, detail := [dpa] } (s.setDirty w.dpn)

/-- Both copies of the modified fields of a cached entry failed (R130). -/
def State.cacheFieldsLost (s : State) (dpn : Dpn) (k i : Nat) (w : Way) : State :=
  let e := s.tableEntry dpn.toNat
  let queued := s.shank.queue.any fun q => decide (q.dpn = dpn) && decide (q.kind = .changed)
  let s := s.putWay k i { w with entry := { e with dirty := e.durable }, modified := e.durable && !e.dirty }
  let s := if e.durable ∧ !queued then s.queueShadow dpn .changed else s
  raise { Ev.of 642 with dpa := dpn.toNat * 4096 } s

/-- ONCHIP_PARITY_ERROR: the operation is carried out again, or the content comes from its second copy; what the four structures
that hold content alone do is R130, R136 and R138. -/
def execOnchipParityError (b : ParityBlock) (reads : List MemberRead) (s : State) : Out :=
  match b with
  | .parityCache group line =>
    match s.cachedParity group.toNat line.val with
    | none => .next s
    | some p =>
      let (inj, s) := s.takeOnchip 0
      if p.dirty then .next (s.parityLost group.toNat line.val reads inj)
      else .next (hubParity inj (s.mapWelt fun w => { w with pcache := w.pcache.erase p }))
  | .mergeBuffer dpn line =>
    if (s.mergeOf dpn line.val).isNone then .next s
    else let (inj, s) := s.takeOnchip 1; .next (hubParity inj s)
  | .writeBuffer dpn line both =>
    match s.buffered dpn line.val with
    | none => .next s
    | some w => if both ∧ (s.entry dpn).hotForm then .next (s.bufferLost w).wake else .next (hubParity none s)
  | .lastCache dpn both =>
    match s.pageWay dpn with
    | none => .next s
    | some (k, i, w) => if both ∧ w.modified then .next (s.cacheFieldsLost dpn k i w) else .next (hubParity none s)
  | .codecEngine n =>
    if s.engineFenced n.val then .next s
    else let (inj, s) := s.takeOnchip (2 + n.val); .next (s.engineParity n.val inj)
  | .core n =>
    if (s.core n.val).1 then .next s
    else let (inj, s) := s.takeOnchip (28 + n.val); .next (s.coreParity n.val inj)
  | .other => .next (hubParity none s)

end Sys2Proof.Machine
end

