-- ==== Sys2Proof/Machine/WeltOps.lean ====
section
/-! DEFINITION. The meanings of the Welt engine's own steps (06): parity cache, repair ladder, retirement, scrub, the rebuild and
the rejoin of a unit; and the Welt and compatibility commands (14). -/

namespace Sys2Proof.Machine

/-! ### Parity cache (R135) -/

def State.dirtyParity (s : State) : List ParityLine := s.welt.pcache.filter (·.dirty)

/-- PARITY_CACHE_CLEAN: while more than 3/4 of the cache is dirty, the oldest dirty lines are written back; not during a save (R137). -/
def execParityCacheClean (s : State) : Out :=
  let d := s.dirtyParity
  if s.inSave then .next s
  else .next ((d.take (d.length - Config.parityLines * 3 / 4)).foldl State.writeBackParity s)

/-! ### The repair ladder (R144 to R146, R181) -/

/-- CANDIDATE_EXPIRY (R144): a CANDIDATE that had no further failure for 24 h is freed. -/
def execCandidateExpiry (ch : Fin 12) (idx : Fin 256) (s : State) : Out :=
  let k := rowKey ch.val idx.val
  if (s.row k).state = .candidate then .next (s.setRow k rowReset) else .next s

def RowEntry.scope (e : RowEntry) (ch : Nat) : Scope := { channel := ch, whole := false, ranksel := e.ranksel.extractLsb' 0 3 }

/-- The device positions of DEVICE_MASK. -/
def RowEntry.devices (e : RowEntry) : List Nat := (List.range 20).filter e.mask.getLsbD

/-- ROW_REPAIR_START (R145): the row's rank leaves as a temporary unit; no other unit may be out, and no save or resume runs. The devices of DEVICE_MASK
are addressed one by one (07 R181). -/
def execRowRepairStart (ch : Fin 12) (idx : Fin 256) (s : State) : Out :=
  let k := rowKey ch.val idx.val
  let e := s.row k
  if e.state = .hard ∧ s.rowRepairable ch.val e ∧ s.unitsOut.isEmpty ∧ !s.inSave ∧ !s.inResume then
    let s := s.unitOut (e.scope ch.val) 2 none
    let s := match s.unitFor (e.scope ch.val) with
      | some (n, u) => s.setUnit n (some { u with repair := some k })
      | none => s
    .next (s.emits (e.devices.map fun d => .ddr ch "hard post-package repair" d))
  else .next s

/-- REPAIR_WAIT_EXPIRY (R144): a HARD row that has waited 7 days goes to relocation. -/
def execRepairWaitExpiry (ch : Fin 12) (idx : Fin 256) (s : State) : Out :=
  if (s.row (rowKey ch.val idx.val)).state = .hard then .next (s.relocateRow ch.val idx.val) else .next s

/-- Marks frames STALE and starts the rejoin of a unit. -/
def State.rejoinStale (s : State) (n : Nat) (fs : List Nat) : State :=
  let s := fs.foldl (fun s f => s.markMember f .stale) s
  match s.unit n with
  | some u => s.setUnit n (some { u with state := 5, progress := 0 })
  | none => s

/-- POST_PACKAGE_REPAIR_DONE (07 R181): the row has been written and read on the repaired devices; it is REPAIRED, or HARD again and goes on under R144. Its
frames are STALE and the rank rejoins. -/
def execPostPackageRepairDone (ch : Fin 12) (idx : Fin 256) (ok : Bool) (s : State) : Out :=
  let k := rowKey ch.val idx.val
  let e := s.row k
  match s.unitFor (e.scope ch.val) with
  | none => .next s
  | some (n, u) =>
    if u.repair = some k ∧ e.state = .hard ∧ u.cause = 2 ∧ u.state = 0 ∧ !u.wholeChannel then
      let fs := s.rowFrames ch.val e
      let s := s.emits ((e.devices).flatMap fun d => [.ddr ch "write repaired row" d, .ddr ch "read repaired row" d])
      let s := if ok then (s.setRow k { e with state := .repaired }).countWelt 4 else s.rowHard ch.val idx.val e
      .next (s.rejoinStale n fs)
    else .next s

/-- ROW_RETIRED (R146): what can be retired is; the entry is RETIRED once every frame of the row has left use. -/
def execRowRetired (ch : Fin 12) (idx : Fin 256) (s : State) : Out :=
  let k := rowKey ch.val idx.val
  let e := s.row k
  if e.state ≠ .relocating then .next s
  else
    let fs := s.rowFrames ch.val e
    let s := fs.foldl State.retireFrame s
    if fs.all s.frameRetired then .next (s.setRow k { e with state := .retired }) else .next s

/-! ### Scrub (R148, R149) -/

/-- The member that a spare frame holds. -/
def State.spareMemberOf (s : State) (o : Nat) : Option Nat :=
  ((s.unitsOut.findSome? fun p =>
    (p.2.map.find? fun e => decide (e.2 = some (.spared o))).map fun e => e.1 * s.w + p.2.channel.val)).orElse fun _ =>
    (s.welt.exceptions.find? fun p => decide (p.2 = some o)).map (·.1.toNat)

/-- The member whose line scrub reads at a physical frame; none where it skips the frame: a unit out of service, a retired frame,
a free spare frame, a frame whose member lies elsewhere, the unused parity place of a spare group. -/
def State.scrubTarget (s : State) (f : Nat) : Option Nat :=
  let g := groupOf s.w f
  if (s.unitOfFrame f).isSome ∨ (s.frameRec f).kind = .retired then none
  else if s.poolGroups ≤ g ∧ g < s.metaLow then
    if isParity s.w f then none else s.spareMemberOf (dataIndex s.w f - s.poolGroups * (s.w - 1))
  else if s.place f = .at f then some f else none

/-- Moves the scrub on; a pass over every line ends with a count. -/
def State.scrubOn (s : State) : State :=
  if s.welt.scrubPos + 1 ≥ s.groups * s.w * 64 then (s.mapWelt fun w => { w with scrubPos := 0 }).countWelt 6
  else s.mapWelt fun w => { w with scrubPos := w.scrubPos + 1 }

/-- A line as scrub reads it, and whether it passes. -/
def State.scrubRead (s : State) (f l : Nat) (u : Upset) : Option (Raw × Bool) :=
  if isParity s.w f then
    match s.place f with
    | .at p => let r := (s.lineAt f p l).flip u
               some (r, (s.cachedParity (groupOf s.w f) l).isSome || (!u.err && checkParity r (s.parityAx (groupOf s.w f) l)))
    | _ => none
  else s.readMember f l u

/-- SCRUB_LINE: the next line of the pass; one that fails is rebuilt and enters the ladder. -/
def execScrubLine (upset : Upset) (reads : List MemberRead) (s : State) : Out :=
  if s.groups = 0 ∨ s.inSave ∨ s.resume.level = 0 then .next s
  else
    let f := s.welt.scrubPos / 64
    let l := s.welt.scrubPos % 64
    let t := s.scrubTarget f
    let s := s.scrubOn
    match t with
    | none => .next s
    | some m =>
      let s := s.charge mScrub (chargeRead 1)
      match s.scrubRead m l upset with
      | some (r, false) =>
        let s := s.charge mScrub (chargeRead (s.w - 1))
        .next (s.finishRebuild m l (some r) reads (s.lineInj m l r upset.err)).2.wake
      | _ => .next s

/-- ECS_READ (R149). A worst row that already stands in the table is left as it is: the rule enters rows only (DESIGN CHOICE, log 148). -/
def execEcsRead (ch : Fin 12) (ranksel : BitVec 6) (device : Fin 20) (count : W16) (bank : BitVec 5) (row : BitVec 18) (s : State) : Out :=
  if s.hasChannel ch.val ∧ count.toNat > s.welt.policy.ecsLimit then
    let s := raise { Ev.of 71 with detail := [0, 0, 0, ch.val, ranksel.toNat, bank.toNat, row.toNat, 2 ^ device.val] } s
    let here (i : Nat) : Bool :=
      let e := s.row (rowKey ch.val i)
      decide (e.state ≠ .free) && decide (e.row = row) && decide (e.ranksel = ranksel) && decide (e.bank = bank)
    if (List.range 256).any here then .next s
    else match s.newRow ch.val with
      | none => .next (fire 68 s)
      | some (i, s) =>
        let now := BitVec.ofNat 64 s.time
        .next (s.setRow (rowKey ch.val i) { firstTime := now, lastTime := now, row, ranksel, bank, state := .candidate, count := 0
                                            mask := 1#20 <<< device.val })
  else .next s

/-! ### Rebuild of a unit (R153, R154) -/

/-- Spare frames that have left the reserve (R146). -/
def State.retiredSpares (s : State) : Nat :=
  (s.last.frames.filter fun p =>
    decide (p.2.kind = .retired) && decide (s.poolGroups ≤ groupOf s.w p.1) && decide (groupOf s.w p.1 < s.metaLow)).length

/-- The rebuild has no spare frame for a member. -/
def State.spareShort (s : State) (n : Nat) (u : UnitSlot) : State :=
  let s := s.setUnit n (some { u with exhausted := true })
  if u.exhausted then s else fire 73 s

/-- The next group of a rebuild; `left` says that its member stays STALE. STATE is REBUILDING (R153). -/
def State.rebuildOn (s : State) (n : Nat) (left : Bool) : State :=
  match s.unit n with
  | some u => s.setUnit n (some { u with progress := u.progress + 1, left := u.left || left, state := if u.state = 3 then 3 else 1 })
  | none => s

/-- The rebuild has ended: HELD with STALE members left, else REBUILT (R153). -/
def State.rebuildEnds (s : State) (n : Nat) (held : Bool) : State :=
  match s.unit n with
  | some u => s.setUnit n (some { u with left := u.left || held, state := if u.state = 3 then 3 else if u.left || held then 2 else 6 })
  | none => s

/-- Moves one member into a spare frame; none when there is no spare. -/
def State.spareOne (s : State) (f : Nat) (reads : List MemberRead) : Option State :=
  (s.pickSpare (groupOf s.w f) (channelOf s.w f)).map fun o => (s.spareMember f o reads).charge mScrub (chargeRead (64 * s.w))

/-- The frame of the metadata or parity group that a rebuild has reached, on the unit and not yet moved. -/
def State.preludeFrame (s : State) (u : UnitSlot) : Option Nat :=
  let c := u.channel.val
  let f := if u.progress < s.metaCount then (s.metaLow + u.progress) * s.w + c else (c + s.w * (u.progress - s.metaCount)) * s.w + c
  let g := groupOf s.w f
  let wanted := if u.progress < s.metaCount then !isParity s.w f else decide (g < s.groups) && !(decide (s.poolGroups ≤ g) && decide (g < s.metaLow))
  if wanted && u.scope.holds s f && decide (s.place f = .missing) then some f else none

/-- A member that stands in for another unit in a spare frame of this one. -/
def State.spareToMove (s : State) (u : UnitSlot) : Option Nat :=
  (s.unitsOut.findSome? fun p => p.2.map.findSome? fun e => match e.2 with
    | some (.spared o) => if u.scope.holds s (s.spareFrame o) then some o else none
    | _ => none).orElse fun _ =>
    s.welt.exceptions.findSome? fun p => match p.2 with
      | some o => if u.scope.holds s (s.spareFrame o) then some o else none
      | none => none

/-- Relocates the pages of a frame that no spare can take. -/
def State.relocatePages (s : State) (f : Nat) : State :=
  (s.frameRec f).dpns.foldl (fun s d => s.startOrWait .relocation d (BitVec.ofNat 32 f)) s

/-- UNIT_REBUILD_STEP: the next metadata, parity or data frame of a failed or quiesced unit; what no spare frame can take stays STALE, or for a data
frame has its pages relocated while FREE_FRAMES is above FREE_LOW. -/
def execUnitRebuildStep (slot : Fin 4) (reads : List MemberRead) (s : State) : Out :=
  match s.unit slot.val with
  | none => .next s
  | some u =>
    if u.cause = 2 ∨ u.state = 2 ∨ u.state = 4 ∨ u.state = 5 ∨ u.state = 6 ∨ u.base = .withdrawn ∨ s.inSave then .next s
    else if u.progress < s.rebuildPrelude then
      match s.preludeFrame u with
      | none => .next (s.rebuildOn slot.val false)
      | some f => match s.spareOne f reads with
        | some s => .next (s.rebuildOn slot.val false)
        | none => .next ((s.spareShort slot.val u).rebuildOn slot.val true)
    else match s.spareToMove u, s.nextStale u.scope with
      | some o, _ =>
        match s.pickSpare (groupOf s.w (s.spareFrame o)) u.channel.val with
        | some o' => .next ((s.reSpare o o').rebuildOn slot.val false)
        | none => .next ((s.spareShort slot.val u).rebuildEnds slot.val true)
      | none, some f =>
        match s.spareOne f reads with
        | some s => .next (s.rebuildOn slot.val false)
        | none =>
          let s := s.spareShort slot.val u
          if s.tier.freeFrames ≤ s.lowFrames then .next (s.rebuildEnds slot.val true)
          else .next ((s.relocatePages f).rebuildOn slot.val false)
      | none, none => .next (s.rebuildEnds slot.val false)

/-! ### Rejoin of a unit (R158) -/

/-- Writes a line of a member back to its own frame: a STALE member is rebuilt, a SPARED one copied back, a WITHDRAWN one becomes zero-filled with its
parity delta; a CURRENT one stands. -/
def State.resolveLine (s : State) (f l : Nat) (u : UnitSlot) (reads : List MemberRead) : State :=
  match u.member (groupOf s.w f), s.place f with
  | .current, _ => s
  | _, .known => if isParity s.w f then s.moveLine f f l reads else s.setRaw f l (freshRaw 0 (pla f l) 0)
  | _, _ => s.moveLine f f l reads

/-- A frame that was retired alone on a serviced channel is FREE again: from its spare frame, or zero-filled with its parity
delta. -/
def State.unretire (s : State) (f : Nat) : State :=
  let s := match s.welt.exceptions.find? fun p => decide (p.1.toNat = f) with
    | some (_, some _) => (List.range 64).foldl (fun (s : State) l => s.moveLine f f l []) s
    | some (_, none) =>
      (List.range 64).foldl (fun (s : State) l =>
        let new := freshRaw 0 (pla f l) 0
        (s.setRaw f l new).deltaParity (groupOf s.w f) l new) s
    | none => s
  let s := s.mapWelt fun w => { w with exceptions := w.exceptions.filter fun p => p.1.toNat ≠ f }
  if (s.frameRec f).kind = .retired then s.setFrameRec f (s.frameDefault f) else s

/-- A free data frame of the pool that is back in service. -/
def State.poolGains (s : State) (f : Nat) : State :=
  if s.poolFree f ∧ groupOf s.w f < s.resume.initGroups ∧ s.place f = .at f then
    (s.mapTier fun t => { t with freeFrames := t.freeFrames + 1 }).afterFree
  else s

/-- Resolves the member of one group. A unit that was out for a repair or a frequency change keeps its retired frames. -/
def State.resolveGroup (s : State) (n : Nat) (u : UnitSlot) (reads : List MemberRead) : State :=
  let g := u.progress
  let f := g * s.w + u.channel.val
  let next (s : State) : State :=
    match s.unit n with
    | some u => s.setUnit n (some { u.setMember g u.base with progress := g + 1 })
    | none => s
  if (s.unitOfFrame f).map (·.1) ≠ some n then next s
  else
    let alone := s.frameRetired f
    let s := if alone then s else (List.range 64).foldl (fun s l => s.resolveLine f l u reads) s
    let s := s.charge mScrub (chargeRead (64 * s.w))
    let s := next s
    let s := if alone ∧ u.cause ≠ 2 then s.unretire f else s
    s.poolGains f

/-- UNIT_MAP_RESOLVE: the next group of a rejoining unit; after the last the unit is back in service. -/
def execUnitMapResolve (slot : Fin 4) (reads : List MemberRead) (s : State) : Out :=
  match s.unit slot.val with
  | none => .next s
  | some u =>
    if u.state ≠ 5 ∨ s.inSave then .next s
    else if u.progress ≥ s.groups then .next (s.unitIn slot.val u)
    else
      let s := s.resolveGroup slot.val u reads
      match s.unit slot.val with
      | some u => if u.progress ≥ s.groups then .next (s.unitIn slot.val u).wake else .next s.wake
      | none => .next s.wake

/-! ### Commands (14) -/

/-- WELT_POLICY (R161) from its register word; none breaks a limit. -/
def weltPolicyOf (w : W64) : Option WeltPolicy :=
  let p : WeltPolicy := { scrubDays := fld w 0 5, sparePermille := fld w 5 7, quietPct := fld w 12 7, rebuildBw := fld w 32 16
                          ecsLimit := fld w 48 16 }
  if 1 ≤ p.scrubDays ∧ p.scrubDays ≤ 30 ∧ 10 ≤ p.sparePermille ∧ p.sparePermille ≤ 100 ∧ 1 ≤ p.rebuildBw ∧ p.rebuildBw ≤ 1024
  then some p else none

/-- SET_WELT_POLICY (R161). -/
def execSetWeltPolicy (m : Msg) (policy : W64) (s : State) : Out :=
  s.slafin { op := 0xC080, roles := rBmcOwn, sess := false, l0 := true, secure := false, inLen := 8, body := 0 } m fun s =>
    match weltPolicyOf policy with
    | some p => .done stOk [] (s.mapWelt fun w => { w with policy := p })
    | none => .done stInvalidRange [] s

/-- A repair-candidate entry as its 32 bytes (R143). -/
def RowState.code : RowState → Nat
  | .free => 0 | .candidate => 1 | .hard => 2 | .repaired => 3 | .relocating => 4 | .retired => 5

def RowEntry.bytes (e : RowEntry) : List Byte :=
  leBytes 8 e.firstTime ++ leBytes 8 e.lastTime ++ leNat 4 e.row.toNat ++ leNat 1 e.ranksel.toNat ++ leNat 1 e.bank.toNat
    ++ leNat 1 e.state.code ++ leNat 1 e.count.toNat ++ leNat 4 e.mask.toNat ++ zeros 4

/-- GET_REPAIR_TABLE (R143): all 256 entries in order; the cursor is an entry's index (log 45). -/
def execGetRepairTable (m : Msg) (channel : Byte) (cursor : W32) (max : W32) (s : State) : Out :=
  s.slafin { op := 0xC085, roles := rFmBmcOwn, sess := false, l0 := false, secure := false, inLen := 12, body := 8 } m fun s =>
    if !s.hasChannel channel.toNat ∨ cursor.toNat ≥ 256 then .done stInvalidRange [] s
    else
      let n := fits m 8 32 max.toNat (256 - cursor.toNat)
      let es := (List.range n).flatMap fun i => (s.row (rowKey channel.toNat (cursor.toNat + i))).bytes
      .done stOk (leNat 4 n ++ leNat 4 (nextCursor cursor.toNat n 256) ++ es) s

/-- The entry for a line: the one that holds it, else a free one. -/
def State.compatSlot (s : State) (dpa : W64) : Option Nat :=
  ((List.range 8).find? fun i => match s.compat i with | some c => decide (c.dpa = dpa) | none => false).orElse fun _ =>
    (List.range 8).find? fun i => (s.compat i).isNone

/-- COMPAT_REMAP (R147): the entry takes the line's current content; a page that is not HOT has none to take (log 46). -/
def execCompatRemap (m : Msg) (dpa : W64) (s : State) : Out :=
  s.slafin { op := 0xC0B0, roles := rBmcOwn, sess := false, l0 := false, secure := false, inLen := 8, body := 1 } m fun s =>
    let dpn := dpa.extractLsb' 12 32
    let e := s.entry dpn
    if fld dpa 0 6 ≠ 0 then .done stInvalidAlign [] s
    else if dpa.toNat / 4096 ≥ s.last.hostPages then .done stInvalidRange [] s
    else if e.state ≠ .hot then .done stDenied [] s
    else match s.compatSlot dpa with
      | none => .done stNoResource [] s
      | some i =>
        match s.lineContent e.frame.toNat (fld dpa 6 6) with
        | some r => .done stOk (leNat 1 i) (s.setCompat i (some { dpa, raw := freshRaw r.data (pla e.frame.toNat (fld dpa 6 6)) (sideMeta r.side) }))
        | none => .done stDataLost [] s

/-- COMPAT_CLEAR (R147). -/
def execCompatClear (m : Msg) (entry : Byte) (s : State) : Out :=
  s.slafin { op := 0xC0B1, roles := rBmcOwn, sess := false, l0 := false, secure := false, inLen := 1, body := 0 } m fun s =>
    if entry.toNat ≥ 8 then .done stInvalidRange [] s else .done stOk [] (s.setCompat entry.toNat none)

def State.compatBytes (s : State) (i : Nat) : List Byte :=
  match s.compat i with
  | some c => leBytes 8 c.dpa ++ leNat 1 1 ++ zeros 7
  | none => zeros 16

/-- COMPAT_LIST (R147). -/
def execCompatList (m : Msg) (s : State) : Out :=
  s.slafin { op := 0xC0B2, roles := rFmBmcOwn, sess := false, l0 := false, secure := false, inLen := 0, body := 128 } m fun s =>
    .done stOk ((List.range 8).flatMap s.compatBytes) s

end Sys2Proof.Machine
end

