-- ==== Sys2Proof/Machine/Channels.lean ====
section
/-! DEFINITION. The DDR5 channels (07): data rate, refresh, row disturbance, module temperature, training, frequency change, slot
power, channel faults, and the channel commands of 14. -/

namespace Sys2Proof.Machine

/-! ### Data rate (R164; 18 R434) -/

def rateSteps : List Nat := [7200, 6400, 5600, 4800]

/-- The cap of a derate of k steps. -/
def derateCap (k : Nat) : Nat := rateSteps.getD k 0

def State.derateOfCh (s : State) (c : Nat) : Nat := Tab.get (fun _ => 0) s.power.derateCh c

/-- The rate a channel takes (R164). -/
def State.chosenRate (s : State) (c : Nat) : Nat :=
  let x := s.chan c
  let spd := (x.dimms.filterMap (·.2)).foldl (fun m d => min m d.rate.toNat) 7200
  let pop := if x.modules = 2 then 6400 else 7200
  rateCapTo (min (min spd pop) (min x.control.rateCap (derateCap (s.derateOfCh c))))

/-! ### Refresh (R172 to R174) -/

/-- A request of the channel queue is for a package rank, given as DIMM + 2 × rank. -/
def State.queuedFor (s : State) (c rank : Nat) : Bool :=
  (s.chan c).queue.any fun r => decide ((s.placeOf r.frame.toNat r.line.val).rank3.toNat = rank)

def Chan.owedLimit (c : Chan) : Nat := if c.control.fgr then 8 else 4
def Chan.owedOf (c : Chan) (rank : Nat) : Nat := Tab.get (fun _ => 0) c.owed rank
def Chan.setOwed (c : Chan) (rank n : Nat) : Chan := { c with owed := Tab.set (fun _ => 0) rank n c.owed }

/-- The channel issues commands: it is powered, in service, out of service or in training, and its ranks are not in self-refresh (R174). -/
def Chan.live (c : Chan) : Bool :=
  c.pwrEn && !c.selfRefresh && (decide (c.state = 0) || decide (c.state = 1) || decide (c.state = 2))

/-- A package rank, given as DIMM + 2 × rank, exists. -/
def State.rankThere (s : State) (c rank : Nat) : Bool :=
  let pr := match (s.chan c).dimm with | some d => dimmRanks d | none => 1
  (List.range (s.ranksOf c)).any fun k => decide ((rankCode pr k).toNat = rank)

/-- The package rank of a logical rank, as DIMM + 2 × rank. -/
def State.rankOfLr (s : State) (ch lr : Nat) : BitVec 3 :=
  match (s.chan ch).dimm with
  | some d => rankCode (dimmRanks d) (lr / dimmStack d)
  | none => 0

/-- The refresh command that DDR_CHc_CONTROL selects (R172). -/
def DdrControl.refreshName (c : DdrControl) : String :=
  if c.sameBank then (if c.fgr then "refresh same-bank fine" else "refresh same-bank") else if c.fgr then "refresh all-bank fine" else "refresh all-bank"

/-- One refresh of a rank: all its banks, or one bank of every group in turn; the accumulated activation count of a refreshed bank falls by RAAIMT
(R172, R175). -/
def State.refreshOne (s : State) (ch rank : Nat) : State :=
  let c := s.chan ch
  let b := Tab.get (fun _ => 0) c.refBank rank
  let hit (k : Nat) : Bool := decide ((s.rankOfLr ch (k / 32)).toNat = rank) && (!c.control.sameBank || decide (k % 4 = b))
  (s.updChan ch fun c =>
    { c with raa := (c.raa.map (·.1)).foldl (fun t k => if hit k then Tab.set (fun _ => 0) k (Tab.get (fun _ => 0) t k - Config.raaimt) t else t) c.raa
             refBank := if c.control.sameBank then Tab.set (fun _ => 0) rank ((b + 1) % 4) c.refBank else c.refBank }).emit
    (.ddr (Fin.ofNat 12 ch) c.control.refreshName rank)

/-- Refreshes of a rank, back to back. -/
def State.refreshRank (s : State) (ch rank n : Nat) : State := ((List.range n).foldl (fun s _ => s.refreshOne ch rank) s).pmChan ch 4 n

/-- REFRESH_DUE (R173): issued at once when the rank has no queued request, postponed while the limit allows, else forced. -/
def execRefreshDue (ch : Fin 12) (rank : Fin 4) (s : State) : Out :=
  let c := s.chan ch.val
  if !s.hasChannel ch.val ∨ !c.live ∨ !s.rankThere ch.val rank.val then .next s
  else if !s.queuedFor ch.val rank.val then .next (s.refreshRank ch.val rank.val 1)
  else if c.owedOf rank.val < c.owedLimit then .next (s.updChan ch.val fun c => c.setOwed rank.val (c.owedOf rank.val + 1))
  else
    .next (raise { Ev.of (srcChan ch.val 8) with detail := [ch.val, rank.val] } ((s.countChan ch.val 0).refreshRank ch.val rank.val 1))

/-- OWED_REFRESH_DRAIN (R173): after 100 ns without a queued request the owed refreshes are issued back to back. -/
def execOwedRefreshDrain (ch : Fin 12) (rank : Fin 4) (s : State) : Out :=
  let n := (s.chan ch.val).owedOf rank.val
  if n = 0 ∨ s.queuedFor ch.val rank.val then .next s
  else .next ((s.updChan ch.val fun c => c.setOwed rank.val 0).refreshRank ch.val rank.val n)

/-- The ranks of a channel enter or leave self-refresh (R174). -/
def State.setSelfRefresh (s : State) (ch : Nat) (on : Bool) : State :=
  (s.updChan ch fun c => { c with selfRefresh := on }).emit (.ddr (Fin.ofNat 12 ch) (if on then "self-refresh entry" else "self-refresh exit") 0)

/-- Logical ranks of a channel. -/
def State.logicalRanks (s : State) (ch : Nat) : Nat :=
  match (s.chan ch).dimm with
  | some d => (s.chan ch).modules * dimmRanks d * dimmStack d
  | none => 0

/-- PERIODIC_TRACKING (R169): oscillator and read-timing tracking of a logical rank in service; it writes no array. While the die's training
microcontroller restarts the step is skipped (18 R428); when the restart ends is not said: a free value decides it (log 151). -/
def execPeriodicTracking (ch : Fin 12) (lr : Fin 32) (s : State) : Out :=
  let there := decide (lr.val < s.logicalRanks ch.val) && decide ((s.chan ch.val).state = 0) && !(s.chan ch.val).unusable.getLsbD lr.val
    && (s.unitFor { channel := ch.val, whole := false, ranksel := s.rankOfLr ch.val lr.val }).isNone
  if !there then .next s
  else if s.ddr.mcuDown.getLsbD (ch.val / 6) then
    let (n, s) := s.draw
    .next (if Config.freeBit n then s.mapDdr fun d => { d with mcuDown := d.mcuDown &&& ~~~(1#2 <<< (ch.val / 6)) } else s)
  else .next (s.emit (.ddr ch "tracking" lr.val))

/-! ### Module temperature (R172, R178, R184) -/

/-- MODULE_TEMP_READ: the readings of the populated slots; a hub that does not answer counts as 95 °C. -/
def execModuleTempRead (ch : Fin 12) (temps : List (Fin 2 × Option Byte)) (mr4Hot : Bool) (s : State) : Out :=
  let c := s.chan ch.val
  let mine := temps.filter fun t => (Tab.get (fun _ => none) c.dimms t.1.val).isSome
  if mine.isEmpty then .next s
  else
    let ts := mine.map fun t => match t.2 with | some b => b.toNat | none => 95
    let top : Nat := ts.foldl max 0
    let hot := if mr4Hot ∨ top ≥ 85 then true else if ts.all fun t => decide (t < 82) then false else c.hotRefresh
    let dimm := if top ≥ 95 then true else if ts.all fun t => decide (t < 90) then false else c.tfawDoubled
    let s := s.updChan ch.val fun c => { c with temp := BitVec.ofNat 8 top, hotRefresh := hot, tfawDoubled := dimm }
    let s := if hot ≠ c.hotRefresh then s.recomputeUsable else s
    -- the bus of a hub that does not answer falls back to I2C (R165)
    let s := if mine.any fun t => t.2.isNone then s.mapDdr fun d => { d with i2c := d.i2c ||| (1#6 <<< (ch.val / 2)) } else s
    let s := (mine.filter fun t => t.2.isNone).foldl (fun s t => raise { Ev.of (srcChan ch.val 6) with detail := [ch.val, t.1.val] } s) s
    if dimm ∧ !c.tfawDoubled then .next (raise { Ev.of (srcChan ch.val 7) with detail := [ch.val, top] } s) else .next s

/-! ### Row disturbance (R175, R176) -/

/-- ACTIVATION_WINDOW_START: the hot-row tables clear. -/
def execActivationWindowStart (ch : Fin 12) (s : State) : Out := .next (s.updChan ch.val fun c => { c with hotRows := [] })

def Place.bankKey (p : Place) : Nat := p.lr * 32 + p.bg * 4 + p.bank

/-- The entry of a row in its bank's table. A row new to a full table takes the place of the least-activated one (log 47). -/
def Chan.hotRow (c : Chan) (p : Place) : HotRow × List HotRow :=
  let k := p.bankKey
  match c.hotRows.find? fun r => decide (r.bank = k) && decide (r.row = p.row) with
  | some r => (r, c.hotRows.erase r)
  | none =>
    let fresh : HotRow := { bank := k, row := p.row, count := 0, mitigations := 0, spaced := false }
    let mine := c.hotRows.filter fun r => decide (r.bank = k)
    if mine.length < 16 then (fresh, c.hotRows)
    else match mine with
      | [] => (fresh, c.hotRows)
      | a :: t => (fresh, c.hotRows.erase (t.foldl (fun m r => if r.count < m.count then r else m) a))

/-- The pages with storage in a row's data frames move, and wait for a tracker where they find none free (R176; 02 R50). -/
def State.relocateAggressor (s : State) (ch : Nat) (p : Place) : State :=
  let e : RowEntry := { rowReset with row := BitVec.ofNat 18 p.row, ranksel := p.ranksel, bank := p.bankWord }
  ((s.rowFrames ch e).flatMap fun f => if isParity s.w f then [] else (s.frameRec f).dpns).foldl (fun s d =>
    s.startOrWait .aggressor d ((s.entry d).frame)) s

/-- An activation in the accumulated count of a bank: RFM at RAAIMT, and before an activation that would pass RAAMMT (R175). -/
def State.countRaa (s : State) (ch : Nat) (p : Place) : State :=
  let k := p.bankKey
  let rfm (s : State) (n : Nat) : State :=
    ((s.updChan ch fun c => { c with raa := Tab.set (fun _ => 0) k (n - Config.raaimt) c.raa }).countChan ch 1).emit (.ddr (Fin.ofNat 12 ch) "RFM" k)
  let n := Tab.get (fun _ => 0) (s.chan ch).raa k
  let s := if n + 1 > Config.raammt then rfm s n else s
  let n := Tab.get (fun _ => 0) (s.chan ch).raa k + 1
  if n ≥ Config.raaimt then rfm s n else s.updChan ch fun c => { c with raa := Tab.set (fun _ => 0) k n c.raa }

/-- One activation of a row, charged to the master whose request opened it. A spaced row is activated no sooner than 1 µs after its last activation; the entry
holds the time. -/
def State.activate (s : State) (ch : Nat) (p : Place) (master : Fin 39) : State :=
  let c := s.chan ch
  let s := if c.rfm then s.countRaa ch p else s
  let (r, rest) := c.hotRow p
  let n := r.count + 1
  let warn := decide (n = c.control.actWarn)
  let mit := decide (n ≥ c.control.actMitigate)
  let r := { r with count := if mit then 0 else n, mitigations := if mit then r.mitigations + 1 else r.mitigations
                    spaced := r.spaced || warn, last := if r.spaced then max s.time (r.last + Config.nsUs) else s.time }
  let s := s.updChan ch fun c => { c with hotRows := rest ++ [r] }
  let s := if warn then
      let s := (s.updMaster master.val fun m => { m with holdRow := true }).countReg 3
      raise { Ev.of (srcChan ch 9) with detail := [ch, p.lr, 0, p.row] } s
    else s
  let s := if mit then
      ((s.countChan ch 2).countChan ch 1).emit (.ddr (Fin.ofNat 12 ch) (if c.drfm then "directed RFM" else "same-bank RFM") p.row)
    else s
  if mit ∧ c.control.relocateEn ∧ r.mitigations = c.control.relocateAfter then (s.countChan ch 3).relocateAggressor ch p else s

/-! ### The channel queue (R166, R177) -/

def State.placeReq (s : State) (r : ChanReq) : Place := s.placeOf r.frame.toNat r.line.val

def ChanReq.same (a b : ChanReq) : Bool := decide (a.tag = b.tag) && (a.write == b.write) && decide (a.line = b.line)

def ChanReq.holds (r : ChanReq) (line : Nat) : Bool := decide (r.line.val ≤ line) && decide (line < r.line.val + r.count) && !r.moved.getLsbD line

/-- A request hits the row that is open in its bank. -/
def State.rowHit (s : State) (ch : Nat) (r : ChanReq) : Bool :=
  let p := s.placeReq r
  decide ((Tab.get (fun _ => none) (s.chan ch).rows p.bankKey : Option Nat) = some p.row)

/-- Real time first, then the higher priority, then a row hit (R177). -/
def State.reqScore (s : State) (ch : Nat) (r : ChanReq) : Nat :=
  (if r.rt then 100 else 0) + 10 * r.priority.val + (if s.rowHit ch r then 1 else 0)

/-- The first of the best. -/
def State.bestReq (s : State) (ch : Nat) (l : List ChanReq) : Option ChanReq :=
  l.foldl (fun best r => match best with
    | none => some r
    | some b => if s.reqScore ch b < s.reqScore ch r then some r else some b) none

/-- The next request of a channel, and the writes served in the batch with it. A batch of writes starts when 48 are queued or no read is, lasts until no write is
queued (DESIGN CHOICE, log 152), and yields to a waiting real-time read after 16 writes. -/
def State.nextReq (s : State) (ch : Nat) : Option (ChanReq × Nat) :=
  let c := s.chan ch
  let reads := c.queue.filter fun r => !r.write
  let writes := c.queue.filter (·.write)
  let batch := !writes.isEmpty && (decide (c.batch > 0) || decide (writes.length ≥ 48) || reads.isEmpty)
  if batch && !(decide (c.batch ≥ 16) && reads.any (·.rt)) then (s.bestReq ch writes).map fun r => (r, c.batch + 1)
  else (s.bestReq ch reads).map fun r => (r, 0)

/-- One line of a request moves: with the other line of its aligned pair as one BL16 burst where both are queued together, else as a BC8 burst (R166). -/
def State.moveBurst (s : State) (ch : Nat) (r : ChanReq) (line : Nat) : State :=
  let y := line ^^^ 1
  let mate (q : ChanReq) : Bool := decide (q.frame = r.frame) && (q.write == r.write) && q.holds y
  let self (q : ChanReq) : Bool := q.same r
  if !((s.chan ch).queue.any fun q => self q && q.holds line) then s
  else
    let pair := (s.chan ch).queue.any mate
    let mark (q : ChanReq) : ChanReq :=
      let q := if self q then { q with moved := q.moved ||| (1#64 <<< line) } else q
      if pair && mate q then { q with moved := q.moved ||| (1#64 <<< y) } else q
    let s := s.updChan ch fun c => { c with queue := c.queue.map mark }
    s.emit (.ddr (Fin.ofNat 12 ch) (if pair then "BL16" else "BC8") line)

/-- The die's answer to a request that it has carried out (08 R192): WRITE_DONE, or the lines as read, up to two in a LINE_DATA message. -/
def State.dieAnswers (s : State) (ch : Nat) (r : ChanReq) : State :=
  let m := s.route ch
  if r.write then s.post m .die (writeDoneMsg ch r.tag)
  else
    let line (i : Nat) : Bool × Raw := (decide (i + 1 = r.count), s.rawLine r.frame.toNat (r.line.val + i))
    (List.range ((r.count + 1) / 2)).foldl (fun s k =>
      s.post m .die (lineDataMsg ch r.tag (((List.range r.count).drop (2 * k)).take 2 |>.map line))) s

/-- The controller carries out a request: its row is opened unless it is open, and its lines move. -/
def State.serveReq (s : State) (ch : Nat) (r : ChanReq) : State :=
  let p := s.placeReq r
  let s := if s.rowHit ch r then s.pmChan ch 3
    else ((s.pmChan ch 0).updChan ch fun c => { c with rows := Tab.set (fun _ => none) p.bankKey (some p.row) c.rows }).activate ch p r.master
  let s := (List.range r.count).foldl (fun s i => s.moveBurst ch r (r.line.val + i)) s
  s.dieAnswers ch r

/-- The next command of an idle controller. -/
def State.serveNext (s : State) (ch : Nat) : State :=
  if (s.chan ch).current.isSome then s
  else match s.nextReq ch with
    | none => s
    | some (r, batch) => (s.updChan ch fun c => { c with current := some (r.tag, r.write), batch }).serveReq ch r

/-- Requests that wait for a place in the queue take it, up to 64 reads and 64 writes (R177). -/
def State.letIn (s : State) (ch : Nat) : State :=
  (s.chan ch).incoming.foldl (fun s r =>
    if ((s.chan ch).queue.filter fun q => q.write == r.write).length ≥ 64 then s
    else s.updChan ch fun c => { c with queue := c.queue ++ [r], incoming := c.incoming.erase r }) s

/-- A request reaches its channel: it enters the queue where there is room (R177). -/
def State.enqueue (s : State) (ch : Nat) (r : ChanReq) : State :=
  ((s.updChan ch fun c => { c with incoming := c.incoming ++ [r] }).letIn ch).serveNext ch

/-- A row that no queued request hits is closed, by auto-precharge with the last of them (R166). -/
def State.closeRow (s : State) (ch : Nat) (p : Place) : State :=
  let held := (s.chan ch).queue.any fun q => decide ((s.placeReq q).bankKey = p.bankKey) && decide ((s.placeReq q).row = p.row)
  if held then s
  else (s.updChan ch fun c => { c with rows := Tab.set (fun _ => none) p.bankKey none c.rows }).emit (.ddr (Fin.ofNat 12 ch) "auto-precharge" p.bankKey)

/-- A request leaves its queue; one whose answer came before its turn has been served all the same. -/
def State.leaveQueue (s : State) (ch : Nat) (r : ChanReq) : State :=
  let cur := decide ((s.chan ch).current = some (r.tag, r.write))
  let s := if cur then s else s.serveReq ch r
  let s := s.updChan ch fun c => { c with queue := c.queue.filter fun q => !q.same r, current := if cur then none else c.current }
  ((s.closeRow ch (s.placeReq r)).letIn ch).serveNext ch

/-- REQUEST_AGE_PROMOTE (R177): a request that has waited 4 µs is served as priority 7. -/
def execRequestAgePromote (ch : Fin 12) (tag : BitVec 13) (s : State) : Out :=
  .next (s.updChan ch.val fun c =>
    { c with queue := c.queue.map fun r => if r.tag = tag then { r with priority := 7, aged := true } else r })

/-! ### Slot power (R182, R183) -/

/-- SLOT_PWR_EN of a channel (R182). -/
def State.slotPin (s : State) (ch : Nat) (high : Bool) : State := s.emit (.pin (["SLOT_PWR_EN[0]", "SLOT_PWR_EN[1]", "SLOT_PWR_EN[2]", "SLOT_PWR_EN[3]",
  "SLOT_PWR_EN[4]", "SLOT_PWR_EN[5]", "SLOT_PWR_EN[6]", "SLOT_PWR_EN[7]", "SLOT_PWR_EN[8]", "SLOT_PWR_EN[9]", "SLOT_PWR_EN[10]",
  "SLOT_PWR_EN[11]"].getD ch "SLOT_PWR_EN") high)

/-- Powers a channel's slots off. -/
def State.slotsOff (s : State) (ch : Nat) : State :=
  (s.updChan ch fun c => { c with pwrEn := false, slotStep := .off }).slotPin ch false

/-- The whole-channel unit of a channel. -/
def State.chanUnit (s : State) (ch : Nat) : Option (Nat × UnitSlot) :=
  s.unitsOut.find? fun p => decide (p.2.channel.val = ch) && p.2.wholeChannel

def State.setUnitState (s : State) (ch : Nat) (st : Fin 7) : State :=
  match s.chanUnit ch with
  | some (n, u) => s.setUnit n (some { u with state := st, progress := if st = 5 then 0 else u.progress })
  | none => s

/-- A rejoin ends before training: its command is answered and the slots are off again. -/
def State.rejoinEnds (s : State) (ch : Nat) (st : W16) : State :=
  let s := (s.slotsOff ch).setUnitState ch 3
  match (s.chan ch).rejoinWait with
  | some m => (s.updChan ch fun c => { c with rejoinWait := none }).reply m 0xC082 st []
  | none => s

/-- A whole channel fails (R150). -/
def State.channelFails (s : State) (ch : Nat) (inj : Option (W32 × Bool)) : State :=
  s.unitOut { channel := ch, whole := true, ranksel := 0 } 0 inj

/-- SLOT_PRESENCE_CHANGE: SLOT_PRSNT_N changes level; a module removed while powered makes the channel unusable (R183). -/
def execSlotPresenceChange (ch : Fin 12) (high : Bool) (s : State) : Out :=
  if !s.hasChannel ch.val then .next s
  else
    let c := s.chan ch.val
    let s := s.updChan ch.val fun c => { c with present := !high }
    if high ∧ c.pwrEn then
      let s := raise { Ev.of (srcChan ch.val 5) with detail := [ch.val] } s
      match s.chanUnit ch.val with
      | some (_, u) =>
        if u.cause ≠ 2 ∧ (u.state = 3 ∨ u.state = 4) then
          .next ((s.rejoinEnds ch.val stNoResource).setUnitState ch.val 3 |>.updChan ch.val fun c => { c with state := 3 })
        else .next ((s.slotsOff ch.val).channelFails ch.val none).wake
      | none => .next ((s.slotsOff ch.val).channelFails ch.val none).wake
    else .next s

/-- SLOT_SUPPLY_OFF (R182 step 3): the parked channel is POWERED_OFF and its quiesce completes. -/
def execSlotSupplyOff (ch : Fin 12) (s : State) : Out :=
  let c := s.chan ch.val
  if c.slotStep ≠ .parking then .next s
  else
    let s := (s.updChan ch.val fun c => { c with slotStep := .off, state := 3, quiesceWait := none }).setUnitState ch.val 3
    match c.quiesceWait with
    | some m => .next (s.reply m 0xC081 stOk [])
    | none => .next s

/-- The frames that modules would hold. -/
def framesOf (dimms : List (Fin 2 × Dimm)) : Nat :=
  match dimms with
  | [] => 0
  | d :: _ => channelFrames dimms.length d.2

/-- SLOT_SUPPLY_SETTLED (R182 step 5, R158): SPD read; too few frames end the rejoin, and candidates of an exchanged slot are
freed. -/
def execSlotSupplySettled (ch : Fin 12) (dimms : List (Fin 2 × Dimm)) (s : State) : Out :=
  let c := s.chan ch.val
  if c.slotStep ≠ .powering then .next s
  else if framesOf dimms < c.frames ∨ !dimms.all (fun d => dimmSupported d.2) then .next (s.rejoinEnds ch.val stNoResource)
  else
    let new (k : Nat) : Option Dimm := (dimms.find? fun d => decide (d.1.val = k)).map (·.2)
    let id (k : Nat) : W64 := match new k with | some d => d.id | none => 0
    let old (k : Nat) : W64 := match c.record with | some r => if k = 0 then r.dimm0 else r.dimm1 | none => 0
    let gone := [0, 1].filter fun k => decide (id k ≠ old k)
    let s := (List.range 256).foldl (fun (s : State) i =>
      let e := s.row (rowKey ch.val i)
      if e.state ≠ .free ∧ gone.contains (fld e.ranksel 0 1) then s.setRow (rowKey ch.val i) rowReset else s) s
    let s := if gone.isEmpty then s
      else s.mapPower fun p => { p with derateCh := Tab.set (fun _ => 0) ch.val 0 p.derateCh }
    let tab := [0, 1].foldl (fun t k => Tab.set (fun _ => none) k (new k) t) ([] : Tab (Option Dimm))
    .next ((s.updChan ch.val fun c => { c with dimms := tab, slotStep := .spdRead, unusable := 0, failures := [] }).emit (.ddr ch "PMIC enable" 0))

/-- PMIC_POWER_GOOD (R182 step 6): full training starts and the rejoin command completes. -/
def execPmicPowerGood (ch : Fin 12) (s : State) : Out :=
  let c := s.chan ch.val
  if c.slotStep ≠ .spdRead then .next s
  else
    let s := (s.updChan ch.val fun c => { c with slotStep := .powered, state := 2, full := true, rejoinWait := none }).setUnitState ch.val 4
    let s := s.updChan ch.val fun c => { c with rate := s.chosenRate ch.val }
    match c.rejoinWait with
    | some m => .next (s.reply m 0xC082 stOk [])
    | none => .next s

/-- PMIC_POWER_GOOD_TIMEOUT (R182). -/
def execPmicPowerGoodTimeout (ch : Fin 12) (s : State) : Out :=
  let c := s.chan ch.val
  if c.slotStep = .powering ∨ c.slotStep = .spdRead then .next (s.rejoinEnds ch.val stNoResource) else .next s

/-! ### Channel faults (R184) -/

/-- An alert of a rank: counted, fenced by escalation where configured, and the rank unusable at 16 within 1 ms. -/
def State.channelAlert (s : State) (ch : Nat) (rank : Fin 4) (off : Nat) (inj : Option (W32 × Bool)) : State :=
  if !s.hasChannel ch then s
  else
    let x : Scope := { channel := ch, whole := false, ranksel := BitVec.ofNat 3 rank.val }
    -- the alerts of the last 1 ms
    let ts := (Tab.get (fun _ => []) (s.chan ch).alerts rank.val : List Nat).filter fun t => decide (s.time - t ≤ Config.nsMs)
    let n := ts.length + 1
    let s := s.updChan ch fun c => { c with alerts := Tab.set (fun _ => []) rank.val (if n ≥ 16 then [] else ts ++ [s.time]) c.alerts }
    -- the commands since the last good one, or the write, are issued again
    let s := s.emit (.ddr (Fin.ofNat 12 ch) (if off = 0 then "commands again" else "write again") rank.val)
    let s := s.countChan ch 4
    let s := raiseFencing { Ev.of (srcChan ch off) with detail := [ch, rank.val], inj } (.rank x) s
    if n ≥ 16 then
      let s := raise { Ev.of (srcChan ch 2) with detail := [ch, rank.val], inj } s
      s.unitOut x 0 inj
    else s

/-- CA_PARITY_ALERT (R184): the commands since the last good one are issued again. -/
def execCaParityAlert (ch : Fin 12) (rank : Fin 4) (s : State) : Out := .next (s.channelAlert ch.val rank 0 none).wake

/-- WRITE_CRC_ALERT (R184): the write is issued again. -/
def execWriteCrcAlert (ch : Fin 12) (rank : Fin 4) (s : State) : Out := .next (s.channelAlert ch.val rank 1 none).wake

/-- PMIC_FAULT (R184): the channel is unusable and its slots are powered off. -/
def execPmicFault (ch : Fin 12) (s : State) : Out :=
  if !s.hasChannel ch.val then .next s
  else .next (((raise { Ev.of (srcChan ch.val 4) with detail := [ch.val] } s).slotsOff ch.val).channelFails ch.val none).wake

/-- TRAIN_MCU_WATCHDOG (18 R428). -/
def execTrainMcuWatchdog (die : Fin 2) (s : State) : Out :=
  if s.ev8820 ∧ die.val = 1 then .next s
  else .next (raise { Ev.of 906 with detail := [die.val] }
    (s.mapDdr fun d => { d with mcuRestarts := d.mcuRestarts + 1, mcuDown := d.mcuDown ||| (1#2 <<< die.val) }))

/-! ### Frequency change (R179, R180) -/

/-- Another repair or frequency change is under way. -/
def State.temporaryOut (s : State) : Bool := s.unitsOut.any fun p => decide (p.2.cause = 2)

/-- The status with which a frequency change of a channel is turned away: BUSY, or DENIED for any other unit out of service. -/
def State.rateChangeRefused (s : State) (ch : Nat) : Option W16 :=
  if s.inSave ∨ s.inResume ∨ s.temporaryOut then some stBusy
  else if s.unitsOut.any fun p => decide (p.2.channel.val ≠ ch) || !p.2.wholeChannel then some stDenied
  else none

/-- Steps 1 to 3 of R179: out of service as a temporary unit, self-refresh around the change of the divider, full training. -/
def State.startRateChange (s : State) (ch rate : Nat) : State :=
  let s := s.unitOut { channel := ch, whole := true, ranksel := 0 } 2 none
  let s := s.updChan ch fun c => { c with pendingRate := some rate, oldRate := c.rate, state := 2, full := true, failures := [] }
  (((s.setUnitState ch 4).setSelfRefresh ch true).emit (.ddr (Fin.ofNat 12 ch) "rate change" rate)).setSelfRefresh ch false

/-- DDR_CHc_CONTROL from its register word; none breaks a limit. -/
def ddrControlOf (w : W64) : Option DdrControl :=
  let c : DdrControl := { fgr := w.getLsbD 0, sameBank := w.getLsbD 1, relocateEn := w.getLsbD 2, relocateAfter := fld w 8 8
                          actWarn := fld w 16 16, actMitigate := fld w 32 16, rateCap := fld w 48 16 }
  if 1 ≤ c.relocateAfter ∧ c.actMitigate > c.actWarn ∧ 4800 ≤ c.rateCap ∧ c.rateCap ≤ 7200 then some c else none

/-- Sets DDR_CHc_CONTROL. A lower limit of owed refreshes holds at once: those beyond it are issued (R173). -/
def State.setControl (s : State) (ch : Nat) (c : DdrControl) : State :=
  let s := s.updChan ch fun x => { x with control := c }
  (List.range 4).foldl (fun s rank =>
    let n := (s.chan ch).owedOf rank - (s.chan ch).owedLimit
    if n = 0 then s else (s.updChan ch fun x => x.setOwed rank x.owedLimit).refreshRank ch rank n) s

/-- SET_CHANNEL_CONTROL (R179, R180): a cap that changes the rate starts a frequency change; one that meets a training step waits
for its end. -/
def execSetChannelControl (m : Msg) (channel : Byte) (control : W64) (s : State) : Out :=
  s.slafin { op := 0xC083, roles := rBmcOwn, sess := false, l0 := true, secure := false, inLen := 16, body := 0 } m fun s =>
    let ch := channel.toNat
    if !s.hasChannel ch then .done stInvalidRange [] s
    else match ddrControlOf control with
      | none => .done stInvalidRange [] s
      | some c =>
        let t := s.setControl ch c
        let rate := t.chosenRate ch
        let st := (s.chan ch).state
        if rate = (s.chan ch).rate ∨ (st ≠ 0 ∧ st ≠ 2) then .done stOk [] t
        else match s.rateChangeRefused ch with
          | some e => .done e [] s
          | none =>
            if st = 2 then
              if (s.chan ch).rateDeferred.isSome then .done stBusy [] s
              else .later (s.updChan ch fun x => { x with rateDeferred := some (m, c) })
            else .done stOk [] (t.startRateChange ch rate)

/-! ### Channel service (06 R157, R158) -/

/-- Parks a channel (R182 steps 1 and 2). -/
def State.park (s : State) (ch : Nat) (m : Msg) : State :=
  let s := s.updChan ch fun c => { c with slotStep := .parking, pwrEn := false, state := 1, quiesceWait := some m }
  ((s.emit (.ddr (Fin.ofNat 12 ch) "park" 0)).emit (.ddr (Fin.ofNat 12 ch) "PMIC disable" 0)).slotPin ch false

/-- QUIESCE_CHANNEL (R157), judged in its order. -/
def execQuiesceChannel (m : Msg) (channel : Byte) (s : State) : Out :=
  s.slafin { op := 0xC081, roles := rBmcOwn, sess := false, l0 := true, secure := false, inLen := 1, body := 0 } m fun s =>
    let ch := channel.toNat
    let x : Scope := { channel := ch, whole := true, ranksel := 0 }
    if !s.hasChannel ch then .done stInvalidRange [] s
    else match s.chanUnit ch with
      | some (n, u) =>
        if u.state = 4 ∨ u.state = 5 ∨ u.cause = 2 then .done stBusy [] s
        else if u.cause = 1 then .done stOk [] s
        else if n ≥ 4 then .done stNoResource [] s
        else .later ((s.setUnit n (some { u with cause := 1 })).recordUnit x 1 |>.park ch m)
      | none =>
        let here := s.unitsOut.filter fun p => decide (p.2.channel.val = ch)
        let others := s.unitsOut.filter fun p => decide (p.2.channel.val ≠ ch)
        if here.any fun p => decide (p.2.cause = 2) || decide (p.2.state = 4) || decide (p.2.state = 5) then .done stBusy [] s
        else if (s.unitIndex false).isNone then .done stNoResource [] s
        else if (others.any fun p => !s.unitWhole p.2) ∨ s.sparedOn x then .done stDenied [] s
        else .later ((s.unitOut x 1 none).park ch m).wake

/-- REJOIN_CHANNEL (R158, R182). -/
def execRejoinChannel (m : Msg) (channel : Byte) (s : State) : Out :=
  s.slafin { op := 0xC082, roles := rBmcOwn, sess := false, l0 := true, secure := false, inLen := 1, body := 0 } m fun s =>
    let ch := channel.toNat
    if !s.hasChannel ch then .done stInvalidRange [] s
    else match s.chanUnit ch with
      | none => .done stDenied [] s
      | some (_, u) =>
        if u.state = 4 ∨ u.state = 5 ∨ (s.chan ch).rejoinWait.isSome then .done stBusy [] s
        else if u.state ≠ 3 ∨ u.cause ≠ 1 ∨ !(s.chan ch).present then .done stDenied [] s
        else
          let s := s.updChan ch fun c => { c with pwrEn := true, slotStep := .powering, rejoinWait := some m }
          let s := s.setUnitState ch 4
          .later ((s.endChannelInj ch).slotPin ch true)

/-! ### Training (R168 to R171, 18 R434) -/

/-- The training-row frames of a channel (R168). -/
def State.trainingFrames (s : State) (ch : Nat) : List Nat :=
  match (s.chan ch).dimm with
  | none => []
  | some d =>
    let n := s.logicalRanks ch
    let fpr := if d.x8 then 2 else 4
    (List.range fpr).flatMap fun k => (List.range n).map fun lr => 32 * (k * n + lr) * s.w + ch

/-- A cached training is allowed by the record (R170). -/
def State.recordOk (s : State) (ch : Nat) (temp : Byte) : Bool :=
  match (s.chan ch).record with
  | none => false
  | some r =>
    r.sound && decide (r.dimm0 = s.dimmId ch 0) && decide (r.dimm1 = s.dimmId ch 1) && decide (r.rate = (s.chan ch).rate)
      && decide (r.trainRev = Config.trainRev) && decide ((r.temp.toInt - temp.toInt).natAbs ≤ 20)
      && decide (s.power.hours.toNat - r.hours.toNat ≤ 720)

/-- A unit that leaves at bring-up or after a failed training at resume: every entry WITHDRAWN (06 R156). -/
def State.unitWithdrawn (s : State) (x : Scope) : State :=
  match s.unitFor x, s.unitIndex true with
  | none, some n =>
    let u : UnitSlot := { channel := Fin.ofNat 12 x.channel, wholeChannel := x.whole, ranksel := if x.whole then 0 else x.ranksel
                          cause := 0, state := 0, progress := 0, exhausted := false, base := .withdrawn, map := [] }
    let s := (s.setUnit n (some u)).placeCopies
    let s := if x.whole then s.updChan x.channel fun c => { c with state := 1 } else s
    raise (unitOutEvent x 0 none) ((s.recordUnit x 0).recomputeUsable)
  | _, _ => s

/-- Marks logical ranks unusable. -/
def State.markUnusable (s : State) (ch : Nat) (bad : List Nat) : State :=
  s.updChan ch fun c => { c with unusable := bad.foldl (fun m lr => m ||| (1#32 <<< lr)) c.unusable }

/-- Every logical rank of a channel is unusable. -/
def State.noRankLeft (s : State) (ch : Nat) : Bool := (List.range (s.logicalRanks ch)).all (s.chan ch).unusable.getLsbD

/-- Ranks, or the channel, that training leaves unusable (R171). -/
def State.trainFails (s : State) (ch : Nat) (bad : List Nat) : State :=
  let s := s.markUnusable ch bad
  let s := raise { Ev.of (srcChan ch 3) with detail := ch :: bad } s
  let scopes : List Scope := if s.noRankLeft ch then [{ channel := ch, whole := true, ranksel := 0 }]
    else ((bad.map (s.rankOfLr ch)).eraseDups).map fun r => { channel := ch, whole := false, ranksel := r }
  let boot := s.inResume
  scopes.foldl (fun s x => if boot then s.unitWithdrawn x else s.unitOut x 0 none) s

/-- A full training that has left every rank usable: the cache record is rewritten (R170). Its DATA is a free value. -/
def State.trainRecord (s : State) (ch : Nat) (temp : Byte) : State :=
  let (n, s) := s.draw
  let r : TrainRecord := { dimm0 := s.dimmId ch 0, dimm1 := s.dimmId ch 1, rate := (s.chan ch).rate, temp, trainRev := Config.trainRev
                           hours := s.power.hours, data := n }
  s.updChan ch fun c => { c with record := some r }

/-- The 64 KiB of a training cache record (R170). -/
def TrainRecord.bytes (r : TrainRecord) (ch : Nat) : List Byte :=
  let body := leNat 4 0x4C545243 ++ leNat 2 1 ++ leNat 1 ch ++ zeros 1 ++ leBytes 8 r.dimm0 ++ leBytes 8 r.dimm1 ++ leNat 2 r.rate ++ [r.temp, r.trainRev]
    ++ leBytes 4 r.hours ++ (List.range 65500).map fun i => (Config.trainData r.data i : Byte)
  body ++ leBytes 4 (crc32c body)

/-- The deferred change of R180 starts when the training step has ended. -/
def State.startDeferred (s : State) (ch : Nat) : State :=
  match (s.chan ch).rateDeferred with
  | none => s
  | some (m, control) =>
    let s := s.updChan ch fun c => { c with rateDeferred := none }
    let t := s.setControl ch control
    match s.rateChangeRefused ch with
    | some e => s.reply m 0xC083 e []
    | none => (t.startRateChange ch (t.chosenRate ch)).reply m 0xC083 stOk []

/-- The end of a training whose ranks all pass and whose margins meet their floors. -/
def State.trained (s : State) (ch : Nat) (full : Bool) (r : TrainResult) : State :=
  let s := s.updChan ch fun c => { c with cached := !full, full := false, failures := [], rfm := r.rfm, drfm := r.drfm, temp := r.temp
                                          noSpares := r.noSpares }
  let s := if full ∧ (s.chan ch).unusable = 0 then s.trainRecord ch r.temp else s
  match s.chanUnit ch with
  | none => (s.updChan ch fun c => { c with state := 0 }).recomputeUsable
  | some (n, u) =>
    if u.state ≠ 4 then s
    else match (s.chan ch).pendingRate with
      | some rate =>
        let old := (s.chan ch).oldRate
        let s := s.updChan ch fun c => { c with pendingRate := none, state := 1 }
        let s := s.rejoinStale n (s.trainingFrames ch)
        if rate = old then s else raise { Ev.of (srcChan ch 10) with detail := [ch, rate] } s
      | none => (s.updChan ch fun c => { c with state := 1 }).setUnitState ch 5

/-- Whether a channel is under training: at bring-up, in a rejoin or in a frequency change. -/
def State.training (s : State) (ch : Nat) : Bool := decide ((s.chan ch).state = 2)

/-- A rank of a channel that is out for a frequency change fails: beside the channel's unit it is a failed unit of its own (R171, R179). -/
def State.rankOut (s : State) (ch : Nat) (rank : BitVec 3) : State :=
  match s.unitIndex true with
  | none => s
  | some n =>
    let x : Scope := { channel := ch, whole := false, ranksel := rank }
    let u : UnitSlot := { channel := Fin.ofNat 12 ch, wholeChannel := false, ranksel := rank, cause := 0, state := 0, progress := 0, exhausted := false
                          base := .stale, map := [] }
    raise (unitOutEvent x 0 none) (((s.setUnit n (some u)).placeCopies.recordUnit x 0).recomputeUsable).dataLoss

/-- A logical rank has failed full training three times (R171): what becomes of the channel depends on why it trains. -/
def State.trainGivesUp (s : State) (ch : Nat) (bad : List Nat) : State :=
  match s.chanUnit ch with
  | some (n, u) =>
    let s := s.updChan ch fun c => { c with failures := [] }
    if u.state ≠ 4 then s
    else match (s.chan ch).pendingRate with
      | some r =>
        if r ≠ (s.chan ch).oldRate then
          -- back to the old rate and trained again (R179)
          s.updChan ch fun c => { c with pendingRate := some c.oldRate, rate := c.oldRate }
        else
          let s := raise { Ev.of (srcChan ch 3) with detail := ch :: bad } (s.markUnusable ch bad)
          let s := s.updChan ch fun c => { c with pendingRate := none, state := 1 }
          if s.noRankLeft ch then s.unitFails n u none
          else (((bad.map (s.rankOfLr ch)).eraseDups).foldl (fun s r => s.rankOut ch r) s).rejoinStale n (s.trainingFrames ch)
      | none =>
        -- a rejoin: back to POWERED_OFF, the map unchanged (R158)
        let s := raise { Ev.of (srcChan ch 3) with detail := ch :: bad } s
        ((s.slotsOff ch).setUnitState ch 3).updChan ch fun c => { c with state := 3 }
  | none => s.trainFails ch bad

/-- The action for a channel whose eye width is below 20 % UI (18 R434): one rate step lower, then full training. -/
def State.channelDerate (s : State) (ch : Nat) : State :=
  let next := rateBelow (s.chan ch).rate
  if next = 0 then s.trainGivesUp ch (List.range (s.logicalRanks ch))
  else
    let k := (List.range 4).foldl (fun m i => if rateSteps.getD i 0 = next then i else m) 0
    let s := s.mapPower fun p => { p with derateCh := Tab.set (fun _ => 0) ch k p.derateCh }
    let s := raise { Ev.of 929 with detail := [ch] } s
    s.updChan ch fun c => { c with rate := next, full := true, pendingRate := c.pendingRate.map fun _ => next, failures := [] }

/-- TRAINING_COMPLETE (R169 to R171, R179, R158; 18 R434). -/
def execTrainingComplete (ch : Fin 12) (r : TrainResult) (s : State) : Out :=
  if !s.hasChannel ch.val ∨ !s.training ch.val then .next s
  else
    let c := s.chan ch.val
    -- at the rate of a change under way
    let s := match c.pendingRate with | some x => s.updChan ch.val fun c => { c with rate := x } | none => s
    -- the SPD is read at every training (R165)
    let s := s.updChan ch.val fun c => { c with dimms := r.spd.foldl (fun t d => Tab.set (fun _ => none) d.1.val (some d.2) t) c.dimms }
    let full := c.full || !s.recordOk ch.val r.temp
    if !full ∧ !r.cachedCheckOk then .next (s.updChan ch.val fun c => { c with full := true })
    else
      let bad := (List.range (s.logicalRanks ch.val)).filter fun i => !r.rankOk.getLsbD i && !c.unusable.getLsbD i
      if full ∧ !bad.isEmpty then
        let s := s.updChan ch.val fun c =>
          { c with full := true, failures := bad.foldl (fun t i => Tab.set (fun _ => 0) i (Tab.get (fun _ => 0) t i + 1) t) c.failures }
        let done := bad.filter fun i => decide ((Tab.get (fun _ => 0) (s.chan ch.val).failures i : Nat) ≥ 3)
        if done.isEmpty then .next s
        else
          let s := s.trainGivesUp ch.val done
          -- the other ranks go on: in service when none has still to train
          if !s.training ch.val ∨ (s.chanUnit ch.val).isSome ∨ !(bad.all done.contains) then .next s.wake
          else .next ((s.trained ch.val full r).startDeferred ch.val).wake
      else
        let s := s.mapPower fun p => { p with margins := Tab.set (fun _ => (0, 0)) ch.val (r.rdMargin, r.wrMargin) p.margins }
        if r.rdMargin < 20 ∨ r.wrMargin < 20 then .next (s.channelDerate ch.val).wake
        else .next ((s.trained ch.val full r).startDeferred ch.val).wake

end Sys2Proof.Machine
end

