-- ==== Sys2Proof/Machine/Lace.lean ====
section
/-! DEFINITION. The Lace link (08): flits as received, sequence and replay, credits and leaks, retraining, a module that goes down,
handover and return, and the link messages. -/

namespace Sys2Proof

/-! ### Fields of a flit (R188, R191) -/

def Flit.type (f : Flit) : Nat := Machine.fld f.header 0 4
def Flit.seq (f : Flit) : Nat := Machine.fld f.header 4 10
def Flit.ackSeq (f : Flit) : Nat := Machine.fld f.header 14 10
def Flit.acknak (f : Flit) : Nat := Machine.fld f.header 24 2
def Flit.byte (f : Flit) (i : Nat) : Nat := (Machine.byteAt f.payload i).toNat
def Flit.word (f : Flit) (i : Nat) : Nat := f.byte i + 256 * f.byte (i + 1)
def Flit.crcOk (f : Flit) : Bool := decide (Machine.crc64 (Machine.leBytes 8 f.header ++ Machine.leBytes 240 f.payload) = f.crc)

/-- The check of a TRAIN flit's pattern. -/
def Flit.patternOk (f : Flit) : Bool := (List.range 224).all fun i => decide (Machine.byteAt f.payload (16 + i) = Machine.trainByte (16 + i))

/-! ### Messages in a DATA flit (R192) -/

/-- Slots of the message that a header slot opens, for the class and direction of its flit; none is malformed. -/
def Flit.slotsOf (f : Flit) (c : Machine.LClass) (toHub : Bool) (k : Nat) : Option Nat :=
  match c, toHub, f.byte (16 * k) with
  | .req, false, 0x01 => some 1
  | .req, false, 0x03 => some 6
  | .req, false, 0x05 => some 1
  | .req, true, 0x11 => some 1
  | .rsp, true, 0x81 =>
    let n := f.byte (16 * k + 1)
    if 1 ≤ n ∧ n ≤ 7 then
      some (1 + 5 * ((List.range n).filter fun i => !(f.word (16 * k + 2 + 2 * i)).testBit 14).length)
    else none
  | .rsp, true, 0x82 => if 1 ≤ f.byte (16 * k + 1) ∧ f.byte (16 * k + 1) ≤ 7 then some 1 else none
  | .rsp, true, 0x83 => some 1
  | .rsp, false, 0x91 => if 1 ≤ f.byte (16 * k + 1) ∧ f.byte (16 * k + 1) ≤ 7 then some 1 else none
  | _, _, _ => none

/-- Slots that continue in the next flit after this one; none when a message is malformed or the rest after a NOP is not zero. -/
def Flit.walk (f : Flit) (c : Machine.LClass) (toHub : Bool) : Nat → Nat → Nat → Option Nat
  | 0, _, cont => some cont
  | fuel + 1, k, cont =>
    if k ≥ 15 then some cont
    else if cont > 0 then Flit.walk f c toHub fuel (k + 1) (cont - 1)
    else if f.byte (16 * k) = 0 then
      if (List.range (240 - 16 * k)).all fun i => decide (f.byte (16 * k + i) = 0) then some 0 else none
    else match f.slotsOf c toHub k with
      | some n => Flit.walk f c toHub fuel (k + 1) (n - 1)
      | none => none

end Sys2Proof

namespace Sys2Proof.Machine

/-! ### Retraining (R202, R203) -/

/-- A retrain begins: counted, both ends stop, causes that arise meanwhile are served by it. -/
def State.startRetrain (s : State) (m : Nat) : State :=
  if (s.laceMod m).state ≠ 2 then s
  else
    let s := s.updLaceMod m fun x => { x with state := 3, leakScheduled := false }
    let s := s.updBoth m fun d => { d with trainSeen := false, synced := false, timeouts := 0, leakRun := false }
    fire (srcLace m 6) ((s.countLace m 4).beginTraining m)

/-- A failed retrain, or bring-up training, is repeated at once; 8 in a row and the module is down (R205). -/
def State.retrainFails (s : State) (m : Nat) : State :=
  let x := s.laceMod m
  let s := s.updLaceMod m fun x => { x with failedRetrains := x.failedRetrains + 1 }
  if x.failedRetrains + 1 ≥ 8 then s.moduleDown m
  else
    let s := s.updBoth m fun d => { d with trainSeen := false, synced := false }
    let s := if x.state = 3 then fire (srcLace m 6) (s.countLace m 4) else s
    s.beginTraining m

/-- SRC_LACE_PROTOCOL and an immediate retrain. -/
def State.protocolError (s : State) (m : Nat) : State :=
  (raiseFencing { Ev.of (srcLace m 3) with detail := [m] } (.module m) s).startRetrain m

/-! ### NAK and CRC failures (R194, R205) -/

/-- A NAK, unless one is held off (R194). -/
def State.nakIfAllowed (s : State) (m : Nat) (e : LaceEnd) : State :=
  let held := match (s.side m e).nakAt with | some t => decide (s.time - t < Config.nsUs) | none => false
  if held then s
  else
    let s := (s.sendCtrl m e 0 2 0).countLace m 1
    s.updSide m e fun d => { d with nakAt := some s.time }

/-- A flit whose CRC fails: counted and NAKed; in a retrain a TRAIN flit, or the CTRL flit of its step 3, fails the retrain (R203); 256 within 1 ms take the
module down. -/
def State.crcFails (s : State) (m : Nat) (e : LaceEnd) (type seq : Nat) (inj : Option (W32 × Bool)) : State :=
  let x := s.laceMod m
  let s := s.countLace m 0
  let s := s.updSide m e fun d => { d with crcTimes := (s.time :: d.crcTimes).take 256 }
  let s := raiseFencing { Ev.of (srcLace m 0) with detail := [m, if e = .hub then 1 else 0, seq], inj } (.module m) s
  let ts := (s.side m e).crcTimes
  let storm := decide (ts.length = 256) && decide (s.time - ts.getLastD 0 ≤ Config.nsMs)
  if (s.laceMod m).state = 4 then s
  else if storm then s.moduleDown m
  else
    let s := s.nakIfAllowed m e
    if x.state = 3 ∧ (type = 12 ∨ (type = 8 ∧ (s.side m e).trainSeen)) then s.retrainFails m else s

/-! ### Acknowledgement (R196) -/

/-- Sends again every unacknowledged flit from a sequence number. -/
def State.replayFrom (s : State) (m : Nat) (e : LaceEnd) (seq : Nat) : State :=
  let d := s.side m e
  let r := d.replay.dropWhile fun p => decide (p.seq ≠ seq)
  if r.isEmpty then s
  else (s.emits (r.map fun p => .flit (Fin.ofNat 4 m) e (wireFlit p.cls.type p.seq (d.ackSeq 1) 1 p.payload))).countLace m 2

/-- Frees the replay buffer before a sequence number. -/
def LaceSide.freeBefore (d : LaceSide) (seq : Nat) : LaceSide :=
  let r := d.replay.dropWhile fun p => decide (p.seq ≠ seq)
  { d with replay := r, timeouts := if r.length < d.replay.length then 0 else d.timeouts }

def LaceSide.inFlight (d : LaceSide) (seq : Nat) : Bool := d.replay.any fun p => decide (p.seq = seq)

/-- The sequence number of the oldest unacknowledged flit, or of the next. -/
def LaceSide.oldest (d : LaceSide) : Nat := match d.replay with | p :: _ => p.seq | [] => d.nextSeq

/-- An ACK names a flit in flight, or the one before the oldest, which frees nothing (log 49); a NAK names a flit in flight or the
next to be sent. -/
def LaceSide.ackValid (d : LaceSide) (acknak seq : Nat) : Bool :=
  if acknak = 1 then d.inFlight seq || decide ((seq + 1) % 1024 = d.oldest)
  else if acknak = 2 then d.inFlight seq || decide (seq = d.nextSeq)
  else decide (acknak = 0)

/-- The sender's reaction to ACKNAK. -/
def State.takeAck (s : State) (m : Nat) (e : LaceEnd) (acknak seq : Nat) : State :=
  if acknak = 1 then
    if (s.side m e).inFlight seq then
      s.updSide m e fun d =>
        let n := (seq + 1) % 1024
        if d.inFlight n then d.freeBefore n else { d with replay := [], timeouts := 0 }
    else s
  else if acknak = 2 then
    if (s.side m e).inFlight seq then (s.updSide m e fun d => d.freeBefore seq).replayFrom m e seq
    else s.updSide m e fun d => { d with replay := [], timeouts := 0 }
  else s

/-! ### Credits (R198, R200) -/

/-- A_c: class-c flits of the replay buffer not covered by a CTRL flit's ACK_SEQ. -/
def LaceSide.after (d : LaceSide) (acknak seq : Nat) (c : LClass) : Nat :=
  let from_ := if acknak = 2 then seq else (seq + 1) % 1024
  let r := if d.inFlight from_ then d.replay.dropWhile fun p => decide (p.seq ≠ from_)
    else if d.inFlight seq then [] else d.replay
  (r.filter fun p => decide (p.cls = c)).length

/-- What every CTRL flit reports: increments, occupancy, the leak test; the CREDIT flit of a retrain's step 3 sets the counts anew (R202). -/
def State.takeCredit (s : State) (m : Nat) (e : LaceEnd) (f : Flit) (acknak : Nat) : State :=
  let occReq := f.word 6
  let occRsp := f.word 8
  let s := s.updSide m e fun d =>
    { d with uReq := d.uReq - f.word 2, uRsp := d.uRsp - f.word 4, peerReq := occReq, peerRsp := occRsp }
  let d := s.side m e
  if (s.laceMod m).state = 3 then
    if f.byte 0 ≠ 0 ∨ !d.trainSeen ∨ d.synced then s
    else
      let s := s.updSide m e fun d =>
        { d with uReq := occReq + d.after acknak f.ackSeq .req, uRsp := occRsp + d.after acknak f.ackSeq .rsp, synced := true }
      s.replayFrom m e (s.side m e).oldest
  else if acknak = 0 then s
  else
    let l := (d.uReq - (d.after acknak f.ackSeq .req + occReq)) + (d.uRsp - (d.after acknak f.ackSeq .rsp + occRsp))
    s.updSide m e fun d => { d with leak := min l 1023, leakRun := decide (l ≥ 32) }

/-- Both ends have met step 4 of R202: the module is UP; a change of point that waited starts (R204). -/
def State.retrainEnds (s : State) (m : Nat) : State :=
  let x := s.laceMod m
  if x.state = 3 ∧ x.hub.synced ∧ x.die.synced then
    let s := s.updLaceMod m fun x => { x with state := 2, failedRetrains := 0 }
    let s := s.recomputeUsable
    match x.pointWait with
    | some (msg, p) =>
      let s := (s.updLaceMod m fun x => { x with pointWait := none, pendingPoint := some p }).startRetrain m
      State.arbitrate s.reg.arbiter.length (s.reply msg 0xC084 stOk [])
    | none =>
      let s := if x.pendingPoint.isSome then s.startRetrain m else s
      State.arbitrate s.reg.arbiter.length s
  else s

/-! ### Handover and return (R206, R207) -/

/-- A HANDOVER flit on module p: this end's flits that the down module has not delivered take fresh credits here, in order. -/
def State.takeHandover (s : State) (p : Nat) (e : LaceEnd) (f : Flit) : State :=
  let m := partner p
  let x := s.laceMod m
  let bit := match e with | .hub => 1 | .die => 2
  let seq := f.word 10 % 1024
  if x.state ≠ 4 ∨ f.word 10 < 32768 ∨ x.handoverSeen / bit % 2 = 1 then s
  else
    let moved := if (x.side e).inFlight seq then (x.side e).replay.dropWhile fun q => decide (q.seq ≠ seq)
      else if seq = (x.side e).nextSeq then [] else (x.side e).replay
    let s := s.updSide p e fun d => { d with ready := moved.flatMap (·.msgs) ++ (x.side e).ready ++ d.ready }
    let s := (s.updSide m e fun d => { d with replay := [], ready := [], uReq := 0, uRsp := 0 }).sendReady p e
    let s := s.updLaceMod m fun x => { x with handoverSeen := x.handoverSeen + bit }
    if (s.laceMod m).handoverSeen = 3 then
      let s := (s.updLaceMod p fun x => { x with carryAll := true }).recomputeUsable
      State.arbitrate s.reg.arbiter.length s
    else s

/-- A RETURN flit: when both ends have one, the module is UP again with a fresh sequence space. -/
def State.takeReturn (s : State) (m : Nat) (e : LaceEnd) : State :=
  let x := s.laceMod m
  let bit := match e with | .hub => 1 | .die => 2
  if !x.returnSent ∨ x.returnSeen / bit % 2 = 1 then s
  else
    let s := s.updLaceMod m fun x => { x with returnSeen := x.returnSeen + bit }
    if (s.laceMod m).returnSeen = 3 then
      let s := s.updLaceMod m fun x =>
        { x with state := 2, returning := false, returnSent := false, returnSeen := 0, failedRetrains := 0
                 hub := { laceSideReset with ready := x.hub.ready }, die := { laceSideReset with ready := x.die.ready }
                 handoverSeen := 0 }
      let s := (s.updLaceMod (partner m) fun x => { x with carryAll := false }).recomputeUsable
      State.arbitrate s.reg.arbiter.length s
    else s

/-! ### Training flits (R191, R209) -/

/-- Rate code of a TRAIN flit's GT/s. -/
def rateCode (gt : Nat) : Option (Fin 3) := if gt = 32 then some 0 else if gt = 24 then some 1 else if gt = 16 then some 2 else none

/-- The next operating point of Table — Module operating points. -/
def nextPoint (rate : Fin 3) (half : Bool) : Option (Fin 3 × Bool) :=
  if rate.val < 2 then some (Fin.ofNat 3 (rate.val + 1), half) else if half then none else some (0, true)

/-- Parameters: the highest version both ends support, which can only be version 1. -/
def State.takeParameters (s : State) (m : Nat) (f : Flit) : State :=
  if (f.byte 1).testBit 0 then s.updLaceMod m fun x => { x with version := 1 }
  else
    let s := s.mapLace fun l => { l with versionFault := true }
    let s := s.updLaceMod m fun x => { x with version := 0 }
    raise { Ev.of (srcLaceVersion (m / 2)) with detail := [m, 0, 0, f.byte 1] } s

/-- Done at an end: after both, the operating point holds and, in a retrain, each end sends its CREDIT flit; at bring-up the module
is UP. A margin below 15 % UI leads to the next point (18 R434). -/
def State.takeDone (s : State) (m : Nat) (e : LaceEnd) (f : Flit) (margin : Nat) (repaired : Byte) : State :=
  match rateCode (f.byte 2), decide (f.byte 3 = 64), decide (f.byte 3 = 32) with
  | some r, full, halved =>
    if !full && !halved then s.retrainFails m
    else
      let s := (s.updSide m e fun d => { d with trainSeen := true }).sendTrain m e 2 (r, halved)
      let x := s.laceMod m
      if !(x.hub.trainSeen && x.die.trainSeen) then s
      else
        let s := s.updLaceMod m fun x =>
          { x with rate := r, half := halved, lanesRepaired := repaired.toNat, margin, pendingPoint := none }
        let s := if halved ∧ !x.aim.2 then raise { Ev.of (srcLace m 4) with detail := [m] } s else s
        let s := if margin < 15 then
            match nextPoint r halved with
            | some p =>
              let s := s.mapPower fun q => { q with derateLace := Tab.set (fun _ => 0) m (Tab.get (fun _ => 0) q.derateLace m + 1) q.derateLace }
              raise { Ev.of 929 with detail := [m] } (s.updLaceMod m fun x => { x with pendingPoint := some p })
            | none => s.moduleDown m
          else s
        if (s.laceMod m).state = 3 then
          let s := s.updBoth m fun d => { d with incReq := 0, incRsp := 0 }
          (s.sendCtrl m .hub 0 1 0).sendCtrl m .die 0 1 0
        else if (s.laceMod m).state = 1 then
          if s.lace.versionFault then s
          else
            let s := s.updLaceMod m fun x => { x with state := 2, hub := laceSideReset, die := laceSideReset, failedRetrains := 0 }
            (s.mapLace fun l => { l with lost := l.lost &&& ~~~(1#2 <<< (m / 2)) }).recomputeUsable
        else s
  | none, _, _ => s.retrainFails m

/-! ### Receiving a flit -/

/-- A due injection of a kind on a module and receiving end (16 R400): die to hub is received by the hub. -/
def State.laceInj (s : State) (kind m : Nat) (e : LaceEnd) : Option (Nat × Injection) :=
  s.injs.find? fun p => decide (p.2.d.kind.toNat = kind) && p.2.due && decide (fld p.2.d.target 0 2 = m % 2)
    && decide (fld p.2.d.target 2 1 = m / 2) && decide (fld p.2.d.target 8 1 = if e = .hub then 1 else 0)

/-- A DATA flit in turn (R194, R197): accepted, or a protocol error when the pool is full or a message is malformed. -/
def State.acceptData (s : State) (m : Nat) (e : LaceEnd) (f : Flit) (c : LClass) : State :=
  let d := s.side m e
  if d.occReq + d.occRsp ≥ 768 then s.protocolError m
  else match f.walk c (decide (e = .hub)) 16 0 (match c with | .req => d.contReq | .rsp => d.contRsp) with
    | none => s.protocolError m
    | some k =>
      let s := if e = .hub then s.pmLace m 1 else s
      let s := s.updSide m e fun d =>
        { d with expected := (d.expected + 1) % 1024, nakAt := none, sinceAck := d.sinceAck + 1
                 occReq := d.occReq + (if c = .req then 1 else 0), occRsp := d.occRsp + (if c = .rsp then 1 else 0)
                 contReq := if c = .req then k else d.contReq, contRsp := if c = .rsp then k else d.contRsp }
      if d.sinceAck + 1 ≥ 64 then s.sendCtrl m e 0 1 0 else s

/-- A DATA flit (R194). -/
def State.takeData (s : State) (m : Nat) (e : LaceEnd) (f : Flit) (c : LClass) : State :=
  let k := (f.seq + 1024 - (s.side m e).expected) % 1024
  if k = 0 then s.acceptData m e f c
  else if k ≤ 511 then
    (raiseFencing { Ev.of (srcLace m 0) with detail := [m, if e = .hub then 1 else 0, f.seq] } (.module m) s).nakIfAllowed m e
  else (s.countLace m 3).sendCtrl m e 0 1 0

/-- A CTRL flit by its kind. -/
def State.takeCtrl (s : State) (m : Nat) (e : LaceEnd) (f : Flit) (acknak : Nat) : State :=
  let s := s.takeCredit m e f acknak
  match f.byte 0 with
  | 0 => s.retrainEnds m
  | 1 => s.startRetrain m
  | 2 => s.takeHandover m e f
  | 3 => s.takeReturn m e
  | _ => s.protocolError m

/-- A TRAIN flit by its kind; one that fails its pattern check fails the training, or is a protocol error outside one. -/
def State.takeTrain (s : State) (m : Nat) (e : LaceEnd) (f : Flit) (margin : Nat) (repaired : Byte) : State :=
  let st := (s.laceMod m).state
  if !f.patternOk then (if st = 1 ∨ st = 3 then (s.protocolError m).retrainFails m else if st = 2 then s.protocolError m else s)
  else if st ≠ 1 ∧ st ≠ 3 then s
  else match f.byte 0 with
    | 0 => s
    | 1 => s.takeParameters m f
    | 2 => s.takeDone m e f margin repaired
    | _ => s.protocolError m

/-- The RETURN flits go out once every flit of the returning module's channels on the carrying module is acknowledged (R207). -/
def State.tryReturn (s : State) (m : Nat) : State :=
  let x := s.laceMod m
  let mine (q : LinkMsg) : Bool := q.channel.any fun c => decide (homeModule c.val = m)
  let open_ (d : LaceSide) : Bool := d.ready.any mine || d.replay.any fun f => f.msgs.any mine
  let p := s.laceMod (partner m)
  if !x.returning ∨ x.returnSent ∨ open_ p.hub ∨ open_ p.die then s
  else ((s.updLaceMod m fun x => { x with returnSent := true }).sendCtrl m .hub 3 1 0).sendCtrl m .die 3 1 0

/-- What may go out after a flit has been taken: messages that a credit or an acknowledgement has freed, and a RETURN. -/
def State.afterFlit (s : State) (m : Nat) : State :=
  [m, partner m].foldl (fun s k => ((s.sendReady k .hub).sendReady k .die).tryReturn k) s

/-- A flit received at an end of a module (R194, Sender and receiver). -/
def State.takeFlit (s : State) (m : Nat) (e : LaceEnd) (f : Flit) (margin : Nat) (repaired : Byte) : State :=
  let st := (s.laceMod m).state
  if !s.hasModule m ∨ st = 0 then s
  else
    let data := decide (f.type = 1) || decide (f.type = 2)
    match (if data then s.laceInj 5 m e else none), (if f.type = 8 then s.laceInj 6 m e else none) with
    | some (n, x), _ => (s.spendInj n x).crcFails m e f.type f.seq (some x.tag)
    | none, some (n, x) => s.spendInj n x
    | none, none =>
      if !f.crcOk then s.crcFails m e f.type f.seq none
      else
        let drop := if f.acknak ≠ 0 then s.laceInj 7 m e else none
        let s := match drop with | some (n, x) => s.spendInj n x | none => s
        let acknak := if drop.isSome then 0 else f.acknak
        if st = 4 then (if f.type = 8 ∧ f.byte 0 = 3 then s.takeReturn m e else s)
        else if !(s.side m e).ackValid acknak f.ackSeq then s.protocolError m
        else
          let s := s.takeAck m e acknak f.ackSeq
          if f.type = 1 then s.takeData m e f .req
          else if f.type = 2 then s.takeData m e f .rsp
          else if f.type = 8 then s.takeCtrl m e f acknak
          else if f.type = 12 then s.takeTrain m e f margin repaired
          else s.protocolError m

def State.receive (s : State) (m : Nat) (e : LaceEnd) (f : Flit) (margin : Nat) (repaired : Byte) : State :=
  (s.takeFlit m e f margin repaired).afterFlit m

/-- DATA (R194). -/
def execDataFlitReceived (m : Fin 4) (e : LaceEnd) (f : Flit) (s : State) : Out := .next (s.receive m.val e f 100 0)
/-- CREDIT (R198, R200). -/
def execCreditFlit (m : Fin 4) (e : LaceEnd) (f : Flit) (s : State) : Out := .next (s.receive m.val e f 100 0)
/-- RETRAIN_REQUEST (R191, R203). -/
def execRetrainRequest (m : Fin 4) (e : LaceEnd) (f : Flit) (s : State) : Out := .next (s.receive m.val e f 100 0)
/-- HANDOVER (R206). -/
def execHandover (m : Fin 4) (e : LaceEnd) (f : Flit) (s : State) : Out := .next (s.receive m.val e f 100 0)
/-- RETURN (R207). -/
def execReturnFlit (m : Fin 4) (e : LaceEnd) (f : Flit) (s : State) : Out := .next (s.receive m.val e f 100 0)
/-- TRAIN of kind pattern (R191). -/
def execTrainPattern (m : Fin 4) (e : LaceEnd) (f : Flit) (s : State) : Out := .next (s.receive m.val e f 100 0)
/-- TRAIN of kind parameters (R209). -/
def execTrainParameters (m : Fin 4) (e : LaceEnd) (f : Flit) (s : State) : Out := .next (s.receive m.val e f 100 0)
/-- TRAIN of kind done (R202), with the least lane margin and the lanes replaced of this training. -/
def execTrainDone (m : Fin 4) (e : LaceEnd) (f : Flit) (margin : Nat) (repaired : Byte) (s : State) : Out :=
  .next (s.receive m.val e f margin repaired)

/-! ### Timers (R195, R196, R198, R200, R201, R203, R206, R207) -/

def State.laceUp (s : State) (m : Nat) : Bool := s.hasModule m && decide ((s.laceMod m).state = 2)

/-- ACK_DUE: 100 ns after the first flit accepted since the last ACK. -/
def execAckDue (m : Fin 4) (e : LaceEnd) (s : State) : Out :=
  if s.laceUp m.val ∧ (s.side m.val e).sinceAck > 0 then .next (s.sendCtrl m.val e 0 1 0) else .next s

/-- CTRL_FLIT_DUE: the buffers in use free, and their credits go out with the next CTRL flit (the delay is the model's choice within
R198, log 48). -/
def execCtrlFlitDue (m : Fin 4) (e : LaceEnd) (s : State) : Out :=
  if s.laceUp m.val then
    let s := s.updSide m.val e fun d =>
      { d with incReq := d.incReq + d.occReq, incRsp := d.incRsp + d.occRsp, occReq := 0, occRsp := 0 }
    .next (s.sendCtrl m.val e 0 1 0)
  else .next s

/-- REPLAY_TIMER_EXPIRY: every unacknowledged flit again; the fourth time without progress starts a retrain. -/
def execReplayTimerExpiry (m : Fin 4) (e : LaceEnd) (s : State) : Out :=
  let d := s.side m.val e
  if !s.laceUp m.val ∨ d.replay.isEmpty then .next s
  else
    let s := s.replayFrom m.val e d.oldest
    let s := s.updSide m.val e fun d => { d with timeouts := d.timeouts + 1 }
    let s := raiseFencing { Ev.of (srcLace m.val 1) with detail := [m.val, if e = .hub then 0 else 1, d.oldest] } (.module m.val) s
    if d.timeouts + 1 ≥ 4 then .next (s.startRetrain m.val) else .next s

/-- CREDIT_LEAK_DETECTED: the leak test has held for 10 µs; a retrain is scheduled. -/
def execCreditLeakDetected (m : Fin 4) (e : LaceEnd) (s : State) : Out :=
  if s.laceUp m.val ∧ (s.side m.val e).leakRun ∧ !(s.laceMod m.val).leakScheduled then
    .next (raise { Ev.of (srcLace m.val 2) with detail := [m.val, 0, 0, (s.side m.val e).leak] }
      (s.updLaceMod m.val fun x => { x with leakScheduled := true }))
  else .next s

/-- LEAK_RETRAIN_START (R201). -/
def execLeakRetrainStart (m : Fin 4) (s : State) : Out :=
  if s.laceUp m.val ∧ (s.laceMod m.val).leakScheduled then .next ((s.countLace m.val 5).startRetrain m.val) else .next s

/-- SILENCE_TIMEOUT (R203). -/
def execSilenceTimeout (m : Fin 4) (s : State) : Out := if s.laceUp m.val then .next (s.startRetrain m.val) else .next s

/-- RETRAIN_TIMEOUT (R203): a retrain not complete within 10 µs, or a training at bring-up that does not end. -/
def execRetrainTimeout (m : Fin 4) (s : State) : Out :=
  let st := (s.laceMod m.val).state
  if s.hasModule m.val ∧ (st = 3 ∨ st = 1) then .next (s.retrainFails m.val).wake else .next s

/-- HANDOVER_TIMEOUT (R206). -/
def execHandoverTimeout (die : Fin 2) (s : State) : Out :=
  let pend (m : Nat) : Bool :=
    decide ((s.laceMod m).state = 4) && decide ((s.laceMod (partner m)).state ≠ 4) && !(s.laceMod (partner m)).carryAll
      && decide ((s.laceMod (partner m)).state ≠ 0)
  if s.hasModule (2 * die.val) ∧ (pend (2 * die.val) ∨ pend (2 * die.val + 1)) then .next (s.dieDown die.val).wake else .next s

/-- RETURN_ATTEMPT (R207). -/
def execReturnAttempt (m : Fin 4) (trained : Bool) (s : State) : Out :=
  let x := s.laceMod m.val
  if s.hasModule m.val ∧ x.state = 4 ∧ (s.laceMod (partner m.val)).carryAll ∧ x.returnAttempts < 16 ∧ !x.soaking ∧ !x.returning then
    .next (s.updLaceMod m.val fun x => { x with returnAttempts := x.returnAttempts + 1, soaking := trained })
  else .next s

/-- RETURN_SOAK_END (R207): 100 ms of TRAIN flits without a CRC failure; both ends then exchange RETURN. -/
def execReturnSoakEnd (m : Fin 4) (clean : Bool) (s : State) : Out :=
  if !(s.laceMod m.val).soaking then .next s
  else
    .next ((s.updLaceMod m.val fun x => { x with soaking := false, returning := clean, returnSent := false, returnSeen := 0 }).tryReturn m.val)

/-! ### Link messages (R192) -/

/-- A message of 1 to 7 entries; any other count is malformed. -/
def countOk (n : Nat) : Bool := decide (1 ≤ n) && decide (n ≤ 7)

/-- The module carries the channel. -/
def State.carries (s : State) (m ch : Nat) : Bool := s.hasModule m && s.hasChannel ch && decide (s.carrier ch = m)

/-- READ: the request enters its channel queue, one entry for its 1 to 16 lines. -/
def execDieRead (m : Fin 4) (r : ReqSlot) (s : State) : Out :=
  if !s.carries m.val r.channel.val then .next s
  else .next (s.enqueue r.channel.val
    { tag := r.tag, master := r.master, priority := r.priority, rt := r.rt, write := false, frame := r.frame, line := r.line
      count := r.countM1.val + 1, aged := false })

/-- WRITE: the request enters its channel queue, and the line and its side bits stand in DRAM. -/
def execDieWrite (m : Fin 4) (r : ReqSlot) (data : Line) (side : Side) (s : State) : Out :=
  if !s.carries m.val r.channel.val ∨ channelOf s.w r.frame.toNat ≠ r.channel.val then .next s
  else
    let s := s.enqueue r.channel.val
      { tag := r.tag, master := r.master, priority := r.priority, rt := r.rt, write := true, frame := r.frame, line := r.line
        count := 1, aged := false }
    .next ((s.setRaw r.frame.toNat r.line.val { data, side }).pmChan r.channel.val 2)

def chanCmdName : ChanCmd → String
  | .park => "park"
  | .rateChange => "rate change"
  | .repair => "repair"
  | .training => "training"

/-- CHANNEL_COMMAND: the die takes it. -/
def execChannelCommand (m : Fin 4) (ch : Fin 12) (k : ChanCmd) (tag : BitVec 13) (s : State) : Out :=
  if !s.carries m.val ch.val then .next s
  else .next ((s.updLaceMod m.val fun x => { x with commands := x.commands ++ [(tag, ch, k)] }).emit (.ddr ch (chanCmdName k) 0))

/-- EVENT: the hub raises the die's event, once for its number, and answers with EVENT_TAKEN. -/
def execDieEvent (m : Fin 4) (num : W16) (source : BitVec 11) (s : State) : Out :=
  let lo := 1024 + 512 * (m.val / 2)
  if !s.hasModule m.val ∨ source.toNat < lo ∨ source.toNat ≥ lo + 384 ∨ (s.laceMod m.val).events.contains num then .next s
  else
    let s := fire source.toNat (s.updLaceMod m.val fun x => { x with events := x.events ++ [num] })
    .next (s.post m.val .hub (eventTakenMsg num))

/-- The entries of a channel queue with a tag leave it, and so do those that waited for a place in it. -/
def State.dequeue (s : State) (tag : BitVec 13) (write : Bool) : State :=
  let mine (r : ChanReq) : Bool := decide (r.tag = tag) && (r.write == write)
  s.ddr.chans.foldl (fun s c =>
    let s := s.updChan c.1 fun x => { x with incoming := x.incoming.filter fun r => !mine r }
    (c.2.queue.filter mine).foldl (fun s r => s.leaveQueue c.1 r) s) s

/-- LINE_DATA: each entry reaches the tracker tag that waits for it; the last line of a READ takes it out of its channel queue. -/
def execLineData (m : Fin 4) (entries : List LineEntry) (s : State) : Out :=
  if !s.hasModule m.val then .next s
  else if !countOk entries.length then .next (s.protocolError m.val)
  else
    let s := entries.foldl State.takeLine s
    .next ((entries.filter (·.last)).foldl (fun s x => s.dequeue x.tag false) s).wake

/-- WRITE_DONE. -/
def execWriteDone (m : Fin 4) (tags : List (BitVec 13)) (s : State) : Out :=
  if !s.hasModule m.val then .next s
  else if !countOk tags.length then .next (s.protocolError m.val)
  else .next (tags.foldl (fun s t => s.dequeue t true) s)

/-- COMMAND_DONE: the status of a channel command; a failed one leaves its channel's work to the timeouts that watch it. -/
def execCommandDone (m : Fin 4) (tag : BitVec 13) (ok : Bool) (s : State) : Out :=
  if !s.hasModule m.val then .next s
  else
    let done := (s.laceMod m.val).commands.filter fun c => decide (c.1 = tag)
    let s := s.updLaceMod m.val fun x => { x with commands := x.commands.filter fun c => decide (c.1 ≠ tag) }
    .next (s.emits (done.map fun c => .ddr c.2.1 (if ok then "command done" else "command failed") 0))

/-- EVENT_TAKEN: the die may give the numbers to new events. -/
def execEventTaken (m : Fin 4) (nums : List W16) (s : State) : Out :=
  if !s.hasModule m.val then .next s
  else if !countOk nums.length then .next (s.protocolError m.val)
  else .next (s.updLaceMod m.val fun x => { x with events := x.events.filter fun n => !nums.contains n })

/-! ### SET_LACE_POINT (R204) -/

/-- SET_LACE_POINT: a retrain at the new point; while the module retrains the change waits. -/
def execSetLacePoint (m : Msg) (module : Byte) (rate : Byte) (half : Byte) (s : State) : Out :=
  s.slafin { op := 0xC084, roles := rBmcOwn, sess := false, l0 := true, secure := false, inLen := 3, body := 0 } m fun s =>
    let k := module.toNat
    if !s.hasModule k ∨ rate.toNat > 2 ∨ half.toNat > 1 then .done stInvalidRange [] s
    else
      let x := s.laceMod k
      let p : Fin 3 × Bool := (Fin.ofNat 3 rate.toNat, decide (half.toNat = 1))
      if x.carryAll ∨ x.state = 4 ∨ x.state = 0 then .done stDenied [] s
      else if x.pointWait.isSome then .done stBusy [] s
      else if x.state = 2 then .done stOk [] ((s.updLaceMod k fun x => { x with pendingPoint := some p }).startRetrain k)
      else .later (s.updLaceMod k fun x => { x with pointWait := some (m, p) })

end Sys2Proof.Machine
end

