-- ==== Sys2Proof/Machine/Links.lean ====
section
/-! DEFINITION. Heads and functions that go away: the LD reset (18 R426, 13 R335, 14 R351, R357, 12 R309, 17 R409, R414), the link
down of a head (12 R299), binding (12 R310). -/

namespace Sys2Proof.Machine

/-! ### Requests that are discarded -/

/-- A request leaves the tracker without an answer; what it has at the arbiter, in a channel queue or in a rebuild goes with it. A merge entry that
holds bytes of it is carried out (12 R299) and no longer names its tag, which another request may take (01 R18). -/
def State.discard (s : State) (r : Req) : State :=
  let waits := s.reg.arbiter.any fun q => decide (q.tag = r.tag)
  let reading := (decide (r.phase = .line) || decide (r.phase = .chunk)) && decide (r.got.length < r.cnt) && !waits
  let s := s.mapReg fun x => { x with arbiter := x.arbiter.filter fun q => decide (q.tag ≠ r.tag) }
  let s := s.mapWelt fun w => { w with rebuilds := w.rebuilds.filter fun j => decide (j.forWhom ≠ .request r.tag) }
  let s := s.mapPath fun p => { p with merge := p.merge.map fun m => { m with tags := m.tags.filter (· ≠ r.tag) } }
  let s := (s.dequeue r.tag false).dropReq r.tag
  if reading then s.updMaster r.ld.val fun m => { m with inflight := m.inflight - 1 } else s

def State.discardAll (s : State) (p : Req → Bool) : State := (s.path.reqs.filter p).foldl State.discard s

/-! ### The LD reset -/

/-- The queues of an LD become FREE and its doorbell bindings UNBOUND; quota and weight stay (13 R335). -/
def State.freeQueues (s : State) (ld : Nat) : State :=
  let mine := s.poq.ctxs.filterMap fun p => match p.2 with
    | some q => if q.ld.val = ld then some p.1 else none
    | none => none
  let s := mine.foldl (fun s k => s.setCtx k none) s
  let s := s.mapPoq fun x => { x with cached := x.cached.filter fun p => match p.2 with
    | some (q, _) => !mine.contains q.toNat
    | none => false }
  let s := s.mapShank fun k => { k with harden := k.harden.filter fun h => !mine.contains h.1.toNat }
  s.updPoqLd ld fun x => { x with queues := 0, binds := [] }

/-- The Eyelet channels and the event ring of an LD return to their reset values; commands in execution finish and write nothing
(14 R351). That the event ring is Eyelet state is DEDUCED, log 50. -/
def State.resetEyelet (s : State) (ld : Nat) : State :=
  let s := (List.range 16).foldl (fun (s : State) c => s.updEye (ld * 16 + c) fun e =>
    { eyeReset with orphans := e.orphans ++ e.running.map (·.1) }) s
  s.updCmdLd ld fun c =>
    { c with ringLog2 := 4, ringEnable := false, ringBase := 0, vector := 0xFFFF, head := 0, tail := 0, overflow := false, phase := true
             seq := 0, version := 1 }

/-- Releases a lock. -/
def State.freeLock (s : State) (k : Nat) : State := s.setLock k lockReset

/-- Locks that a reset of a function releases: those of the LD, or of the fabric manager when it last read the lock through this
FM-owned LD (14 R357). -/
def State.releaseLocks (s : State) (fn : Nat) : State :=
  (List.range 8).foldl (fun (s : State) k =>
    let l := s.lock k
    let gone := if fn < 32 then decide (l.holder.map (·.val) = some fn)
      else decide (l.holder.map (·.val) = some 33) && decide (l.fmVia.map (·.val) = some (fn - 32))
    if gone then s.freeLock k else s) s

/-- Releases the samplers that a function owns (17 R414). -/
def State.freeSamplers (s : State) (fn : Nat) : State :=
  (List.range 2).foldl (fun (s : State) p =>
    if (s.sampler p).owner.map (·.val) = some fn then s.updSampler p fun x => { x with owner := none } else s) s

/-- The monitoring instances of a function at reset: its fixed counters count from now (17 R409). -/
def State.clearPerf (s : State) (fn : Nat) : State :=
  s.setPerfFn fn { perfReset with fixedSince := (List.range 21).foldl (fun t u => Tab.set (fun _ => 0) u s.time t) [] }

/-- The LD reset of function fn (18 R426): an LD, or an FM-owned LD at 32 + its head. It ends the lock of the TSP configuration (05 R117). -/
def State.resetFn (s : State) (fn : Nat) : State :=
  let destroyers := s.poq.ctxs.filterMap fun p => p.2.bind fun q => if q.ld.val = fn then q.destroyer else none
  let s := if fn < 32 then (s.freeQueues fn).resetEyelet fn else s
  let s := destroyers.foldl (fun s m => s.reply m 0xC041 stOk []) s
  let s := s.updTspOf fn fun t => { t with locked := false }
  let s := (s.releaseLocks fn).updFn fn fun f => { f with mask := [], msixPending := [], regs := [] }
  (s.freeSamplers fn).clearPerf fn

/-! ### Binding (12 R310) -/

/-- An LD is bound while its head's link is up and it holds an allocation. -/
def State.boundNow (s : State) (ld : Nat) : Bool :=
  match (s.fn ld).head with
  | some h => (s.headOf h.val).up && decide ((s.fn ld).allocation ≠ 0)
  | none => false

/-- Offers reach an LD that is bound on a head with 256-byte flits (10 R263, 12 R292). -/
def State.offersReach (s : State) (ld : Nat) : Bool :=
  (s.fn ld).bound && match (s.fn ld).head with | some h => !s.head68 h.val | none => true

/-- Sends the offers that wait for an LD: restored extents, and the adds of the fabric manager (10 R263). -/
def State.sendOffers (s : State) (ld : Nat) : State :=
  if !s.offersReach ld then s
  else
    let s := (s.cmd.offers.filter fun o => decide (o.1.val = ld)).foldl (fun s o =>
      s.emit (.offer o.1 (o.2.devDpn.toNat * 4096) (o.2.pages.toNat * 4096) o.2.tag
        (match o.2.region with | some r => r.val | none => 0xFF))) s
    (s.cmd.adds.filter fun o => decide (o.1.val = ld)).foldl (fun s o =>
      s.emit (.offer o.1 (o.2.ldDpn.toNat * 4096) (o.2.pages.toNat * 4096) o.2.tag o.2.region.val)) s

/-- Brings the binding of an LD up to date: an LD reset when it ends, the waiting offers when it begins. -/
def State.bind (s : State) (ld : Nat) : State :=
  let was := (s.fn ld).bound
  let now := s.boundNow ld
  let s := s.updFn ld fun f => { f with bound := now }
  if was ∧ !now then s.resetFn ld else if now ∧ !was then s.sendOffers ld else s

/-! ### Link down (12 R299) -/

/-- A head's link goes down: what it received or accepted and did not carry out is discarded, and each LD bound to it takes an LD reset. Lines in
the write buffer and merge entries are carried out. -/
def State.headDown (s : State) (h : Nat) : State :=
  let s := s.updHeadOf h fun x => { x with up := false, link := none, l0p := 0 }
  let s := s.mapPath fun p => { p with held := p.held.filter fun x => decide (x.a.head.val ≠ h) }
  let s := (s.discardAll fun r => decide (r.head.val = h)).flushBacks
  let s := (List.range s.nLds).foldl (fun (s : State) n => if (s.fn n).head.map (·.val) = some h then s.bind n else s) s
  s.freeSamplers (32 + h)

end Sys2Proof.Machine
end

