-- ==== Sys2Proof/Machine/Shank.lean ====
section
/-! DEFINITION. Shank in service (09): the record log and the shadow writer, epochs, refresh laps, the dirty window, the hold-up
bank, and shadow repair (04 R91). -/

namespace Sys2Proof.Machine

/-! ### Drives and the record log (R236, R237, R243) -/

/-- SHADOW_STATUS.STATE (R248): 0 NO_IMAGE, 1 PROTECTED, 2 DEGRADED, 3 REBUILDING, 4 SAVING, 5 SAVED. -/
def State.shadowState (s : State) : Nat :=
  if s.shank.saveDone then 5 else if s.shank.saveStep ≠ 0 then 4
  else if !s.shank.imageExists ∨ s.shank.firstLap then 0
  else match s.shank.failedMember with
    | none => 1
    | some d => if (s.drive d.val).state = 3 then 3 else 2

/-- A drive that takes writes: ACTIVE or REBUILDING. -/
def State.driveWrites (s : State) (n : Nat) : Bool := decide ((s.drive n).state = 1) || decide ((s.drive n).state = 3)

/-- LAYOUT of the set. -/
def layoutOf (members : Nat) : Fin 3 := if members ≤ 1 then 0 else if members = 2 then 1 else 2

/-- Capacity of the record log in 64 B units: whole segments from block 16,384 on. -/
def State.logUnits (s : State) : Nat := (s.shank.imageBlocks - 16384) / 16384 * segUnits

/-- Free log space in units. -/
def State.logFree (s : State) : Nat := s.logUnits - (s.shank.headLsn - s.shank.tailLsn)

/-- LOG_LOW below 30 %; SRC_SHANK_LOG_FULL at the 2 % point (R218). -/
def State.checkLog (s : State) : State :=
  let low := decide (100 * s.logFree < 30 * s.logUnits)
  let full := decide (100 * s.logFree < 2 * s.logUnits)
  let was := s.shank.logFull
  let s := s.mapShank fun k => { k with logLow := low, logFull := full }
  if full ∧ !was then fire 772 s else s

/-- The drives that hold the blocks of a record, parity among them, and that take writes. -/
def State.recordDrives (s : State) (lsn units : Nat) : List (Fin 4) :=
  let n := s.shank.members.length
  let lay := layoutOf n
  let base := if s.logUnits = 0 then 0 else lsn % s.logUnits
  let blocks := (List.range (units / 64 + 2)).filter fun i => decide (base / 64 + i ≤ (base + units - 1) / 64)
  let pos := blocks.flatMap fun i =>
    let ib := 16384 + base / 64 + i
    (imagePlace lay.val n ib).map (·.1) ++ (if lay = 2 then [imageParity n ib] else [])
  (pos.eraseDups.filterMap fun p => s.shank.members[p]?).filter fun d => s.driveWrites d.val

def State.shadowMaster (s : State) : Nat := if s.inSave then mSave else mShadow

/-- A record write that all its drives have completed is in the image (R234). -/
def State.recordDone (s : State) (lsn : Nat) : State :=
  match s.shank.writes.find? fun w => decide (w.page.lsn = lsn) with
  | none => s
  | some w =>
    let s := s.mapShank fun k => { k with writes := k.writes.erase w }
    (((s.mapImage fun i => { i with log := i.log ++ [w.page] }).writeImage (.record w.page)).countShank 0).pmShank 1 (1 + w.page.granules.length)

/-- No drive still carries a command of the record. -/
def State.driveWaits (s : State) (lsn : Nat) : Bool := (List.range 4).any fun n => (s.drive n).commands.contains lsn

/-- The records of a segment, in log order. -/
def State.segmentOf (s : State) (seg : Nat) : List Record :=
  (s.image.log ++ s.shank.writes.map (·.page)).filter fun r => decide (r.lsn / segUnits = seg)

/-- Writes the summary of the segment that the next record lies in (R243). -/
def State.closeSegment (s : State) : State :=
  let seg := s.shank.headLsn / segUnits
  s.writeImage (.summary seg (s.segmentOf seg))

/-- Begins the write of a record: its position, its epoch, one command to each drive (R217, R243). -/
def State.beginRecord (s : State) (r : Record) (amount : Nat) : State :=
  let units := 1 + r.granules.length
  let k := s.shank
  let off := k.headLsn % segUnits
  let roll := decide (off + units > segRecordUnits) || decide (k.segRecords ≥ segRecordMax)
  let lsn := if roll then (k.headLsn / segUnits + 1) * segUnits else k.headLsn
  let r := { r with lsn, epoch := k.epoch }
  let first := Tab.get (fun _ => 0) k.epochRecords k.epoch = 0
  let s := if roll then s.closeSegment else s
  let s := s.mapShank fun k =>
    { k with headLsn := lsn + units, segRecords := if roll then 1 else k.segRecords + 1
             epochRecords := Tab.set (fun _ => 0) k.epoch (Tab.get (fun _ => 0) k.epochRecords k.epoch + 1) k.epochRecords
             epochFirst := if first then Tab.set (fun _ => 0) k.epoch lsn k.epochFirst else k.epochFirst
             writes := k.writes ++ [{ page := r, amount }] }
  let ds := s.recordDrives lsn units
  let s := ds.foldl (fun s d => (s.updDrive d.val fun x => { x with commands := x.commands ++ [lsn] }).emit (.drive d "write" lsn)) s
  let s := if ds.isEmpty then s.recordDone lsn else s
  s.checkLog

/-! ### The record of a page (R216, R244) -/

/-- Stored granules of a warm page as they stand, chunk by chunk, with what R216 does about one that cannot be rebuilt; none when
the page became LOST. -/
def State.warmGranules (s : State) (dpn : Dpn) : Option (List (Nat × List (Option Line))) × State :=
  (List.range 4).foldl (fun (acc : Option (List (Nat × List (Option Line))) × State) ch =>
    match acc with
    | (none, s) => (none, s)
    | (some cs, s) =>
      let e := s.entry dpn
      let cnt := (e.chunk ch).cnt.toNat
      let gs := s.granules e ch
      if cnt = 16 then
        let bad := (List.range 16).filter fun g => (gs.getD g none).isNone
        let s := bad.foldl (fun s g => s.granuleLost dpn ch g false) s
        let ls := gs.map fun g => match g with
          | some r => if metaPoison (sideMeta r.side) then none else some r.data
          | none => none
        (some (cs ++ [(16, ls)]), s)
      else if gs.all (·.isSome) then (some (cs ++ [(cnt, gs.map fun g => g.map (·.data))]), s)
      else (none, ((countMismatch dpn ch s).mismatchTail dpn ch false).2)) (some [], s)

/-- Bits of the lines of a page that a list of chunks holds as poison. -/
def poisonMap (cs : List (Nat × List (Option Line))) : W64 :=
  cs.zipIdx.foldl (fun m c => c.1.2.zipIdx.foldl (fun m g =>
    if g.1.isNone then m ||| (1#64 <<< (16 * c.2 + g.2)) else m) m) 0

/-- A record without payload. -/
def emptyRecord (form : Form) (e : LastEntry) (dpn : Dpn) : Record :=
  { form, pinned := e.pinned, hardened := false, lap := false, gen := e.gen, heat := e.heat, dpn, key := e.key, owner := e.owner, epoch := 0
    lsn := 0, counts := [], granules := [], poisonMap := 0, bad := false }

/-- A record with a payload; a poisoned line's granule is a free value. -/
def State.withPayload (s : State) (r : Record) (cs : List (Nat × List (Option Line))) : Record × State :=
  let (gs, s) := (cs.flatMap (·.2)).foldl (fun (acc : List Line × State) g =>
    match g with
    | some x => (acc.1 ++ [x], acc.2)
    | none => let (n, t) := acc.2.draw; (acc.1 ++ [Config.freeLine n], t)) ([], s)
  ({ r with counts := cs.map fun c => BitVec.ofNat 5 c.1, granules := gs, poisonMap := poisonMap cs }, s)

/-- A chunk that the compressor's verify decoder has checked and found different: only a CODED or REPEAT chunk is decoded (04 R89). -/
def verifyMet (v : VerifyFails) (c : Coded) (ch : Nat) : Bool := v.first.getLsbD ch && decide (c.cnt ≠ 0) && decide (c.cnt ≠ 16)

/-- The verify mismatches of a page that the shadow writer compresses, each counted (04 R89). -/
def State.verifyPage (s : State) (dpn : Dpn) (v : VerifyFails) (ls : List (Option Line)) : State :=
  if s.allFenced 0 then s
  else (codePage 0 ls).zipIdx.foldl (fun s c =>
    let one (s : State) : State := raise { Ev.of 540 with dpa := dpn.toNat * 4096, detail := [dpn.toNat * 4096, c.2] } (s.countCodec 2)
    if verifyMet v c.1 c.2 then (if v.again.getLsbD c.2 then one (one s) else one s) else s) s

/-- A page in plaintext coded at a level, as a bin would hold it: chunk counts and encrypted granules. With every compressor fenced, level 0
records headerless raw chunks (04 R94). -/
def State.codedPage (s : State) (dpn : Dpn) (key level : Nat) (ls : List (Option Line)) (v : VerifyFails := {}) : List (Nat × List (Option Line)) :=
  let cs := if level = 0 ∧ s.allFenced 0 then (List.range 4).map fun ch => rawChunk (chunkLines ls ch) else codePage level ls
  cs.zipIdx.map fun c =>
    let c := (if v.again.getLsbD c.2 && verifyMet v c.1 c.2 then rawChunk (chunkLines ls c.2) else c.1, c.2)
    (c.1.cnt.toNat, c.1.granules.zipIdx.map fun g => g.1.map fun x => s.encGranule key dpn.toNat c.2 g.2 x)

/-- The record of a page as it stands (R216, R244), coded at a level when it is hot or when hardening at levels 1 to 9 re-codes it
(R247). -/
def State.pageRecord (s : State) (dpn : Dpn) (level : Nat) (v : VerifyFails := {}) : Record × State :=
  let e := s.entry dpn
  match e.state with
  | .unwritten => (emptyRecord .unwritten e dpn, s)
  | .zero => (emptyRecord .zero e dpn, s)
  | .lost | .restoring => (emptyRecord .lost e dpn, s)
  | .hot | .warm | .inMotion =>
    if e.hotForm then
      let ls := s.pageLines dpn
      (if level = 0 then s.verifyPage dpn v ls else s).withPayload (emptyRecord .hot e dpn) (s.codedPage dpn e.key.toNat level ls v)
    else if level = 0 then
      match s.warmGranules dpn with
      | (some cs, s) => s.withPayload (emptyRecord .warm (s.entry dpn) dpn) cs
      | (none, s) => (emptyRecord .lost (s.entry dpn) dpn, s)
    else
      match s.warmLines dpn false with
      | (some ls, s) => s.withPayload (emptyRecord .warm (s.entry dpn) dpn) (s.codedPage dpn e.key.toNat level ls)
      | (none, s) => (emptyRecord .lost (s.entry dpn) dpn, s)

/-- Lines that the writer reads for a page's record. -/
def LastEntry.recordLines (e : LastEntry) : Nat := if e.hotForm then 64 else if e.warmForm then e.granules else 0

/-- Records a page in the current epoch, its reads charged to M_SHADOW, in a save to M_SAVE (R216, R227). -/
def State.recordPage (s : State) (dpn : Dpn) (amount level : Nat) (f : Record → Record) (master : Nat := s.shadowMaster)
    (v : VerifyFails := {}) : State :=
  let n := (s.entry dpn).recordLines
  let coded := (s.entry dpn).hotForm || (decide (level ≠ 0) && (s.entry dpn).warmForm)
  let (r, s) := s.pageRecord dpn level v
  let s := if n = 0 then s else s.charge master (chargeRead n)
  let s := if !coded then s
    else if level = 0 then (if s.allFenced 0 then s else s.countCodec 0 4).countCodec 1 (r.counts.filter (· = 16)).length
    else (s.pmCodec 2 4).countCodec 1 (r.counts.filter (· = 16)).length
  s.beginRecord (f r) amount

/-! ### The shadow writer (R216, R229, R233) -/

/-- The record log takes records: an image exists, its save has not stopped writing, and queue copies are readable. -/
def State.canRecord (s : State) : Bool :=
  s.shank.imageExists && !s.shank.saveFailed && !s.shank.saveDone && decide (s.shank.saveStep < 3)
    && !(s.ev8820 && s.shank.emergency && decide (s.lace.lost ≠ 0)) && decide (s.resume.imageStep ≠ 1)

/-- Whether the capacity of a device page is durable. -/
def State.capacityDurable (s : State) (dpn : Dpn) : Bool :=
  s.last.maps.any fun p => p.2.any fun e => e.holdsDev dpn.toNat && e.durable

/-- A frame lies on a memory die that is lost. -/
def State.onLostDie (s : State) (f : Nat) : Bool := s.lace.lost.getLsbD (dieOf (channelOf s.w f))

/-- The data frame that holds a page's Last entry (02 R40). -/
def State.entryFrame (s : State) (dpn : Dpn) : Nat := dataAt s.w (s.metaLow * (s.w - 1) + 16 * dpn.toNat / 4096)

/-- The Last entry or the storage of a page lies on a lost die (R233). -/
def State.pageOnLostDie (s : State) (dpn : Dpn) : Bool :=
  let e := s.entry dpn
  ((s.pageWay dpn).isNone && s.onLostDie (s.entryFrame dpn))
    || ((e.hotForm || e.warmForm) && s.onLostDie e.frame.toNat)

/-- The entry of a slot DESTROYED with no pages: all entries that existed then are gone from the queue, so the epoch that closes
next holds the last of their records (05 R120). -/
def State.slotQueuePassed (s : State) : State :=
  let low := s.shank.queue.foldl (fun m q => min m q.serial) s.shank.serial
  (s.keys.slots.map (·.1)).foldl (fun s k => s.updSlot k fun x =>
    match x.zeroSerial, x.zeroEpoch with
    | some z, none => if z ≤ low then { x with zeroEpoch := some s.shank.epoch } else x
    | _, _ => x) s

/-- A page with an entry in the repair table waits at the tail of the queue; a save writes it as it stands (R91). -/
def State.repairWaits (s : State) (dpn : Dpn) : Bool := !s.inSave && s.codec.repair.any fun j => decide (j.dpn = dpn)

/-- A write to the page that the tracker has accepted is not in the write buffer yet: the writer's reads come after it (01 R19). Writes that the window
holds, and those behind them, wait for the writer itself (R222). -/
def State.writePending (s : State) (dpn : Dpn) : Bool :=
  s.path.reqs.any fun r => decide (r.dpn = dpn) && r.write.isSome && decide (r.phase ≠ .window) && decide (r.phase ≠ .order)

/-- SHADOW_RECORD (R216): the first entry of the queue is recorded, skipped, or moved to the tail. A hot page waits for a free compressor (04 R87); `v`
says which chunks the compressor's verify decoder finds different (04 R89). -/
def execShadowRecord (s : State) (v : VerifyFails := {}) : Out :=
  if !s.canRecord then .next s
  else match s.shank.queue with
    | [] => .next s
    | q :: rest =>
      let e := s.entry q.dpn
      let slot := s.slot e.key.toNat
      let amount := queueAmount e q.kind
      let pop (s : State) : State := s.mapShank fun k => { k with queue := rest }
      if s.repairWaits q.dpn then .next (s.mapShank fun k => { k with queue := rest ++ [q] })
      else if slot.state ≠ .loaded ∨ (e.state = .unwritten ∧ !s.capacityDurable q.dpn) then
        .next ((pop s).countShank 1).slotQueuePassed.wake
      else if slot.persistent ∧ !slot.wrapped then .next s
      else if s.shank.emergency ∧ s.pageOnLostDie q.dpn then
        .next ((pop s).beginRecord (emptyRecord .lost e q.dpn) amount).slotQueuePassed.wake
      else match q.kind with
        | .tombstone =>
          .next ((pop s).beginRecord (emptyRecord (if e.state = .lost then .lost else .unwritten) e q.dpn) amount).slotQueuePassed.wake
        | .changed =>
          if s.writePending q.dpn ∨ (e.hotForm ∧ (s.idleEngine 0).isNone ∧ !s.allFenced 0) then .next s
          else
            let s := if e.dirty then (pop s).touchEntry q.dpn fun e => { e with dirty := false } else pop s
            .next (s.recordPage q.dpn amount 0 id (v := v)).slotQueuePassed.wake

/-- DRIVE_COMMAND_COMPLETE (R234): the command of a record on a drive; `id` is the record's LSN. -/
def execDriveCommandComplete (n : Fin 4) (id : Nat) (s : State) : Out :=
  if !(s.drive n.val).commands.contains id then .next s
  else
    let amount := match s.shank.writes.find? fun w => decide (w.page.lsn = id) with
      | some w => 64 * (1 + w.page.granules.length)
      | none => 0
    let s := s.updDrive n.val fun x => { x with commands := x.commands.erase id, written := x.written + amount }
    .next (if s.driveWaits id then s else (s.recordDone id)).wake

/-! ### Epochs (R217) -/

/-- The current epoch ends; later records belong to the next. -/
def State.endEpoch (s : State) : State :=
  s.mapShank fun k => { k with epochEnded := k.epochEnded ++ [k.epoch], epoch := k.epoch + 1 }

/-- EPOCH_END. -/
def execEpochEnd (s : State) : Out :=
  if s.shank.imageExists ∧ s.shank.saveStep = 0 ∧ !s.shank.saveDone then .next s.endEpoch else .next s

/-- Entries of extents of the image that are in no map yet: being restored, offered or declined (10 R263), and the static partition of an
LD whose static entries are not set again (DEDUCED, log 78). -/
def State.heldEntries (s : State) : List RegionEntry :=
  (s.cmd.offers ++ s.cmd.declined).map (·.2) ++ (s.resume.extents.filter fun x => decide (x.state ≠ .restored)).flatMap (·.entries)
    ++ (s.resume.extents.filter fun x => decide (x.state = .restored)).flatMap fun x => x.entries.filter fun e =>
      e.region.isNone && !(s.map e.ld.val).any fun y => y.valid && !y.dc && decide (y.devBase = e.devDpn)

/-- The durable ranges of the capacity maps, each with the position from which its records count (R242). -/
def State.regionEntries (s : State) : List RegionEntry :=
  s.heldEntries ++ s.last.maps.flatMap fun p => (p.2.filter fun e => e.valid && e.durable).map fun e =>
    let region : Option (Fin 8) := if e.dc then some e.region else none
    let old := s.image.regions.find? fun r => decide (r.devDpn = e.devBase) && decide (r.tag = e.tag) && decide (r.pages = e.pages)
    { devDpn := e.devBase, pages := e.pages, addedLsn := match old with | some r => r.addedLsn | none => s.shank.headLsn, region
      ld := Fin.ofNat 32 p.1, shared := e.shared, poisonUnw := e.poisonUnw, tag := e.tag }

/-- Writes the next copy of the region table when it has changed (R217). -/
def State.writeRegions (s : State) : State :=
  if s.shank.regionDirty then
    let s := s.mapImage fun i => { i with regionSeq := i.regionSeq + 1, regionsOld := i.regions, regions := s.regionEntries }
    (s.writeImage (.regions s.image.regionSeq s.image.regions)).mapShank fun k => { k with regionDirty := false }
  else s

/-- Records of an epoch that are still to be completed. -/
def State.epochOpen (s : State) (e : Nat) : Bool := s.shank.writes.any fun w => decide (w.page.epoch = e)

/-- Writes the epoch log entry of an epoch (R241). -/
def State.closeEpoch (s : State) (e : Nat) (kind : CloseKind) : State :=
  let s := s.writeRegions
  let n := Tab.get (fun _ => 0) s.shank.epochRecords e
  let first := if n = 0 then s.shank.headLsn else Tab.get (fun _ => 0) s.shank.epochFirst e
  let mine := s.image.log.filter fun r => decide (r.epoch = e)
  let last := mine.foldl (fun m r => max m (r.lsn + 1 + r.granules.length)) first
  let x : EpochEntry := { epoch := e, kind, records := n, lsnFirst := first, lsnEnd := last, tailLsn := s.shank.tailLsn, time := s.time }
  let s := (s.mapImage fun i => { i with epochs := (i.epochs.filter fun y => decide (y.epoch + 65536 > e)) ++ [x] }).writeImage (.epoch x)
  (s.mapShank fun k =>
    { k with lastClosed := e, epochEnded := k.epochEnded.filter (· ≠ e), epochRecords := Tab.set (fun _ => 0) e 0 k.epochRecords
             epochFirst := Tab.set (fun _ => 0) e 0 k.epochFirst }).countShank 2

/-- DESTROYED slots whose last possible records have closed become EMPTY (05 R120). -/
def State.freeSlots (s : State) : State :=
  (s.keys.slots.map (·.1)).foldl (fun s k =>
    let x := s.slot k
    if x.state = .destroyed then
      match x.zeroEpoch with
      | some e => if e ≤ s.shank.lastClosed then s.emptySlot k else s
      | none => s
    else s) s

/-- Slots that came back DESTROYED become EMPTY once TAIL_LSN has passed the end of the restored image (05 R115). -/
def State.freeResumed (s : State) : State :=
  (s.keys.slots.map (·.1)).foldl (fun s k =>
    let x := s.slot k
    match x.resumed with
    | some l => if x.state = .destroyed ∧ s.shank.tailLsn ≥ l then s.emptySlot k else s
    | none => s) s

/-- Hardening requests that wait for an epoch have their outcome (R247). -/
def State.hardenDone (s : State) (e : Nat) : State :=
  let done := s.shank.harden.filter fun h => decide (h.2.2 ≤ e)
  let s := s.mapShank fun k => { k with harden := k.harden.filter fun h => decide (h.2.2 > e) }
  done.foldl (fun s h => match s.ctx h.1.toNat with
    | none => s
    | some q => s.setCtx h.1.toNat (some { q with execs := q.execs.map fun x =>
        if x.id = h.2.1 then { x with waits := false, finished := match x.finished with | some r => some r | none => some (0, x.d.length) } else x })) s

/-- EPOCH_CLOSE: the oldest ended epoch, once its record writes are complete. -/
def execEpochClose (s : State) : Out :=
  match s.shank.epochEnded with
  | [] => .next s
  | e :: _ =>
    if s.epochOpen e ∨ !s.shank.imageExists ∨ s.shank.saveFailed then .next s
    else
      let kind : CloseKind := if s.shank.harden.any fun h => decide (h.2.2 = e) then .hardenClose else .close
      .next ((s.closeEpoch e kind).hardenDone e).freeSlots.wake

/-! ### Refresh laps (R218) -/

/-- Log space behind TAIL_LSN is deallocated on the drives that take writes (R234). -/
def State.deallocate (s : State) : State :=
  (s.shank.members.filter fun d => s.driveWrites d.val).foldl (fun s d => s.emit (.drive d "deallocate" s.shank.tailLsn)) s

/-- A lap has ended: records older than the start of the previous lap are no longer needed. -/
def State.endLap (s : State) : State :=
  let s := (s.countShank 7).mapShank fun k =>
    { k with tailLsn := k.prevLapStart, prevLapStart := k.lapStart, lapStart := k.headLsn, lapPos := 0, firstLap := false }
  let s := s.mapShank fun k => { k with voids := k.voids.filter fun v => decide (v.2 > k.tailLsn) }
  let s := s.mapImage fun i => { i with log := i.log.filter fun r => decide (r.lsn ≥ s.shank.tailLsn) }
  s.checkLog.freeResumed.deallocate

/-- The next written durable page from a position on. -/
def State.nextDurable (s : State) (pos : Nat) : Option Dpn :=
  let ks := (s.last.table.map (·.1)) ++ s.last.cache.flatMap fun p => p.2.ways.filterMap fun w => w.2.bind fun x => if x.isSpan then none else some x.dpn.toNat
  let ok (k : Nat) : Bool := let e := s.entry (BitVec.ofNat 32 k); decide (k ≥ pos) && e.durable && decide (e.state ≠ .unwritten)
  (ks.filter ok).foldl (fun b k => match b with
    | none => some (BitVec.ofNat 32 k)
    | some d => if k < d.toNat then some (BitVec.ofNat 32 k) else some d) none

/-- REFRESH_LAP_STEP: a fresh record of the next page of the lap, or the end of the lap. A page that cannot be recorded under its
key or is under repair is passed by; laps do not run in a save, and a restoring page keeps its record (DEDUCED, log 51). No lap completes before S3 (10 R267). -/
def execRefreshLapStep (s : State) : Out :=
  if !s.canRecord ∨ s.inSave then .next s
  else match s.nextDurable s.shank.lapPos with
    | none => .next (if s.inResume then s else s.endLap.wake)
    | some d =>
      let e := s.entry d
      let slot := s.slot e.key.toNat
      let s := s.mapShank fun k => { k with lapPos := d.toNat + 1 }
      if slot.state ≠ .loaded ∨ (slot.persistent ∧ !slot.wrapped) ∨ s.repairWaits d ∨ e.state = .restoring then .next s
      else .next (s.recordPage d 0 0 fun r => { r with lap := true }).wake

/-! ### The dirty window (R220 to R223) -/

/-- The parameters of the board that Shank uses; none without a valid board block. -/
def State.holdup (s : State) : Option Board := match s.power.board with | some b => if s.power.boardOk then some b else none | none => none

/-- D, SHORT and SRC_SHANK_HOLDUP_SHORT from the figures in force. -/
def State.computeWindow (s : State) : State :=
  match s.holdup with
  | none => s
  | some b =>
    let raw := windowRaw s.shank.rFlush s.shank.eUsableMj b.pSaveW.toNat s.shank.policy.gpfTimeoutMs
    let short := decide (raw < 16)
    let was := s.shank.short
    let s := s.mapShank fun k => { k with window := windowClamp raw, short }
    if short ∧ !was then fire 769 s else s

/-- WINDOW_RECOMPUTE: `saturatedRate` is the payload rate in MB/s of the past second, when every active drive was busy for half of it;
R_flush is the least of the last 60 s, or stands. -/
def execWindowRecompute (saturatedRate : Option Nat) (s : State) : Out :=
  let s := s.mapShank fun k =>
    let l := (saturatedRate :: k.rFlushLog).take 60
    let r := (l.filterMap id).foldl (fun m x => match m with | none => some x | some y => some (min x y)) none
    { k with rFlushLog := l, rFlush := match r with | some x => x | none => k.rFlush }
  let s := (List.range 4).foldl (fun (s : State) n => s.updDrive n fun d => { d with rate := d.written / 100000000, written := 0 }) s
  .next s.computeWindow.wake

/-! ### The hold-up bank (R225, R226) -/

/-- Capacitance without a valid probe: 0.9 × the stored value, else half the nominal one. -/
def State.fallbackCap (s : State) (b : Board) : Nat :=
  match s.shank.storedCapMf with
  | some c => c * 9 / 10
  | none => b.cNomMf.toNat / 2

/-- One sample of the bank voltage in mV, in the probe. -/
def State.probeSample (s : State) (b : Board) (v : Nat) : State :=
  let full := b.vFullMv.toNat
  let k := s.shank
  if k.probeDone then s
  else match k.probeT40 with
    | none =>
      if k.vSamples.isEmpty ∧ 10 * v > 4 * full then s.mapShank fun k => { k with probeDone := true, capMf := s.fallbackCap b }
      else if 10 * v ≥ 4 * full then s.mapShank fun k => { k with probeT40 := some (s.time / Config.nsMs) }
      else s
    | some t =>
      let invalid (s : State) : State :=
        fire 770 (s.mapShank fun k => { k with probeDone := true, probeFail := true, capMf := s.fallbackCap b })
      if v < k.lastSample then invalid s
      else if 10 * v ≥ 8 * full then
        let c := probeCap b.chargeMa.toNat (s.time / Config.nsMs - t) full
        if b.cNomMf.toNat ≤ 2 * c ∧ 2 * c ≤ 3 * b.cNomMf.toNat then
          s.mapShank fun k => { k with probeDone := true, probed := true, capMf := c, storedCapMf := some c }
        else invalid s
      else s

/-- HOLDUP_SAMPLE: VHOLD_SENSE in mV; the bank voltage is its value times VSENSE_RATIO / 100, averaged over 1 s. -/
def execHoldupSample (senseMv : Nat) (s : State) : Out :=
  match s.holdup with
  | none => .next s
  | some b =>
    let v := senseMv * b.vsenseRatio.toNat / 100
    let s := s.probeSample b v
    let l := (v :: s.shank.vSamples).take 1000
    let mean := l.sum / l.length
    .next (s.mapShank fun k =>
      { k with lastSample := v, vSamples := l, vbankMv := mean, eUsableMj := usableEnergy k.capMf mean b.vMinMv.toNat b.effPct.toNat })

/-! ### Shadow repair (04 R91, 06 R142) -/

/-- The newest record of a page. -/
def State.recordOf (s : State) (dpn : Dpn) : Option Record :=
  (s.image.log.filter fun r => decide (r.dpn = dpn)).foldl (fun b r => match b with
    | none => some r
    | some x => if x.lsn ≤ r.lsn then some r else some x) none

/-- The lines of a chunk of a record; none when it cannot be decoded. A poisoned line is none. -/
def State.recordChunk (s : State) (r : Record) (ch : Nat) : Option (List (Option Line)) :=
  let at_ := ((r.counts.take ch).map (·.toNat)).sum
  let cnt := (r.counts.getD ch 0).toNat
  let gs := ((r.granules.drop at_).take cnt).zipIdx.map fun g => s.decGranule r.key.toNat r.dpn.toNat ch g.2 g.1
  match r.form with
  | .zero => some (List.replicate 16 (some 0))
  | .hot | .warm =>
    if cnt = 16 then some (gs.zipIdx.map fun g => if r.poisonMap.getLsbD (16 * ch + g.2) then none else some g.1)
    else (decodeStored cnt (bytesOfLines gs)).map fun o => (linesOfBytes 16 o).map some
  | .unwritten | .lost => none

/-- Writes the recorded lines over those lines of a hot page that still carry poison, in the write buffer or in DRAM; a migration of the page copies them
again (02 R53). -/
def State.patchLines (s : State) (dpn : Dpn) (ch : Nat) (ls : List (Option Line)) (only : Option (Fin 16)) : State :=
  (List.range 16).foldl (fun (s : State) i =>
    let l := 16 * ch + i
    let e := s.entry dpn
    let mine : Bool := match only with | none => true | some g => decide (g.val = i)
    match ls.getD i none with
    | some x =>
      if mine ∧ (s.hotLine dpn e l).isNone then
        match s.buffered dpn l with
        | some w => s.mapPath fun p => { p with wbuf := replaceFirst (fun q => decide (q.dpn = w.dpn) && decide (q.line = w.line))
                                                  (fun q => { q with data := x, poison := false }) p.wbuf }
        | none =>
          let s := s.writeHotLine dpn e.key.toNat e.frame.toNat l (some x)
          match s.trackerOf dpn with
          | some (n, t) => if t.flipped then s else s.setTracker n (some { t with map := t.map ||| (1#64 <<< l) })
          | none => s
      else s
    | none => s) s

/-- SHADOW_REPAIR_RECORD_READ: the record of a repair entry has been read. A page still WARM at the recorded GEN is promoted, with the
recorded lines in place of the stored ones; a page that a write has promoted meanwhile has its poisoned lines replaced; a record that
is unreadable or fails leaves a WARM page LOST. R91 does not say what becomes of an entry whose page is still WARM but at another GEN (compacted or
relocated) when the record has been read: the entry leaves the table and the chunk stays as it is (DESIGN CHOICE, log 144). -/
def execShadowRepairRecordRead (dpn : Dpn) (chunk : Fin 4) (ok : Bool) (hint : Frame) (s : State) : Out :=
  match s.codec.repair.find? fun j => decide (j.dpn = dpn) && decide (j.chunk = chunk) with
  | none => .next s
  | some j =>
    let e := s.entry dpn
    let s := s.charge mScrub (chargeRead 1)
    let ls := match s.recordOf dpn with
      | some r => if ok ∧ !r.bad then s.recordChunk r chunk.val else none
      | none => none
    let gone (s : State) : State := s.mapCodec fun c => { c with repair := c.repair.erase j }
    match ls with
    | none =>
      if e.state = .warm ∧ e.gen = j.gen then .next ((gone s).toLost dpn).wake
      else .next (gone s).wake
    | some ls =>
      if e.hotForm then .next ((gone s).countCodec 5 |>.patchLines dpn chunk.val ls j.granule).wake
      else if e.state = .warm ∧ e.gen = j.gen then
        match s.startMigration .readPromotion dpn hint with
        | none => .next s
        | some s =>
          match s.trackerOf dpn with
          | none => .next (gone s).wake
          | some (_, t) =>
            let f := (t.dest.getD 0).toNat
            let s := (List.range 16).foldl (fun (s : State) i =>
              let mine : Bool := match j.granule with | none => true | some g => decide (g.val = i)
              if mine then s.writeHotLine dpn e.key.toNat f (16 * chunk.val + i) (ls.getD i none) else s) s
            .next ((gone s).countCodec 5).wake
      else if e.state = .inMotion then .next s
      else .next (gone s).wake

end Sys2Proof.Machine
end

