-- ==== Sys2Proof/Machine/Save.lean ====
section
/-! DEFINITION. The power-fail save (09 R227 to R233), the drives (R232 to R237), the creation of an image (R246), and the commands
of the shadow and drive groups (14). -/

namespace Sys2Proof.Machine

/-! ### Superblocks (R239) -/

/-- NGUIDs of the members by position. -/
def State.driveIds (s : State) : List (BitVec 128) := s.shank.members.map fun d => (s.drive d.val).nguid

def State.positionOf (s : State) (d : Fin 4) : Nat := (s.shank.members.findIdx? (· = d)).getD 0xFF

/-- A superblock as Shank would write it now. A copy is copy B when its SEQ is even. -/
def State.superblock (s : State) (seq : Nat) (clean : Bool) : Superblock :=
  let k := s.shank
  { formatVersion := 1, layout := layoutOf k.members.length, drives := k.members.length, dke := s.keys.dke, seq
    tag := deviceTag s.keys.dke, driveIds := s.driveIds, blocks := k.imageBlocks, clean, degraded := k.failedMember.isSome
    saveFailed := k.saveFailed, shutdownState := k.shutdownState
    copies := BitVec.ofNat 3 ((1 - s.image.keyWrapSeq % 2) + 2 * (1 - s.image.regionSeq % 2) + 4 * (1 - s.image.heatSeq % 2))
    failedDrive := match k.failedMember with | some d => BitVec.ofNat 8 (s.positionOf d) | none => 0xFF
    lastClosed := k.lastClosed, tailLsn := k.tailLsn, headLsn := k.headLsn, dsc := k.dsc
    rebuildIb := match k.failedMember with | some d => (s.drive d.val).rebuilt | none => 0
    time := s.time, voids := k.voids }

/-- Writes copy A, then copy B, with FUA, where a drive of the set takes writes (R232). -/
def State.writeSupers (s : State) (clean : Bool) : State :=
  if !s.shank.members.any fun d => s.driveWrites d.val then s
  else
    let seq := match s.image.supB with | some x => x.seq | none => 0
    let a := s.superblock (seq + 1) clean
    let b := s.superblock (seq + 2) clean
    ((s.mapImage fun i => { i with supA := some a, supB := some b }).writeImage (.super false a)).writeImage (.super true b)

/-- The superblocks again, as the set stands. -/
def State.refreshSupers (s : State) (clean : Bool) : State := if s.shank.imageExists then s.writeSupers clean else s

/-! ### The fence (R228 steps 2 and 3, R23, 03 R73) -/

/-- Injections of Awl that are not yet applied are disarmed when the ports are fenced (16 R402). -/
def State.disarmAwl (s : State) : State := s.mapFault fun f => { f with awl := f.awl.filter fun p => match p.2 with
  | some x => x.marked || x.due
  | none => true }

/-- The migrations end: unflipped ones are abandoned, the sources of flipped ones are released. The read-promotion queue is emptied with them, of which
R73 does not speak (DESIGN CHOICE, log 141). -/
def State.endMigrations (s : State) : State :=
  let s := (List.range Config.trackers).foldl (fun (s : State) n => match s.tracker n with
    | some t => if t.flipped then s.releaseSource n t else (s.abandon t.dpn).giveEngines
    | none => s) s
  s.mapTier fun t => { t with promoQueue := [] }

/-- Step 3: the write buffer is drained, merge entries whose writes have no completion are given up, modified Last entries are written
back. -/
def State.drainAll (s : State) : State :=
  let s := s.mapPath fun p => { p with merge := [] }
  let s := s.path.wbuf.foldl (fun s w => s.drainLine w Upset.none []) s
  s.modifiedWays.foldl State.cleanWay s

/-- Ports fenced, links down, migrations ended, buffers drained. -/
def State.saveFence (s : State) : State :=
  let s := s.mapPath fun p => { p with fenced := true }
  let s := (List.range s.nHeads).foldl (fun (s : State) h => (s.headDown h).emit (.port (Fin.ofNat 4 h) "fence" 0)) s
  let s := (s.discardAll fun _ => true).endMigrations.drainAll.disarmAwl
  s.mapShank fun k => { k with saveStep := 2 }

/-! ### The sequence (R228) -/

/-- A power failure in a resume that has not rewritten the superblocks: SAVE_DONE rises at once and the image is unchanged (10 R268). -/
def State.saveAtOnce (s : State) : State :=
  (s.saveFence.mapShank fun k => { k with saveStep := 4, saveDone := true }).emit (.pin "SAVE_DONE" true)

/-- SAVE_START (R227): PWRFAIL_N has been low for 2 µs, or the FATAL reaction has started an emergency save, which skips step 1. -/
def execSaveStart (s : State) : Out :=
  if s.shank.saveDone then .next s
  else if s.shank.saveStep = 1 ∧ s.shank.emergency then
    .next (if s.inResume ∧ s.resume.imageStep = 0 then (s.countShank 4).saveAtOnce else (s.countShank 4).saveFence)
  else if s.shank.saveStep ≠ 0 then .next s
  else if s.inResume ∧ s.resume.imageStep = 0 then
    .next (((s.countShank 4).mapShank fun k => { k with pwrfailLow := true }).mapPower fun p => { p with state := 1 }).saveAtOnce
  else
    let s := (s.countShank 4).mapShank fun k => { k with saveStep := 1, pwrfailLow := true, gpfHeads := 0 }
    let s := s.mapPower fun p => { p with state := 1 }
    .next (if (List.range s.nLds).any fun n => (s.fn n).bound then s else s.saveFence)

/-- GPF_PHASE1 (R212): complete at once. -/
def execGpfPhase1 (head : Fin 4) (s : State) : Out :=
  if (s.headOf head.val).up then .next (s.emit (.port head "gpf phase 1 complete" 0)) else .next s

/-- Every head with a bound LD has sent phase 2 (R228 step 1; that "port" means each head is DEDUCED, log 53). -/
def State.gpfComplete (s : State) : Bool :=
  (List.range s.nLds).all fun n => !(s.fn n).bound || match (s.fn n).head with
    | some h => s.shank.gpfHeads.getLsbD h.val
    | none => true

/-- GPF_PHASE2 (R212, R228): complete at once; in a save it ends step 1 when it is the last one awaited. -/
def execGpfPhase2 (head : Fin 4) (s : State) : Out :=
  if !(s.headOf head.val).up then .next s
  else
    let s := s.emit (.port head "gpf phase 2 complete" 0)
    if s.shank.saveStep = 1 ∧ !s.shank.emergency then
      let s := s.mapShank fun k => { k with gpfHeads := k.gpfHeads ||| (1#4 <<< head.val) }
      .next (if s.gpfComplete then s.saveFence else s)
    else .next s

/-- GPF_TIMEOUT (R228). -/
def execGpfTimeout (s : State) : Out := if s.shank.saveStep = 1 ∧ !s.shank.emergency then .next s.saveFence else .next s

/-- The save of an image that no queue copy is left for (R233): nothing is recorded and no epoch closes. -/
def State.saveEmptyHanded (s : State) : Bool := s.ev8820 && s.shank.emergency && decide (s.lace.lost ≠ 0)

/-- A resume that has not rewritten the superblocks yet leaves the image unchanged (10 R268). -/
def State.imageUntouched (s : State) : Bool := !s.shank.imageExists

/-- The save is clean: every queued page is in the image. -/
def State.saveClean (s : State) : Bool := s.shank.imageExists && !s.shank.saveFailed && !s.saveEmptyHanded

/-- Step 5: region table copy, SAVE_CLOSE entry, Insole copy, superblocks. -/
def State.closeSave (s : State) : State :=
  let s := if s.saveClean then
      let s := s.shank.epochEnded.foldl (fun s e => s.closeEpoch e .close) s
      let e := s.shank.epoch
      ((s.endEpoch).closeEpoch e .saveClose).freeSlots
    else s
  let s := if s.shank.imageExists ∧ s.shank.segRecords ≠ 0 then s.closeSegment else s
  let s := (s.mapImage fun i => { i with insole := s.fault.insole.reverse }).writeImage (.insole s.fault.insole.reverse)
  s.writeSupers s.saveClean

/-- Step 6: a flush to every active drive. -/
def State.flushDrives (s : State) : State :=
  (s.shank.members.filter fun d => s.driveWrites d.val).foldl (fun s d => s.emit (.drive d "flush" 0)) s

/-- SAVE_QUEUE_EMPTY: every entry is recorded (step 4), and step 5 runs. A save that has stopped writing, or has no image to write to,
goes on at once. -/
def execSaveQueueEmpty (s : State) : Out :=
  if s.shank.saveStep ≠ 2 then .next s
  else
    let step (s : State) : State := s.mapShank fun k => { k with saveStep := 3 }
    if s.imageUntouched then .next (step s)
    else if s.saveClean ∧ !(s.shank.queue.isEmpty && s.shank.writes.isEmpty) then .next s
    else .next (step s.closeSave.flushDrives)

/-- SAVE_FLUSH_COMPLETE (steps 6 and 7, R230): SAVE_DONE rises whatever the outcome, which Insole records (its KIND is a DESIGN
CHOICE, log 54). -/
def execSaveFlushComplete (s : State) : Out :=
  if s.shank.saveStep ≠ 3 then .next s
  else
    let clean := s.saveClean
    let s := if clean then s.countShank 5 else s
    let s := s.mapShank fun k => { k with saveStep := 4, saveDone := true }
    .next ((insoleOther .reset [1, if clean then 1 else 0, if s.shank.saveFailed then 1 else 0] none s).emit (.pin "SAVE_DONE" true))

/-- PARITY_WRITEBACK_DONE (06 R137, R230): the dirty parity lines are in DRAM, the ranks in self-refresh, the state QUIESCED. -/
def execParityWritebackDone (s : State) : Out :=
  if !s.shank.saveDone ∨ s.shank.savedParity then .next s
  else
    let s := (s.welt.pcache.filter (·.dirty)).foldl (fun s p => s.writeBackParity p) s
    let s := (List.range s.channels).foldl (fun (s : State) c => s.setSelfRefresh c true) s
    .next ((s.mapShank fun k => { k with savedParity := true }).mapPower fun p => { p with state := 2 })

/-- The set holds no image any more: what waits for its epochs is given up (R237). -/
def State.loseImage (s : State) : State :=
  s.mapShank fun k => { k with imageExists := false, firstLap := false, saveFailed := false, writes := [], harden := [], logFull := false }

/-- The power state outside a save: ACTIVE from S1 on, RESUME before. -/
def State.servicePower (s : State) : Fin 4 := if s.resume.level = 0 then 3 else 0

/-- PWRFAIL_RETURN (R231): before step 2 the save is abandoned; later it runs to its end. -/
def execPwrfailReturn (s : State) : Out :=
  let low := s.shank.pwrfailLow
  let s := s.mapShank fun k => { k with pwrfailLow := false }
  if low ∧ s.shank.saveStep = 1 ∧ !s.shank.emergency then
    .next (fire 768 ((s.mapShank fun k => { k with saveStep := 0, gpfHeads := 0 }).mapPower fun p => { p with state := s.servicePower })).wake
  else .next s

/-- RESUME_IN_PLACE (R231): everything is kept, the superblock is rewritten with CLEAN = 0, the links retrain. -/
def execResumeInPlace (s : State) : Out :=
  if s.shank.saveDone ∧ s.shank.savedParity ∧ !s.shank.pwrfailLow ∧ s.power.pwrgood then
    let s := s.mapShank fun k =>
      { k with saveStep := 0, saveDone := false, savedParity := false, emergency := false, gpfHeads := 0 }
    -- a set that lost too many drives in the save has no image from now on (R237)
    let s := if s.shank.saveFailed then s.loseImage else s.refreshSupers false
    let s := (List.range s.channels).foldl (fun (s : State) c => s.setSelfRefresh c false) s
    let s := (s.mapPath fun p => { p with fenced := false }).mapPower fun p => { p with state := s.servicePower }
    let s := (List.range s.nHeads).foldl (fun (s : State) h => s.emit (.port (Fin.ofNat 4 h) "train" 0)) s
    .next (s.emit (.pin "SAVE_DONE" false)).wake
  else .next s

/-! ### Drives that fail (R232, R237) -/

/-- Record writes whose last open command went with a drive are complete on the drives that are left. -/
def State.settleWrites (s : State) : State :=
  (s.shank.writes.map (·.page.lsn)).foldl (fun s l => if s.driveWaits l then s else s.recordDone l) s

/-- A member stops: a protected set runs degraded; any other set has lost its image, in a save SAVE_FAILED. That a degraded set that
loses another member in service has no image is DEDUCED, log 55. -/
def State.loseMember (s : State) (d : Fin 4) : State :=
  let k := s.shank
  if k.failedMember = some d then s
  else if k.members.length ≥ 2 ∧ k.failedMember.isNone then
    let s := (s.mapShank fun k => { k with failedMember := some d }).settleWrites
    if s.inSave then s else s.refreshSupers false
  else if s.inSave then s.mapShank fun k => { k with saveFailed := true }
  else s.loseImage

/-- A drive is out: what it carried is gone. -/
def State.failDrive (s : State) (d : Fin 4) (state : Fin 5) : State :=
  let member := s.shank.imageExists && s.shank.members.contains d && s.driveWrites d.val
  let s := s.updDrive d.val fun x => { x with state, commands := [], rate := 0, rebuilt := 0, fit := false }
  if !member then s
  else
    let s := (s.loseMember d).settleWrites
    -- the superblocks of step 5 stand already: they are written again with the outcome (R232)
    if s.shank.saveStep = 3 then s.writeSupers s.saveClean else s

/-- DRIVE_SAVE_TIMEOUT (R232): a command has not completed within 50 ms in a save. -/
def execDriveSaveTimeout (n : Fin 4) (s : State) : Out :=
  if s.inSave ∧ !s.shank.saveDone ∧ s.driveWrites n.val then .next ((s.countShank 6).failDrive n 2) else .next s

/-- DRIVE_FAIL (R237; in a save R232). -/
def execDriveFail (n : Fin 4) (timeout : Bool) (s : State) : Out :=
  if !s.driveWrites n.val then
    .next (if (s.drive n.val).fit then s.updDrive n.val fun d => { d with state := 2, fit := false } else s)
  else
    let s := if timeout then s.countShank 6 else s
    .next ((if s.inSave then s else raise { Ev.of 773 with detail := [n.val] } s).failDrive n 2).wake

/-- Blocks of one drive of the set (R236). -/
def State.driveBlocks (s : State) : Nat :=
  let n := s.shank.members.length
  if layoutOf n = 2 then s.shank.imageBlocks / (n - 1) else s.shank.imageBlocks

/-- DRIVE_REBUILD_STEP (R237): blocks rebuilt onto the replacement; at the end the set is protected again. -/
def execDriveRebuildStep (n : Fin 4) (blocks : Nat) (s : State) : Out :=
  if s.shank.failedMember ≠ some n ∨ (s.drive n.val).state ≠ 3 ∨ s.inSave ∨ s.inResume then .next s
  else
    let s := s.updDrive n.val fun d => { d with rebuilt := min s.driveBlocks (d.rebuilt + blocks) }
    if (s.drive n.val).rebuilt < s.driveBlocks then .next s
    else
      let s := (s.updDrive n.val fun d => { d with state := 1 }).mapShank fun k => { k with failedMember := none }
      .next (s.refreshSupers false)

/-! ### Creating an image (R246) -/

/-- Drives that may join an image. -/
def State.fitDrives (s : State) : List (Fin 4) := (List.finRange 4).filter fun d => (s.drive d.val).fit && s.hasDrive d.val

/-- Steps 2 and 3 of R246: the areas of a new image before its key-wrap copy A, and the calibration write of 1 GiB, deallocated again. -/
def State.clearAreas (s : State) : State :=
  ([.clear 64 192, .clear 256 64, .clear 512 1024, .clear 1536 4096, .clear 5632 4608, .clear 10240 6144, .keyWrap 0 [],
    .regions 1 s.image.regions, .regions 0 [], .heat 1 s.time s.heatBlocks [], .heat 0 0 s.heatBlocks [], .clear 16384 262144] : List ImageWrite).foldl
    State.writeImage s |>.deallocate

/-- Steps 1 to 4 of R246. -/
def State.createImage (s : State) (rate : Nat) : State :=
  let ds := s.fitDrives
  let least := (ds.map fun d => (s.drive d.val).blocks).foldl min ((s.drive (ds.headD 0).val).blocks) / 32 * 32
  let data := if ds.length ≥ 3 then ds.length - 1 else 1
  let s := ds.zipIdx.foldl (fun s p => s.updDrive p.1.val fun d => { d with state := 1, fit := false, position := p.2, rebuilt := 0, commands := [] }) s
  let s := s.mapShank fun k =>
    { k with members := ds, failedMember := none, imageBlocks := least * data, imageExists := true, epoch := 1, epochEnded := []
             epochRecords := [], epochFirst := [], headLsn := 0, segRecords := 0, voids := [], voidBlocks := 0, tailLsn := 0, lapPos := 0, lapStart := 0, prevLapStart := 0
             regionDirty := false, writes := [], lastClosed := 0, dsc := 0, shutdownState := 0, rFlush := rate, rFlushLog := [some rate]
             logLow := false, logFull := false, saveFailed := false }
  let s := { s with image := State.resetImage }
  let s := s.mapImage fun i => { i with regionSeq := 1, regions := s.regionEntries, heatSeq := 1 }
  let s := s.clearAreas.wrapKeys.writeSupers false
  s.mapShank fun k => { k with firstLap := (s.nextDurable 0).isSome }

/-- IMAGE_CREATE: `calibrationRate` is the payload rate in MB/s of the calibration write. -/
def execImageCreate (calibrationRate : Nat) (s : State) : Out :=
  if s.shank.imageExists ∨ s.inSave ∨ s.holdup.isNone ∨ s.fitDrives.isEmpty ∨ (s.resume.image ≠ 0 ∧ s.resume.level ≠ 3) then .next s
  else .next (s.createImage calibrationRate).wake

/-! ### Drives that come and go (R234, R235, R237; 18 R439) -/

/-- The requirements of Table — Drive requirements. -/
def State.driveMeets (s : State) (n : Nat) (d : DriveInfo) : Bool :=
  d.nvmeOk && decide (d.gen.val ≥ 4) && decide (d.atomicLbas ≥ 32) && match s.holdup with
    | some b => b.drivePlp.getLsbD n
    | none => false

/-- A drive that may join: it replaces the failed member of a degraded set and is rebuilt, else it waits for a creation. -/
def State.joinDrive (s : State) (n : Fin 4) : State :=
  match s.shank.failedMember with
  | some old =>
    if s.shank.imageExists ∧ (s.drive old.val).state ≠ 3 ∧ (s.drive n.val).blocks ≥ s.driveBlocks then
      let pos := s.positionOf old
      let s := s.mapShank fun k => { k with members := k.members.map fun d => if d = old then n else d, failedMember := some n }
      let s := s.updDrive n.val fun d => { d with state := 3, fit := false, position := pos, rebuilt := 0 }
      if s.inSave then s else s.refreshSupers false
    else s.updDrive n.val fun d => { d with state := 0, fit := true }
  | none => s.updDrive n.val fun d => { d with state := 0, fit := true }

/-- The drive is a member of the image that the superblocks describe. -/
def State.ownMember (s : State) (d : DriveInfo) : Bool :=
  d.candidate && decide (d.tag = deviceTag s.keys.dke) && match s.image.supB with
    | some x => x.driveIds.contains d.nguid
    | none => false

/-- DRIVE_LINK_UP: the drive is checked. One that fails a check is FAILED; one whose superblock names another device or set is
FOREIGN; a member of the own image is ACTIVE, or is rebuilt when the set has run without it. A lane margin below 10 % UI lowers the port
to 16 GT/s (18 R434). -/
def execDriveLinkUp (n : Fin 4) (d : DriveInfo) (s : State) : Out :=
  if !s.hasDrive n.val ∨ s.driveWrites n.val then .next s
  else
    let x8 := match s.power.board with | some b => b.flags.getLsbD 2 | none => false
    let s := s.updDrive n.val fun x =>
      { x with x8, speed := if Tab.get (fun _ => 0) s.power.derateDrive n.val ≠ 0 then min d.gen 4 else d.gen, margin := d.margin, blocks := d.blocks.toNat / 32 * 32, nguid := d.nguid, fit := false, commands := [], perst := true
               written := 0, rate := 0, rebuilt := 0 }
    let s := if d.margin < 10 ∧ (s.drive n.val).speed > 4 then
        let s := s.mapPower fun q => { q with derateDrive := Tab.set (fun _ => 0) n.val 1 q.derateDrive }
        raise { Ev.of 929 with detail := [n.val] } (s.updDrive n.val fun x => { x with speed := 4 })
      else s
    if !s.driveMeets n.val d then .next (s.updDrive n.val fun x => { x with state := 2 })
    else if !d.candidate then .next (s.joinDrive n).wake
    else if s.ownMember d then
      if s.shank.imageExists then .next (s.joinDrive n).wake
      else
        let pos := match s.image.supB with | some x => (x.driveIds.findIdx? (· = d.nguid)).getD 0 | none => 0
        .next (s.updDrive n.val fun x => { x with state := 1, position := pos })
    else .next (s.updDrive n.val fun x => { x with state := 4 })

/-- DRIVE_PRESENCE_CHANGE (18 R439): an insertion releases the drive's reset; a removal is a drive failure. -/
def execDrivePresenceChange (n : Fin 4) (present : Bool) (s : State) : Out :=
  if !s.hasDrive n.val then .next s
  else
    let s := s.updDrive n.val fun x => { x with prsnt := present, perst := present }
    let s := s.emit (.drive n "perst" (if present then 1 else 0))
    if present then .next s
    else
      let s := if s.driveWrites n.val ∧ !s.inSave then raise { Ev.of 773 with detail := [n.val] } s else s
      .next (s.failDrive n 0).wake

/-- DRIVE_RELEASE (14): the drive's superblocks are erased and it may join the set. A member in use is left as it is, since its set
writes its superblocks again (DESIGN CHOICE, log 56). -/
def execDriveRelease (m : Msg) (drive : Byte) (confirm : Byte) (s : State) : Out :=
  s.slafin { op := 0xC0C0, roles := rBmcOwn, sess := false, l0 := true, secure := false, inLen := 2, body := 0 } m fun s =>
    let n := drive.toNat
    if !s.hasDrive n ∨ confirm ≠ 0x5A then .done stInvalidRange [] s
    else if (s.drive n).state = 4 ∨ ((s.drive n).state = 1 ∧ !s.shank.imageExists) then .done stOk [] ((s.joinDrive (Fin.ofNat 4 n)).wake)
    else .done stOk [] s

/-- DRIVE_REMOVE (14): writes stop and the drive's reset is asserted. A drive in use is a member whose loss the set would not survive
a second time, so the set would tolerate no loss afterwards; a drive that the set does not use can be removed (DEDUCED, log 57). -/
def execDriveRemove (m : Msg) (drive : Byte) (s : State) : Out :=
  s.slafin { op := 0xC0C1, roles := rBmcOwn, sess := false, l0 := true, secure := false, inLen := 1, body := 0 } m fun s =>
    let n := drive.toNat
    if !s.hasDrive n then .done stInvalidRange [] s
    else if s.shank.imageExists ∧ s.driveWrites n then .done stDenied [] s
    else
      let d : Fin 4 := Fin.ofNat 4 n
      .done stOk [] (((s.failDrive d 0).updDrive n fun x => { x with perst := false }).emit (.drive d "perst" 0))

/-! ### Shadow commands (14, R248, R214) -/

/-- SHADOW_POLICY from its register word; none breaks a limit. -/
def shadowPolicyOf (w : W64) : Option ShadowPolicy :=
  let p : ShadowPolicy := { epochMs := fld w 0 14, gpfTimeoutMs := fld w 14 4, softPct := fld w 18 7, lapHours := fld w 32 8
                            rebuildBw := fld w 48 16 }
  if 10 ≤ p.epochMs ∧ p.epochMs ≤ 10000 ∧ p.gpfTimeoutMs ≤ 10 ∧ 50 ≤ p.softPct ∧ p.softPct ≤ 95 ∧ 1 ≤ p.lapHours ∧ p.lapHours ≤ 168
      ∧ 1 ≤ p.rebuildBw ∧ p.rebuildBw ≤ 64 then some p else none

/-- SET_SHADOW_POLICY. -/
def execSetShadowPolicy (m : Msg) (policy : W64) (s : State) : Out :=
  s.slafin { op := 0xC020, roles := rBmcOwn, sess := false, l0 := false, secure := false, inLen := 8, body := 0 } m fun s =>
    match shadowPolicyOf policy with
    | some p => .done stOk [] (s.mapShank fun k => { k with policy := p }).wake
    | none => .done stInvalidRange [] s

/-- A region holds an extent: in a map, in an add under way, or restored and not yet accepted. -/
def State.regionHolds (s : State) (r : Nat) : Bool :=
  (s.last.maps.any fun p => p.2.any fun e => e.valid && e.dc && decide (e.region.val = r))
    || (s.cmd.adds.any fun a => decide (a.2.region.val = r))
    || ((s.cmd.offers ++ s.cmd.declined).any fun o => decide (o.2.region.map (·.val) = some r))
    || s.resume.extents.any fun x => decide (x.state ≠ .restored) && x.entries.any fun e => decide (e.region.map (·.val) = some r)

/-- SET_REGION_DURABLE (R214). -/
def execSetRegionDurable (m : Msg) (region : Byte) (durable : Byte) (s : State) : Out :=
  s.slafin { op := 0xC021, roles := rFmOwn, sess := false, l0 := false, secure := false, inLen := 2, body := 0 } m fun s =>
    let r := region.toNat
    if r > 7 ∨ durable.toNat > 1 then .done stInvalidRange [] s
    else if s.regionHolds r then .done stDenied [] s
    else if durable = 1 ∧ (s.shadowState = 0 ∨ ((List.range 8).filter fun k => (s.region k).durable && decide (k ≠ r)).length ≥ 4) then
      .done stNoResource [] s
    else .done stOk [] (s.updRegion r fun x => { x with durable := decide (durable = 1) })

end Sys2Proof.Machine
end

