-- ==== Sys2Proof/Machine/Resume.lean ====
section
/-! DEFINITION. Resume after power loss (10): pool initialization, reading the image, the restore index and its outcomes, restoring
pages, offering extents, and the restore commands. -/

namespace Sys2Proof.Machine

/-! ### Service levels (R249) -/

/-- The outcome of the image read after which nothing is left to restore: RESTORED, or no image that can be restored (R270). -/
def State.nothingToRestore (s : State) : Bool :=
  decide (s.resume.imageStep = 2) && s.resume.index.isEmpty && s.resume.extents.all fun x => decide (x.state = .restored)

/-- A range list is an LD's concern when the range lies in its map or the region table names the LD for it (R266). -/
def State.lossOf (s : State) (ld : Nat) (r : Dpn × Nat × Bool) : Bool :=
  let hit (base pages : Nat) : Bool := decide (r.1.toNat < base + pages) && decide (base < r.1.toNat + r.2.1)
  ((s.map ld).any fun e => e.valid && hit e.devBase.toNat e.pages.toNat)
    || s.image.regions.any fun e => decide (e.ld.val = ld) && hit e.devDpn.toNat e.pages.toNat

/-- The reports of R266 when the resume ends: Insole records of the first 256 ranges, one KIND 3 notice to each LD concerned. -/
def State.reportLosses (s : State) : State :=
  let s := (s.resume.losses.take 256).foldl (fun s r =>
    insoleOther .lossRange [r.1.toNat, r.2.1, if r.2.2 then 1 else 0] none s) s
  s.boundLds.foldl (fun s ld =>
    let mine := s.resume.losses.filter (s.lossOf ld)
    if mine.isEmpty then s
    else
      let pages (rev : Bool) : Nat := ((mine.filter fun r => r.2.2 == rev).map (·.2.1)).sum
      postNotice ld 3 [pages false, pages true, mine.length, if s.resume.truncated then 1 else 0] s) s

/-- S3 once nothing is left to restore; the image is then RESTORED. -/
def State.raiseLevel (s : State) : State :=
  if s.resume.level = 0 ∨ !s.nothingToRestore then s
  else
    let was := s.resume.level
    let s := s.mapResume fun r => { r with level := 3, image := if r.image = 1 then 2 else r.image, priority := [] }
    if was = 3 then s else s.reportLosses

/-- The device exposes HDM capacity: the population is regular (07 R163), every die is up with one link version (08 R209, 18 R428). -/
def State.capacityUp (s : State) : Bool :=
  s.ddr.populationOk && !s.lace.versionFault && (List.range (s.nModules / 2)).all fun d =>
    decide ((s.laceMod (2 * d)).state ≠ 4) || decide ((s.laceMod (2 * d + 1)).state ≠ 4)

/-- The first pass of the decay sweep begins (03 R56). -/
def State.firstPass (s : State) : State := s.mapTier fun t => { t.startPass s.time s.last.hostPages with passShift := 0, decayCarry := 0 }

/-- ENTER_S1 (R250): the Last table is zero and the pool has reached FREE_LOW. -/
def State.enterS1 (s : State) : State :=
  if s.resume.level = 0 ∧ s.capacityUp ∧ s.resume.tableZeroed ∧ s.tier.freeFrames ≥ s.tier.thLow s.tier.poolFrames ∧ s.tier.poolFrames > 0 then
    let s := s.mapResume fun r => { r with level := 1 }
    let s := s.firstPass
    let s := if s.inSave then s else s.mapPower fun p => { p with state := 0 }
    s.raiseLevel
  else s

/-- POOL_INIT_GROUP (R251): the next group is zero-filled and its data frames are free; at the end of the pool the emergency bins are
set aside. A DRAM line that nothing has written reads as a zero-filled one (log 23). It follows the training of every channel (18 R430). -/
def execPoolInitGroup (s : State) : Out :=
  let g := s.resume.initGroups
  if g ≥ s.poolGroups ∨ !s.resume.tableZeroed ∨ s.inSave ∨ s.power.bringup < 6 ∨ !s.capacityUp
      ∨ ((List.range s.channels).any fun c => decide ((s.chan c).state = 2 ∧ (s.chanUnit c).isNone)) then .next s
  else
    let fresh := ((s.dataMembers g).filter fun f => decide ((s.frameRec f).kind = .free) && decide (s.place f = .at f)).length
    let s := (s.charge mRestore (chargeRead (64 * s.w))).mapResume fun r => { r with initGroups := g + 1, initDone := decide (g + 1 = s.poolGroups) }
    let s := s.mapTier fun t => { t with freeFrames := t.freeFrames + fresh }
    let s := if s.resume.initDone then s.mapTier fun t =>
        { t with emergencyBins := min 64 t.freeFrames, freeFrames := t.freeFrames - min 64 t.freeFrames }
      else s
    .next s.enterS1.afterFree.wake

/-! ### Reading the image (R252 to R254) -/

/-- E_c (R253). -/
def lastClosedFrom (epochs : List EpochEntry) : Nat → Nat → Nat
  | 0, e => e
  | fuel + 1, e => if epochs.any fun x => decide (x.epoch = e + 1) then lastClosedFrom epochs fuel (e + 1) else e

/-- LSN_END of E_c. -/
def lsnEndOf (epochs : List EpochEntry) (e : Nat) : Nat :=
  match epochs.find? fun x => decide (x.epoch = e) with
  | some x => x.lsnEnd
  | none => 0

/-- The member drives of a superblock by position: the drive with the NGUID that takes writes, if any. -/
def State.membersOf (s : State) (x : Superblock) : List (Option (Fin 4)) :=
  x.driveIds.map fun id => (List.finRange 4).find? fun d => decide ((s.drive d.val).nguid = id) && decide ((s.drive d.val).state = 1)

/-- Ports of the members; a missing one keeps the lowest port that no member has. -/
def fillMembers (found : List (Option (Fin 4))) : List (Fin 4) :=
  let used := found.filterMap id
  found.foldl (fun acc d => match d with
    | some x => acc ++ [x]
    | none => acc ++ [((List.finRange 4).find? fun p => !used.contains p && !acc.contains p).getD 0]) []

/-- Loads the wrapped keys (05 R115): failed entries leave their slots EMPTY, DESTROYED ones come back DESTROYED. -/
def State.unwrapKeys (s : State) (f : ImageFound) (lsnEnd : Nat) : State :=
  let ws := if f.keyWrapOk then s.image.keyWrap else []
  ws.foldl (fun s w =>
    let k := w.keyId.toNat
    let base : KeySlot := { slotReset k with persistent := true, mask := w.mask, programmer := w.programmer, grant := (s.slot k).grant }
    if w.destroyed then s.setSlot k { base with state := .destroyed, resumed := some lsnEnd }
    else match (if f.unwrapFails.contains w.keyId ∨ w.dke ≠ s.keys.dke then none else kwUnwrap s.kek w.wrapped) with
      | none => raise { Ev.of 577 with detail := [k] } (s.setSlot k { slotReset k with state := .empty })
      | some key => s.setSlot k { base with state := .loaded, key, wrapped := true }) s

/-- The Insole copy is loaded when no record of Insole survived; a RESET record follows (16 R404). Records of this bring-up continue
its sequence (DEDUCED, log 59). -/
def State.loadInsole (s : State) (ok : Bool) : State :=
  if !s.fault.insoleLost then s
  else
    let old := if ok then s.image.insole.reverse else []
    let base : W32 := match old with | r :: _ => r.seq + 1 | [] => 0
    let s := s.mapFault fun x =>
      { x with insole := ((x.insole.map fun (r : InsoleRec) => { r with seq := r.seq + base }) ++ old).take 4096, nextSeq := x.nextSeq + base, insoleLost := false }
    insoleOther .reset [] none s

/-- The image read ends without anything to restore: a slot that a warm reset kept DESTROYED has no image record that can name its key (05 R120). -/
def State.noRestore (s : State) (image : Fin 7) (event : Option Nat) : State :=
  let s := (s.keys.slots.map (·.1)).foldl (fun s k => if (s.slot k).state = .destroyed ∧ (s.slot k).pages = 0 then s.emptySlot k else s) s
  let s := s.mapResume fun r => { r with image, imageStep := 2 }
  (match event with | some n => fire n s | none => s).raiseLevel

/-- The regions that the image's region table names are durable, as they were: a region is restored extent by extent (09 R214, log 134). -/
def State.restoreMarks (s : State) : State :=
  (s.image.regions.filterMap (·.region)).foldl (fun (s : State) r => s.updRegion r.val fun x => { x with durable := true }) s

/-- Steps 2 to 5 of R252 with the selected superblock. -/
def State.adoptImage (s : State) (f : ImageFound) (x : Superblock) : State :=
  let found := s.membersOf x
  let late := x.failedDrive.toNat
  let out := (found.zipIdx.filter fun p => p.1.isNone || decide (p.2 = late)).map (·.2)
  let tolerated := if x.layout = 0 then 0 else 1
  let regA := decide (s.image.regionSeq % 2 = 1)
  let current := if regA then f.regionOkA else f.regionOkB
  let other := if regA then f.regionOkB else f.regionOkA
  if out.length > tolerated ∨ (!current ∧ !other) then s.noRestore 3 (some 778)
  else
    let valid (y : EpochEntry) : Bool := decide (y.epoch ≤ x.lastClosed) || !f.epochBad.contains y.epoch
    let ec := lastClosedFrom (s.image.epochs.filter valid) 65536 x.lastClosed
    let lsnEnd := lsnEndOf s.image.epochs ec
    let s := s.unwrapKeys f lsnEnd
    let heatA := decide (s.image.heatSeq % 2 = 1)
    let heatNow := if heatA then f.heatOkA else f.heatOkB
    let heatElse := if heatA then f.heatOkB else f.heatOkA
    let s := s.mapImage fun i => { i with regions := if current then i.regions else i.regionsOld
                                          heat := if heatNow then i.heat else if heatElse then i.heatOld else [] }
    let s := if heatNow ∨ heatElse then s else fire 779 (s.mapResume fun r => { r with noHeat := true })
    let members := fillMembers found
    let failed := out.head?.bind fun p => members[p]?
    let dsc : W32 := if x.clean then x.dsc else if x.dsc = 0xFFFFFFFF then x.dsc else x.dsc + 1
    let s := s.mapShank fun k =>
      { k with members, failedMember := failed, imageBlocks := x.blocks, imageExists := true, firstLap := false, lastClosed := ec, epoch := ec + 1
               epochEnded := [], epochRecords := [], epochFirst := [], headLsn := lsnEnd, segRecords := 0, tailLsn := x.tailLsn, lapPos := 0
               lapStart := x.tailLsn, prevLapStart := x.tailLsn, voids := x.voids, voidBlocks := 0, dsc, shutdownState := x.shutdownState
               saveFailed := false, writes := [], regionDirty := false }
    let s := match failed with
      | some d => if found.any fun y => decide (y = some d) then
          s.updDrive d.val fun y => { y with state := 3, rebuilt := x.rebuildIb } else s
      | none => s
    let s := s.mapResume fun r => { r with heat := s.image.heat, image := 1, incomplete := !x.clean, degraded := failed.isSome, imageStep := 1, ec, lsnEnd }
    (s.writeSupers false).restoreMarks

/-- IMAGE_READ and the image cases of R270. -/
def State.readImage (s : State) (f : ImageFound) : State :=
  let foreign := (List.range 4).any fun n => (s.drive n).state = 4
  let s := s.loadInsole (f.insoleOk && f.candidate)
  match s.image.supB with
  | none => if foreign ∧ f.candidate then s.noRestore 4 (some 776) else s.noRestore 0 none
  | some x =>
    if !f.candidate then s.noRestore 0 none
    else if !f.versionOk then s.noRestore 5 (some 777)
    else if x.tag ≠ deviceTag s.keys.dke then
      ((List.range 4).foldl (fun (s : State) n => if (s.drive n).state = 1 then s.updDrive n fun d => { d with state := 4 } else s) s).noRestore 4 (some 776)
    else if ((s.membersOf x).filterMap id).isEmpty then
      (if foreign then s.noRestore 4 (some 776) else s.noRestore 0 none)
    else s.adoptImage f x

/-- IMAGE_READ (R252 steps 1 to 5): once, when the drives are ready. -/
def execImageRead (f : ImageFound) (s : State) : Out :=
  if s.resume.imageStep ≠ 0 ∨ s.shank.imageExists ∨ s.inSave ∨ !s.inResume then .next s else .next (s.readImage f)

/-! ### The restore index (R254 to R256) -/

def inVoid (vs : List (Nat × Nat)) (lsn : Nat) : Bool := vs.any fun v => decide (v.1 ≤ lsn) && decide (lsn < v.2)

/-- The region table entry under which a record counts. -/
def State.regionFor (s : State) (r : Record) : Option RegionEntry :=
  s.image.regions.find? fun e => decide (e.devDpn.toNat ≤ r.dpn.toNat) && decide (r.dpn.toNat < e.devDpn.toNat + e.pages.toNat)
    && decide (r.lsn ≥ e.addedLsn)

/-- A record is eligible (R254). -/
def State.eligible (s : State) (r : Record) : Bool :=
  decide (s.shank.tailLsn ≤ r.lsn) && decide (r.lsn < s.resume.lsnEnd) && !inVoid s.shank.voids r.lsn && decide (r.epoch ≤ s.resume.ec)
    && (s.regionFor r).isSome

/-- Records beyond LSN_END of E_c that the scan finds, in a row or at the next segment, and the position after the last of them. -/
def lateScan (log : List Record) : Nat → Nat → List Record × Nat
  | 0, pos => ([], pos)
  | fuel + 1, pos =>
    match log.find? fun r => decide (r.lsn = pos) || decide (r.lsn = roundUp pos segUnits) with
    | none => ([], pos)
    | some r =>
      let (rs, e) := lateScan log fuel (r.lsn + 1 + r.granules.length)
      (r :: rs, e)

/-- Enters a page in the range list of R266: LOST, or REVERTED. -/
def addRange (dpn : Dpn) (rev : Bool) : List (Dpn × Nat × Bool) → List (Dpn × Nat × Bool)
  | [] => [(dpn, 1, rev)]
  | (d, n, v) :: r =>
    if v = rev ∧ d.toNat + n = dpn.toNat then
      match r with
      | (d2, n2, v2) :: q => if v2 = rev ∧ d2.toNat = dpn.toNat + 1 then (d, n + 1 + n2, v) :: q else (d, n + 1, v) :: r
      | [] => [(d, n + 1, v)]
    else if v = rev ∧ dpn.toNat + 1 = d.toNat then (dpn, n + 1, v) :: r
    else if dpn.toNat < d.toNat then (dpn, 1, rev) :: (d, n, v) :: r
    else (d, n, v) :: addRange dpn rev r

def State.addLoss (s : State) (dpn : Dpn) (rev : Bool) : State :=
  s.mapResume fun r =>
    let l := addRange dpn rev r.losses
    let r := { r with lostPages := r.lostPages + (if rev then 0 else 1), revertedPages := r.revertedPages + (if rev then 1 else 0) }
    if l.length > 1048576 then { r with truncated := true } else { r with losses := l }

/-- A page takes its record: UNWRITTEN to RESTORING (02 R49), owned by M_RESTORE (02 R39), counted under its key. -/
def State.toRestoring (s : State) (r : Record) : State :=
  let e := s.entry r.dpn
  let s := s.putEntry r.dpn { LastEntry.zero with state := .restoring, durable := true, owner := 0x103, key := r.key, gen := e.next }
  (s.keyPages r.key true).mapResume fun x => { x with pagesTotal := x.pagesTotal + 1 }

/-- RESTORING to LOST; OWNER becomes the record's (02 R33). -/
def State.restoreLost (s : State) (r : Record) : State :=
  let e := s.entry r.dpn
  let s := s.putEntry r.dpn { e with state := .lost, owner := r.owner, gen := e.next }
  (s.addLoss r.dpn false).mapResume fun r => { r with pagesDone := r.pagesDone + 1 }

/-- The outcome of a page (Table — Page outcome) from its newest eligible record and its late mark. Only an UNWRITTEN page takes one (02 R49): one that a
host has written since S1 keeps what it holds. -/
def State.takeOutcome (s : State) (dpn : Dpn) (best : Option Record) (late : Option Record) : State :=
  if (s.entry dpn).state ≠ .unwritten then s
  else match best with
  | none => match late with
    | some r => (s.toRestoring r).restoreLost r
    | none => s
  | some r =>
    let x := s.slot r.key.toNat
    let wrap := s.image.keyWrap.find? fun w => decide (w.keyId = r.key)
    let destroyed : Bool := match wrap with | some w => w.destroyed | none => false
    if r.key ≠ 0 ∧ destroyed = true then s
    else if r.key ≠ 0 ∧ (wrap.isNone ∨ x.state ≠ .loaded) then (s.toRestoring r).restoreLost r
    else match r.form with
      | .lost => (s.toRestoring r).restoreLost r
      | .unwritten => if late.isSome then (s.toRestoring r).restoreLost r else s
      | .hot | .warm | .zero =>
        let s := (s.toRestoring r).mapResume fun q => { q with index := q.index ++ [(dpn, r)] }
        if late.isSome then s.addLoss dpn true else s

/-- The durable extents of the region table: one per range, the static partition as one. -/
def extentsOf (rs : List RegionEntry) : List RExtent :=
  let dc := rs.filter fun e => e.region.isSome
  let keys := (dc.map fun e => (e.devDpn, e.pages, e.tag)).eraseDups
  let one := keys.map fun k => ({ entries := dc.filter fun e => decide ((e.devDpn, e.pages, e.tag) = k), state := .pending } : RExtent)
  let st := rs.filter fun e => e.region.isNone
  if st.isEmpty then one else one ++ [{ entries := st, state := .pending }]

def RExtent.has (x : RExtent) (dpn : Dpn) : Bool :=
  x.entries.any fun e => decide (e.devDpn.toNat ≤ dpn.toNat) && decide (dpn.toNat < e.devDpn.toNat + e.pages.toNat)

def RExtent.isStatic (x : RExtent) : Bool := x.entries.any fun e => e.region.isNone

/-- Sum of the heat-map bytes over an extent's blocks, and their number: the ranges of its entries, each range once. -/
def State.extentHeat (s : State) (x : RExtent) : Nat × Nat :=
  let ranges := (x.entries.map fun e => (e.devDpn.toNat, e.pages.toNat)).eraseDups
  let blocks (r : Nat × Nat) : Nat := (r.1 + r.2 - 1) / 512 + 1 - r.1 / 512
  let sum (r : Nat × Nat) : Nat :=
    ((List.range (blocks r)).map fun i => (Tab.get (fun _ => (0 : Byte)) s.resume.heat (r.1 / 512 + i)).toNat).sum
  ((ranges.map sum).sum, max 1 (ranges.map blocks).sum)

/-- The lowest DEV_DPN_BASE of an extent. -/
def RExtent.base (x : RExtent) : Nat := (x.entries.map (·.devDpn.toNat)).min?.getD 0

/-- The order of R258 step 2. -/
def State.extentBefore (s : State) (a b : RExtent) : Bool :=
  let ha := s.extentHeat a
  let hb := s.extentHeat b
  if s.resume.noHeat ∨ ha.1 * hb.2 = hb.1 * ha.2 then decide (a.base < b.base) else decide (ha.1 * hb.2 > hb.1 * ha.2)

/-- A priority request names an extent (R259). -/
def prioNames (q : PriorityReq) (x : RExtent) : Bool :=
  match q with
  | .region r => x.entries.any fun e => decide (e.region.map (·.val) = some r.toNat)
  | .tag t => x.entries.any fun e => e.region.isSome && decide (e.tag = t)
  | .static => x.isStatic

/-- The extent that comes next (R258). -/
def State.nextExtent (s : State) : Option RExtent :=
  let waiting := s.resume.extents.filter fun x => decide (x.state = .pending)
  let first (l : List RExtent) : Option RExtent := l.foldl (fun b x => match b with
    | none => some x
    | some y => if s.extentBefore x y then some x else some y) none
  match s.resume.priority.findSome? fun q => first (waiting.filter (prioNames q)) with
  | some x => some x
  | none => first waiting

/-- Pages of an extent that still wait for their record. -/
def State.extentLeft (s : State) (x : RExtent) : Bool := s.resume.index.any fun p => x.has p.1

/-- Starts the next extent when none runs; requests that name only completed extents are gone. -/
def State.startExtent (s : State) : State :=
  if s.resume.extents.any fun x => decide (x.state = .running) then s
  else match s.nextExtent with
    | none => s
    | some x =>
      let s := s.mapResume fun r => { r with extents := replaceFirst (fun y => decide (y = x)) (fun y => { y with state := .running }) r.extents }
      s.mapResume fun r => { r with priority := r.priority.filter fun q => r.extents.any fun y => decide (y.state = .pending) && prioNames q y }

/-- RESTORE_INDEX_BUILT (R252 steps 6 and 7, R256): the scan, the void range, the outcomes, and where new records start (R267). -/
def execRestoreIndexBuilt (s : State) : Out :=
  if s.resume.imageStep ≠ 1 ∨ s.inSave then .next s
  else
    let log := s.image.log
    let (beyond, scanEnd) := lateScan (log.filter fun r => decide (r.lsn ≥ s.resume.lsnEnd)) log.length s.resume.lsnEnd
    let head := roundUp scanEnd segUnits
    let late := beyond.filter fun r => !inVoid s.shank.voids r.lsn && (s.regionFor r).isSome
    let s := if beyond.isEmpty then s
      else
        let vs := if s.shank.voids.length ≥ 8 then s.shank.voids.tail else s.shank.voids
        let gone := if s.shank.voids.length ≥ 8 then s.shank.voids.take 1 else []
        let s := s.mapImage fun i => { i with log := i.log.filter fun r => !inVoid gone r.lsn }
        (s.mapShank fun k => { k with voids := vs ++ [(s.resume.lsnEnd, head)], voidBlocks := if gone.isEmpty then k.voidBlocks else 0 }).writeSupers false
    let s := s.mapShank fun k => { k with headLsn := head, segRecords := 0, lapStart := head, prevLapStart := k.tailLsn }
    let good := log.filter s.eligible
    let dpns := sortBy (fun a b => decide (a ≤ b)) ((good ++ late).map (·.dpn.toNat)).eraseDups
    let newest (l : List Record) (d : Nat) : Option Record := (l.filter fun r => decide (r.dpn.toNat = d)).foldl (fun b r => match b with
      | none => some r
      | some x => if x.lsn ≤ r.lsn then some r else some x) none
    let s := dpns.foldl (fun s d => s.takeOutcome (BitVec.ofNat 32 d) (newest good d) (newest late d)) s
    let s := s.mapResume fun r => { r with imageStep := 2, extents := extentsOf s.image.regions }
    .next (s.startExtent.checkLog).raiseLevel.wake

/-- VOID_OVERWRITE_STEP (R255): blocks of the oldest void range are overwritten with zeros. -/
def execVoidOverwriteStep (blocks : Nat) (s : State) : Out :=
  match s.shank.voids with
  | [] => .next s
  | v :: rest =>
    if s.inSave ∨ s.resume.imageStep ≠ 2 then .next s
    else
      let s := s.writeImage (.clear (16384 + (v.1 % s.logUnits) / 64 + s.shank.voidBlocks) blocks)
      let done := s.shank.voidBlocks + blocks
      if done * 64 < v.2 - v.1 then .next (s.mapShank fun k => { k with voidBlocks := done })
      else
        let s := s.mapImage fun i => { i with log := i.log.filter fun r => !inVoid [v] r.lsn }
        .next (s.mapShank fun k => { k with voids := rest, voidBlocks := 0 })

/-! ### Restoring pages (R257, R261; 03 R74) -/

/-- HEAT of a restored page, from the snapshot that the image held when it was read (03 R74). -/
def State.restoreHeat (s : State) (dpn : Dpn) : Byte := Tab.get (fun _ => 0) s.resume.heat (dpn.toNat / 512)

/-- The entry of a restored page. -/
def State.restoredEntry (s : State) (r : Record) : LastEntry :=
  let e := s.entry r.dpn
  { e with owner := r.owner, heat := s.restoreHeat r.dpn, pinned := r.pinned, gen := e.next }

/-- A page leaves the index. -/
def State.restored (s : State) (r : Record) : State :=
  let s := if r.pinned then s.mapTier fun t => { t with pinnedPages := t.pinnedPages + 1 } else s
  s.mapResume fun x => { x with index := x.index.filter fun p => decide (p.1 ≠ r.dpn), pagesDone := x.pagesDone + 1 }

/-- The record of a page cannot be used: LOST, SRC_SHANK_RECORD_BAD (R257). -/
def State.recordBad (s : State) (r : Record) : State :=
  let s := raise { Ev.of 774 with dpa := r.dpn.toNat * 4096, detail := [r.dpn.toNat * 4096] } (s.restoreLost r)
  s.mapResume fun x => { x with index := x.index.filter fun p => decide (p.1 ≠ r.dpn) }

/-- The plaintext of a hot record's lines; none when a chunk fails. -/
def State.recordLines (s : State) (r : Record) : Option (List (Option Line)) :=
  (List.range 4).foldl (fun acc ch => match acc, s.recordChunk r ch with
    | some l, some x => some (l ++ x)
    | _, _ => none) (some [])

/-- Restore cannot place a page: HELD (R261). -/
def State.restoreHeld (s : State) : State :=
  if s.resume.image = 6 then s else fire 775 (s.mapResume fun r => { r with image := 6 })

/-- Writes a hot record into a hot frame. A decode that a KIND 8 injection spoils is repeated on another decompressor (R257). -/
def State.restoreHot (s : State) (r : Record) (hint : Frame) : State :=
  let (inj, s) := s.internalDecode false
  let s := if inj.isSome then countMismatch r.dpn 0 s inj else s
  match s.recordLines r with
  | none => (if inj.isSome then s else countMismatch r.dpn 0 s).recordBad r
  | some ls =>
    match s.takeFrame hint (hotRecord r.dpn r.owner) with
    | none => s.restoreHeld
    | some (f, s) =>
      let s := (s.fillHot r.dpn r.key.toNat f ls).charge mRestore (64 * chargeDeltaWrite)
      let s := s.putEntry r.dpn { s.restoredEntry r with state := .hot, frame := BitVec.ofNat 32 f }
      (s.formSpan r.dpn).restored r

/-- Writes the granules of a warm record into a bin, unchanged. -/
def State.restoreWarm (s : State) (r : Record) (hint : Frame) : State :=
  match s.binDest r.dpn (r.counts.map (·.toNat)) (fun _ => true) true hint with
  | none => s.restoreHeld
  | some (f, cs, s) =>
    let (s, _) := cs.zipIdx.foldl (fun (acc : State × List Line) c =>
      let n := c.1.cnt.toNat
      let s := (acc.2.take n).zipIdx.foldl (fun (s : State) g =>
        let l := c.1.off.toNat + g.2
        if n = 16 ∧ r.poisonMap.getLsbD (16 * c.2 + g.2) then s.poisonLine f l kindGranule
        else s.writeLine f l g.1 (metaOf kindGranule false true)) acc.1
      (s, acc.2.drop n)) (s, r.granules)
    let s := s.charge mRestore (r.granules.length * chargeDeltaWrite)
    let c (i : Nat) : Chunk := cs.getD i Chunk.none
    (s.putEntry r.dpn { s.restoredEntry r with state := .warm, pinned := false, frame := BitVec.ofNat 32 f, c0 := c 0, c1 := c 1, c2 := c 2
                                               c3 := c 3 }).restored { r with pinned := false }

/-- RESTORE_RECORD_READ: the record of the next page of the extent that runs, in ascending DPN order. A hot page whose slot is no
longer LOADED cannot change form (05 R109) and becomes LOST (DEDUCED, log 60); a hot record waits for a free decompressor (04 R87). -/
def execRestoreRecordRead (ok : Bool) (hint : Frame) (s : State) : Out :=
  if s.inSave ∨ s.resume.imageStep ≠ 2 then .next s
  else match s.resume.extents.find? fun x => decide (x.state = .running) with
    | none => .next s
    | some x =>
      match s.resume.index.find? fun p => x.has p.1 with
      | none => .next s
      | some (_, r) =>
        if r.form = .zero then
          if ok ∧ !r.bad then .next (((s.putEntry r.dpn { s.restoredEntry r with state := .zero, heat := 0 })).restored r).wake
          else .next (s.recordBad r).wake
        else if !ok ∨ r.bad then .next (s.recordBad r).wake
        else if s.tier.freeFrames ≤ s.reserveFrames then .next s.restoreHeld
        else
          let s := if s.resume.image = 6 then s.mapResume fun q => { q with image := 1 } else s
          match r.form with
          | .warm => .next (s.restoreWarm r hint).wake
          | _ =>
            if (s.slot r.key.toNat).state ≠ .loaded then .next (s.recordBad r).wake
            else if (s.idleEngine 1).isNone then .next s
            else .next (s.restoreHot r hint).wake

/-! ### Offers (R263, R264) -/

/-- Offers an extent to one LD: a KIND 2 notice and the add event when the LD is bound, else later. -/
def State.offerTo (s : State) (e : RegionEntry) : State :=
  let s := s.mapCmd fun c => { c with offers := c.offers ++ [(e.ld, e)] }
  let region := match e.region with | some r => r.val | none => 0
  if s.offersReach e.ld.val then
    (postNotice e.ld.val 2 [e.devDpn.toNat, e.pages.toNat, region, e.tag.toNat] s).emit
      (.offer e.ld (e.devDpn.toNat * 4096) (e.pages.toNat * 4096) e.tag region)
  else s

/-- The extent that runs is complete: offered, or active when it is the static partition; the first offer enters S2 (R249). -/
def State.extentDone (s : State) (x : RExtent) : State :=
  let s := s.mapResume fun r => { r with extents := replaceFirst (fun y => decide (y = x)) (fun y => { y with state := .restored }) r.extents }
  if x.isStatic then s
  else
    let s := if s.resume.level = 1 then s.mapResume fun r => { r with level := 2 } else s
    x.entries.foldl State.offerTo s

/-- RESTORE_EXTENT_DONE (R258, R263). -/
def execRestoreExtentDone (s : State) : Out :=
  if s.inSave ∨ s.resume.level = 0 then .next s
  else match s.resume.extents.find? fun x => decide (x.state = .running) with
    | none => .next s.startExtent
    | some x => if s.extentLeft x then .next s else .next (s.extentDone x).startExtent.raiseLevel.wake

/-! ### Restore commands (14) -/

/-- Who may send a priority request (R259): an LD that the region table names for the extents, the BMC, the owner. -/
def State.mayPrioritize (s : State) (r : Role) (q : PriorityReq) : Bool :=
  match r with
  | .ld n => s.resume.extents.any fun x => prioNames q x && x.entries.any fun e => decide (e.ld = n)
  | .bmc => true
  | .own => true
  | .fm => false

/-- RESTORE_PRIORITY (R259). -/
def execRestorePriority (m : Msg) (req : PriorityReq) (s : State) : Out :=
  s.slafin { op := 0xC030, roles := rLdBmcOwn, sess := false, l0 := false, secure := false, inLen := 32, body := 2 } m fun s =>
    if !s.mayPrioritize (s.role m) req then .done stDenied [] s
    else
      let answer (s : State) : Result := .done stOk (leNat 2 s.resume.priority.length) s
      if s.resume.level = 3 ∨ !(s.resume.extents.any fun x => prioNames req x && decide (x.state ≠ .restored)) then answer s
      else if s.resume.priority.length ≥ 64 then .done stNoResource [] s
      else answer (s.mapResume fun r => { r with priority := r.priority ++ [req] })

/-- GET_LOSS_LIST (R266). -/
def execGetLossList (m : Msg) (cursor : W32) (max : W32) (s : State) : Out :=
  s.slafin { op := 0xC031, roles := rLdBmcOwn, sess := false, l0 := false, secure := false, inLen := 8, body := 16 } m fun s =>
    let l := match s.role m with
      | .ld n => s.resume.losses.filter (s.lossOf n.val)
      | _ => s.resume.losses
    let rest := l.drop cursor.toNat
    let n := fits m 16 12 max.toNat rest.length
    if !cursorOk cursor.toNat l.length then .done stInvalidRange [] s
    else .done stOk (leNat 4 n ++ leNat 4 (nextCursor cursor.toNat n l.length) ++ leNat 4 l.length ++ zeros 4 ++
      (rest.take n).flatMap fun r => leNat 4 r.1.toNat ++ leNat 4 r.2.1 ++ leNat 1 (if r.2.2 then 1 else 0) ++ zeros 3) s

/-- REOFFER_EXTENT (R263): a declined extent is offered again; an offer still open is sent again. -/
def execReofferExtent (m : Msg) (ld : Byte) (tag : BitVec 128) (s : State) : Out :=
  s.slafin { op := 0xC032, roles := rLdFm, sess := false, l0 := false, secure := false, inLen := 32, body := 0 } m fun s =>
    let mine (o : Fin 32 × RegionEntry) : Bool := decide (o.1.val = ld.toNat) && decide (o.2.tag = tag)
    if !s.hasLd ld.toNat then .done stInvalidRange [] s
    else if othersLd (s.role m) ld.toNat then .done stNotOwner [] s
    else match s.cmd.declined.find? mine with
      | some o => .done stOk [] ((s.mapCmd fun c => { c with declined := c.declined.erase o }).offerTo o.2)
      | none =>
        match s.cmd.offers.find? mine with
        | some o => .done stOk [] ((s.mapCmd fun c => { c with offers := c.offers.erase o }).offerTo o.2)
        | none => .done stInvalidRange [] s

/-- SET_RESTORE_POLICY (R271). -/
def execSetRestorePolicy (m : Msg) (policy : W64) (s : State) : Out :=
  s.slafin { op := 0xC033, roles := rBmcOwn, sess := false, l0 := false, secure := false, inLen := 8, body := 0 } m fun s =>
    let pct := fld policy 0 6
    let up := fld policy 8 8
    if 10 ≤ pct ∧ pct ≤ 50 ∧ 1 ≤ up then .done stOk [] (s.mapResume fun r => { r with restorePct := pct, upspeedDelayS := up })
    else .done stInvalidRange [] s

/-- RETRY_RESTORE (R270): an UNREADABLE image is read again; a HELD restore goes on when frames are free. -/
def execRetryRestore (m : Msg) (f : ImageFound) (s : State) : Out :=
  s.slafin { op := 0xC034, roles := rBmcOwn, sess := false, l0 := false, secure := false, inLen := 0, body := 1 } m fun s =>
    let answer (s : State) : Result := .done stOk (leNat 1 s.resume.image.val) s
    if s.resume.image = 3 ∧ !s.inSave then answer ((s.mapResume fun r => { r with imageStep := 0 }).readImage f)
    else if s.resume.image = 6 then
      answer (if s.tier.freeFrames > s.reserveFrames then s.mapResume fun r => { r with image := 1 } else s)
    else .done stDenied [] s

end Sys2Proof.Machine
end

