-- ==== Sys2Proof/Machine/Regulation.lean ====
section
/-! DEFINITION. Regulation as commands act on it (11): settings and admission, the accounting interval, holds, waiting requests. -/

namespace Sys2Proof.Machine

/-! ### Settings (R272, R273, R287) -/

/-- REG_Mn_SETTINGS applied to a master; M_SAVE and M_RESTORE take OUTSTANDING alone (R273). -/
def Master.apply (m : Master) (n : Nat) (w : W64) : Master :=
  let m := { m with outstanding := fld w 0 12 }
  if n = mSave ∨ n = mRestore then m
  else { m with priority := Fin.ofNat 8 (fld w 12 3), rt := w.getLsbD 15, minRead := fld w 16 12, minWrite := fld w 28 12
                budget := fld w 40 12 }

/-- The settings as configured: those in force, or those that wait for the next interval boundary (R275). -/
def State.configured (s : State) (n : Nat) : Master :=
  let m := s.master n
  match m.pending with
  | some w => m.apply n w
  | none => m

/-- REG_Mn_SETTINGS as a word. -/
def Master.settings (m : Master) : W64 :=
  put 0 12 m.outstanding ||| put 12 3 m.priority.val ||| putB 15 m.rt ||| put 16 12 m.minRead ||| put 28 12 m.minWrite ||| put 40 12 m.budget

/-- G of a master's settings in 62.5 MB/s; M_SAVE and M_RESTORE have none. -/
def guaranteeOf (n : Nat) (m : Master) : Nat := if n = mSave ∨ n = mRestore then 0 else guarantee4 m.minRead m.minWrite

/-- A setting within its ranges (R272, R273). -/
def settingOk (n : Nat) (m : Master) : Bool :=
  decide (m.outstanding ≤ 2048) && (decide (n = mSave) || decide (n = mRestore) || decide (m.budget = 0) || decide (4 * m.budget ≥ guaranteeOf n m))

/-- Σ G of the configured settings with some of them replaced. -/
def State.sumWith (s : State) (news : List (Nat × Master)) : Nat :=
  ((List.range masterCount).map fun n =>
    match news.reverse.find? fun p => decide (p.1 = n) with
    | some (_, m) => guaranteeOf n m
    | none => guaranteeOf n (s.configured n)).sum

/-- Admission (R281): within 0.7 × U, or no guarantee raised. -/
def State.admits (s : State) (news : List (Nat × Master)) : Bool :=
  admitted (s.sumWith news) s.reg.usable || news.all fun p => decide (guaranteeOf p.1 p.2 ≤ guaranteeOf p.1 (s.configured p.1))

/-- Takes settings, in force from the next interval boundary. -/
def State.setPending (s : State) (news : List (Nat × Master)) : State :=
  news.foldl (fun s p => s.updMaster p.1 fun m => { m with pending := some p.2.settings }) s

/-- A refused admission. -/
def State.rejectAdmission (s : State) : State := fire 96 (s.countReg 0)

/-- Who may set a master: the fabric manager the LDs, the BMC and the owner the engines (R275). -/
def maySet (r : Role) (n : Nat) : Bool :=
  match r with
  | .fm => decide (n < 32)
  | .bmc => decide (n ≥ 32)
  | .own => decide (n ≥ 32)
  | .ld _ => false

/-- SET_MASTERS (R275, R281): checked and applied as one. -/
def execSetMasters (m : Msg) (entries : List (Byte × W64)) (s : State) : Out :=
  s.slafin { op := 0xC050, roles := rFmBmcOwn, sess := false, l0 := false, secure := false, inLen := 8 + 16 * entries.length, body := 2 } m fun s =>
    let news := entries.map fun e => (e.1.toNat, (s.configured e.1.toNat).apply e.1.toNat e.2)
    if entries.isEmpty then .done stOk (leNat 2 s.reg.scale) s
    else if entries.length > 39 ∨ entries.any (fun e => decide (e.1.toNat ≥ masterCount) || (decide (e.1.toNat < 32) && !s.hasLd e.1.toNat))
    then .done stInvalidRange [] s
    else if entries.any fun e => !maySet (s.role m) e.1.toNat then .done stDenied [] s
    else if news.any fun p => !settingOk p.1 p.2 then .done stInvalidRange [] s
    else if !s.admits news then .done stAdmission [] s.rejectAdmission
    else
      let s := s.setPending news
      .done stOk (leNat 2 s.reg.scale) s

/-- SET_REG_POLICY (R287). -/
def execSetRegPolicy (m : Msg) (policy : W64) (s : State) : Out :=
  s.slafin { op := 0xC051, roles := rBmcOwn, sess := false, l0 := false, secure := false, inLen := 8, body := 0 } m fun s =>
    let o := fld policy 0 7
    let d := fld policy 7 7
    let a := fld policy 14 8
    if 1 ≤ o ∧ o ≤ 126 ∧ o < d ∧ 1 ≤ a then
      .done stOk [] (s.mapReg fun r => { r with optimalPct := o, moderatePct := d, ageUs := a })
    else .done stInvalidRange [] s

/-! ### The accounting interval (R278, R282) -/

/-- U in 0.25 GB/s. -/
def State.usableQuarters (s : State) : Nat := s.reg.usable / quarterGb

/-- A KIND 5 notice to every bound LD when SCALE changes (14 R353). -/
def State.scaleNotice (s : State) : State :=
  s.boundLds.foldl (fun s ld => postNotice ld 5 [s.reg.scale, s.usableQuarters, s.effMinRead ld, s.effMinWrite ld] s) s

/-- SCALE over the settings in force, with its events (R282). -/
def State.rescale (s : State) : State :=
  let was := s.reg.scale
  let now := scaleOf s.sumG4 s.reg.usable
  if now = was then s
  else
    let s := s.mapReg fun r => { r with scale := now }
    let s := if was = 1024 then raise { Ev.of 97 with cls := some .degrade } (s.countReg 1)
      else if now = 1024 then raise { Ev.of 97 with cls := some .info } s else s
    s.scaleNotice

/-- ACCOUNTING_INTERVAL: the charges of the interval end, new settings take effect. -/
def execAccountingInterval (s : State) : Out :=
  let total := ((List.range masterCount).map fun n => (s.master n).interval).sum
  let ovr := (List.range masterCount).any fun n => (s.master n).overBudget
  let s := if ovr then s.countReg 2 else s
  let s := (List.range masterCount).foldl (fun (s : State) n =>
    let c := s.configured n
    s.setMaster n { c with pending := none, interval := 0, overLast := c.overBudget, overBudget := false }) s
  let s := (s.mapReg fun r => { r with lastTotal := total }).rescale
  .next (State.arbitrate s.reg.arbiter.length s)

/-! ### Holds and waits (R279, R280) -/

/-- PRIORITY_HOLD_END: the last running hold of its kind ends. -/
def execPriorityHoldEnd (master : Fin 39) (rowHold : Bool) (s : State) : Out :=
  let s := s.updMaster master.val fun m => if rowHold then { m with holdRow := false } else { m with holdSoft := false }
  .next (State.arbitrate s.reg.arbiter.length s)

/-- ARBITER_WAIT_AGE: the request has waited AGE_US. -/
def execArbiterWaitAge (tag : BitVec 13) (s : State) : Out :=
  let s := s.mapReg fun r => { r with arbiter := r.arbiter.map fun q => if q.tag = tag then { q with aged := true } else q }
  .next (State.arbitrate s.reg.arbiter.length s)

end Sys2Proof.Machine
end

