-- ==== Sys2Proof/Machine/Ports.lean ====
section
/-! DEFINITION. CXL ports (12): modes and heads, link training, retraining towards the full rate (10 R269), rate limits (R298) and the
deferral of changes (07 R180, 08 R204), L0p, configuration requests, BAR0 accesses of wrong size, MSI-X, HDM decoders, port and LD
resets (18 R426). -/

namespace Sys2Proof.Machine

/-! ### Heads (R288, R289) -/

/-- Rate of a code in GT/s: 8, 16, 32, 64. -/
def gts (r : Fin 4) : Nat := 8 * 2 ^ r.val

/-- Code of a MAX_RATE; none: no rate of a head. -/
def rateCodeOf (gt : Nat) : Option (Fin 4) :=
  if gt = 8 then some 0 else if gt = 16 then some 1 else if gt = 32 then some 2 else if gt = 64 then some 3 else none

/-- The highest rate code that MAX_RATE and the head's derate leave (R298, 18 R434). -/
def State.headCap (s : State) (h : Nat) : Nat :=
  min (((rateCodeOf (s.headOf h).maxRate).getD 3).val) (3 - min 3 (Tab.get (fun _ => 0) s.power.derateHead h))

/-- Widths that a head trains to. -/
def laneWidth (w : Nat) : Nat := if w ≥ 16 then 16 else if w ≥ 8 then 8 else if w ≥ 4 then 4 else if w ≥ 2 then 2 else w

/-- What a head reaches of what its partner and its lanes allow: at most its full width and its highest rate; 68-byte flits run at
32 GT/s and below (R293). -/
def State.reached (s : State) (h : Nat) (l : LinkState) : LinkState :=
  let cap := min l.rate.val (s.headCap h)
  let cap := if l.flit256 then cap else min cap 2
  { l with rate := Fin.ofNat 4 cap, width := Fin.ofNat 17 (min (laneWidth l.width.val) (s.fullWidth h)), latencyOpt := l.latencyOpt && l.flit256 }

/-! ### CDAT (R294, R303) -/

/-- Read and write throughput of a link in MB/s (Table — Link modes; R294: in proportion to width). -/
def linkBandwidth (l : LinkState) : Nat × Nat :=
  let full := match l.rate.val with
    | 3 => (100000, 50000)
    | 2 => if l.flit256 then (50000, 25000) else (45000, 22500)
    | 1 => (22000, 11000)
    | _ => (11000, 5500)
  (full.1 * l.width.val / 16, full.2 * l.width.val / 16)

/-- A change of a head's mode updates the CDAT of each LD on it and raises the CDAT-changed notification. -/
def State.cdatChanged (s : State) (h : Nat) : State :=
  (List.range s.nLds).foldl (fun (s : State) n =>
    if (s.fn n).head.map (·.val) = some h then
      (s.updFn n fun f => { f with cdatSeq := f.cdatSeq + 1 }).emit (.port (Fin.ofNat 4 h) "CDAT changed" n)
    else s) s

/-- The mode that the CDAT reports. -/
def modeOf (l : LinkState) : Nat × Nat × Bool := (l.rate.val, l.width.val, l.flit256)

def State.setLink (s : State) (h : Nat) (l : LinkState) : State :=
  let before := (s.headOf h).link.map modeOf
  let s := s.updHeadOf h fun x => { x with up := true, link := some l, l0p := l.width.val }
  if before = some (modeOf l) then s else s.cdatChanged h

/-! ### Which LDs a head carries (R289) -/

/-- A head that could take another LD. -/
def State.headOpen (s : State) (ld h : Nat) : Bool :=
  (s.headOf h).up && match (s.headOf h).link with
    | some l => l.mld || (List.range s.nLds).all fun n => n == ld || decide ((s.fn n).head.map (·.val) ≠ some h)
    | none => false

/-- Gives an LD that is on no up head a head of its port. With one head the LD goes to it; with two, which partner binds it, if any,
is that partner's choice, which no command of the block tells: a free value. DESIGN CHOICE, log 61. -/
def State.attach (s : State) (ld : Nat) : State :=
  let held := match (s.fn ld).head with | some h => (s.headOf h.val).up | none => false
  if held then s
  else
    let p := portOfLd ld
    let open_ := [2 * p, 2 * p + 1].filter fun h => s.headHere h && s.headOpen ld h
    if s.twoHeads p then
      let (n, s) := s.draw
      match open_[(Config.freeWord n).toNat % (open_.length + 1)]? with
      | some h => s.updFn ld fun f => { f with head := some (Fin.ofNat 4 h) }
      | none => s
    else match open_ with
      | h :: _ => s.updFn ld fun f => { f with head := some (Fin.ofNat 4 h) }
      | [] => s

/-- A head in SLD mode carries one LD of its port: which, its partner decides (log 61). -/
def State.attachSld (s : State) (h : Nat) : State :=
  let p := portOfHead h
  let (n, s) := s.draw
  let ld := 16 * p + (Config.freeWord n).toNat % 16
  let s := (List.range s.nLds).foldl (fun (s : State) k =>
    if (s.fn k).head.map (·.val) = some h then s.updFn k fun f => { f with head := none } else s) s
  s.updFn ld fun f => { f with head := some (Fin.ofNat 4 h) }

/-- Brings every LD of a port up to date. -/
def State.bindPort (s : State) (p : Nat) : State :=
  ((List.range s.nLds).filter fun n => portOfLd n == p).foldl State.bind s

/-! ### Training (R293, R312) -/

/-- The head may train: power and the reset pins are high and no save has switched the port off. -/
def State.mayTrain (s : State) (h : Nat) : Bool :=
  s.headHere h && s.power.pwrgood && !s.power.resetNLow && !s.port.perstLow.getLsbD (portOfHead h) && !s.path.fenced

/-- A margin below 10 % UI lowers the head's highest rate by one step, by recovery (18 R434). -/
def State.checkHeadMargin (s : State) (h : Nat) (l : LinkState) : State :=
  if l.margin < 10 ∧ l.rate.val > 0 then
    let s := s.mapPower fun q => { q with derateHead := Tab.set (fun _ => 0) h (4 - l.rate.val) q.derateHead }
    let s := raise { Ev.of 929 with detail := [h] } s
    (s.emit (.port (Fin.ofNat 4 h) "recovery" 0)).setLink h (s.reached h l)
  else s

/-- The waiting rate change of R298 is carried out when the recovery has ended. -/
def State.limitRate (s : State) (h : Nat) (gt : Nat) : State :=
  let s := s.updHeadOf h fun x => { x with maxRate := gt }
  match (s.headOf h).link with
  | some l => (s.setLink h (s.reached h l)).emit (.port (Fin.ofNat 4 h) "recovery" gt)
  | none => s

def State.rateWaitEnds (s : State) (h : Nat) : State :=
  match (s.headOf h).rateWait with
  | some (gt, m) => ((s.updHeadOf h fun x => { x with rateWait := none }).limitRate h gt).reply m 0xC0A1 stOk []
  | none => s

/-- LINK_TRAINED: a head completes training or recovery. -/
def execLinkTrained (head : Fin 4) (l : LinkState) (s : State) : Out :=
  let h := head.val
  if !s.mayTrain h ∨ l.width = 0 then .next s
  else
    let p := portOfHead h
    let fresh := !(s.headOf h).up
    let l := s.reached h l
    let s := s.setLink h l
    let s := if l.width.val < s.fullWidth h then raise { Ev.of (srcPort p 3) with detail := [h] } s else s
    let s := s.checkHeadMargin h l
    let s := s.rateWaitEnds h
    if fresh then
      let s := s.mapResume fun r => { r with upspeed := Tab.set (fun _ => 0) h 0 r.upspeed }
      let s := if l.mld then ((List.range s.nLds).filter fun n => portOfLd n == p).foldl State.attach s else s.attachSld h
      .next (s.bindPort p)
    else .next s

/-- LINK_DOWN (R299). -/
def execLinkDown (head : Fin 4) (s : State) : Out :=
  let h := head.val
  if !(s.headOf h).up then .next s
  else
    let s := raise { Ev.of (srcPort (portOfHead h) 0) with detail := [h] } s
    let s := match (s.headOf h).rateWait with
      | some (gt, m) => (s.updHeadOf h fun x => { x with rateWait := none, maxRate := gt }).reply m 0xC0A1 stOk []
      | none => s
    .next (s.headDown h).wake

/-- L0P_REQUEST: every request of the partner is granted at a width of Table — Link modes down from the trained one (R297). -/
def execL0pRequest (head : Fin 4) (width : Fin 17) (s : State) : Out :=
  match (s.headOf head.val).link with
  | none => .next s
  | some l =>
    let w := width.val
    if l.flit256 ∧ l.rate.val ≥ 2 ∧ (w = l.width.val ∨ (w < l.width.val ∧ [2, 4, 8].contains w)) then
      .next ((s.updHeadOf head.val fun x => { x with l0p := w }).emit (.port head "L0p granted" w))
    else .next s

/-! ### Towards 64 GT/s (10 R269) -/

/-- UPSPEED_RETRY: an attempt of a head that trained below 64 GT/s; the third failure fires SRC_PORT_SPEED_LOW. Attempts start with
S1 or S3 passed and stop in a save; a head that MAX_RATE or a derate limits does not retrain. -/
def execUpspeedRetry (head : Fin 4) (success : Bool) (s : State) : Out :=
  let h := head.val
  let tries := Tab.get (fun _ => 0) s.resume.upspeed h
  match (s.headOf h).link with
  | none => .next s
  | some l =>
    -- a head in a recovery that something else started tries again at the next step, and this is no attempt (12 R298)
    if s.resume.level = 0 ∨ s.inSave ∨ tries ≥ 3 ∨ l.rate = 3 ∨ !l.flit256 ∨ s.headCap h < 3 ∨ (s.headOf h).rateWait.isSome then .next s
    else
      let s := (s.mapResume fun r => { r with upspeed := Tab.set (fun _ => 0) h (tries + 1) r.upspeed }).emit (.port head "recovery" 64)
      if success then .next (s.setLink h { l with rate := 3 })
      else if tries = 2 then .next (raise { Ev.of (srcPort (portOfHead h) 4) with detail := [h] } s)
      else .next s

/-! ### SET_PORT_RATE (R298) and the deferral of changes -/

/-- SET_PORT_RATE: by link recovery. Whether something else has the head in a recovery at that moment is the link's and no command of
the block tells it: a free value (log 62); the change then waits. -/
def execSetPortRate (m : Msg) (head : Byte) (maxRate : Byte) (s : State) : Out :=
  s.slafin { op := 0xC0A1, roles := rBmcOwn, sess := false, l0 := false, secure := false, inLen := 2, body := 0 } m fun s =>
    let h := head.toNat
    if !s.hasHead h ∨ (rateCodeOf maxRate.toNat).isNone then .done stInvalidRange [] s
    else if (s.headOf h).rateWait.isSome then .done stBusy [] s
    else
      let (n, s) := s.draw
      if (s.headOf h).up ∧ Config.freeBit n then .later (s.updHeadOf h fun x => { x with rateWait := some (maxRate.toNat, m) })
      else .done stOk [] (s.limitRate h maxRate.toNat)

/-- CHANGE_DEFERRAL_TIMEOUT: a change that has waited 10 ms ends with DEFERRED. Targets 0 to 11 are the channels, 12 to 15 the Lace
modules, 16 to 19 the heads. -/
def execChangeDeferralTimeout (target : Fin 20) (s : State) : Out :=
  let t := target.val
  if t < 12 then
    match (s.chan t).rateDeferred with
    | some (m, _) => .next ((s.updChan t fun c => { c with rateDeferred := none }).reply m 0xC083 stDeferred [])
    | none => .next s
  else if t < 16 then
    match (s.laceMod (t - 12)).pointWait with
    | some (m, _) => .next ((s.updLaceMod (t - 12) fun x => { x with pointWait := none }).reply m 0xC084 stDeferred [])
    | none => .next s
  else
    match (s.headOf (t - 16)).rateWait with
    | some (_, m) => .next ((s.updHeadOf (t - 16) fun x => { x with rateWait := none }).reply m 0xC0A1 stDeferred [])
    | none => .next s

/-! ### Resets of ports and functions (18 R426, R429) -/

/-- PORT_RESET: PERSTp_N falls. The heads and links of the port reset, and each of its LDs takes an LD reset. -/
def execPortReset (p : Fin 2) (s : State) : Out :=
  if !s.hasHead (2 * p.val) ∨ s.port.perstLow.getLsbD p.val then .next s
  else
    let heads := [2 * p.val, 2 * p.val + 1]
    let s := s.mapPort fun x => { x with perstLow := x.perstLow ||| (1#2 <<< p.val) }
    let s := heads.foldl (fun (s : State) h =>
      if (s.headOf h).up then (raise { Ev.of (srcPort p.val 0) with detail := [h] } s).headDown h else s) s
    let s := heads.foldl (fun (s : State) h => s.updHeadOf h fun x =>
      { headReset with maxRate := x.maxRate, rateWait := x.rateWait }) s
    let s := ((List.range s.nLds).filter fun n => portOfLd n == p.val).foldl State.resetFn s
    .next (heads.foldl (fun (s : State) h => s.resetFn (32 + h)) s).wake

/-- PERST_RELEASE: PERSTp_N rises and the links of the port train. -/
def execPerstRelease (p : Fin 2) (s : State) : Out :=
  if !s.hasHead (2 * p.val) ∨ !s.port.perstLow.getLsbD p.val then .next s
  else
    let s := s.mapPort fun x => { x with perstLow := x.perstLow &&& ~~~(1#2 <<< p.val) }
    .next (([2 * p.val, 2 * p.val + 1].filter s.headHere).foldl (fun (s : State) h => s.emit (.port (Fin.ofNat 4 h) "train" 0)) s)

/-- LD_RESET: a function-level reset, or the LD reset of the standard. The LD is unbound by it and binds again (12 R310). -/
def execLdReset (fn : Fin 36) (s : State) : Out :=
  if !s.hasFn fn.val then .next s
  else
    let s := s.resetFn fn.val
    .next (if fn.val < 32 ∧ (s.fn fn.val).bound then s.sendOffers fn.val else s)

/-! ### Configuration space (R300 to R302) -/

/-- The head that carries a function. -/
def State.fnHead (s : State) (fn : Nat) : Nat := if fn < 32 then match (s.fn fn).head with | some h => h.val | none => 2 * portOfLd fn else fn - 32

/-- LD_INDEX of the Palfa DVSEC. -/
def ldIndex (fn : Nat) : Nat := if fn < 32 then fn else 0x9F

/-- The Palfa vendor DVSEC in dwords; its header's next pointer is the chain's (R302). -/
def State.dvsec (s : State) (fn : Nat) : Nat → Nat
  | 0 => 0x0023 + 0x10000 + Config.dvsecNext.toNat * 0x100000
  | 1 => 0xEA5D + 0x02000000
  | 2 => 0x0001 + 0x10000
  | 3 =>
    let h := s.fnHead fn
    let b := h + (if s.twoHeads (portOfHead h) then 4 else 0) + (if s.head68 h then 8 else 0)
    ldIndex fn + 0x100 * b + (if s.ev8820 then 0x10000 else 0)
  | 4 => 0x01000000
  | _ => 0

/-- Memory_Active of the volatile HDM ranges, or of the static persistent ones (10 R249, R264). -/
def State.memoryActive (s : State) (persistent : Bool) : Bool := decide (s.resume.level ≥ 1) && (!persistent || s.staticActive)

/-- Register blocks of the Register Locator DVSEC: identifier and BAR0 offset (Table — Register blocks). -/
def registerBlocks : List (Nat × Nat) := [(0x01, 0x00000000), (0x03, 0x00010000), (0x04, 0x00600000), (0xFF, 0x01000000)]

/-- What the spec gives of a dword of the standard's DVSECs (Table — Function capabilities): the bits that a mask names and their values. The places inside
a DVSEC are those of CXL 3.1 (PRESUMED, log 63). ID 0: Memory_Active, bit 1 of the low sizes of range 1, the volatile ones, and range 2, the persistent
ones. ID 5: GPF phase 2 of 1 x 10 ms and P_SAVE_W. ID 8: the register blocks. ID 9, on the FM-owned LD only: 16 LDs. -/
def State.capDword (s : State) (fn : Nat) : Nat → Nat → Option (W32 × W32)
  | 0, 7 => some (2, if s.memoryActive false then 2 else 0)
  | 0, 11 => some (2, if s.memoryActive true then 2 else 0)
  | 5, 2 => some (0x0F0FFFFF, 0x04010005)
  | 5, 3 => s.holdup.map fun b => (0xFFFFFFFF, BitVec.ofNat 32 (1000 * b.pSaveW.toNat))
  | 8, d => if d < 3 then none else (registerBlocks[(d - 3) / 2]?).map fun b => (0xFFFFFFFF, BitVec.ofNat 32 (if d % 2 = 1 then b.2 + 256 * b.1 else 0))
  | 9, 2 => if fn ≥ 32 then some (0xFFFFFFFF, 0x00100009) else none
  | _, _ => none

/-- The DVSEC of the standard that has a dword of the configuration space, and the dword's place in it; each has 16 dwords at most. -/
def capOf (d : Nat) : Option (Nat × Nat) :=
  ([0, 5, 8, 9].find? fun k => decide (Config.dvsecOf k / 4 ≤ d) && decide (d < Config.dvsecOf k / 4 + 16)).map fun k => (k, d - Config.dvsecOf k / 4)

/-- A dword of the configuration space of a function: identity and BARs (Table — Function identity; the places are the PCI header's, PRESUMED,
log 63), the DVSECs where the chain has them, else a free value. BAR0 is a 64-bit one of 32 MiB at an address that the host gives. -/
def State.configDword (s : State) (fn : Nat) (offset : Nat) : Nat × State :=
  let d := offset / 4
  let at_ := Config.dvsecAt / 4
  if d = 4 then
    let (n, s) := s.draw
    (((Config.freeWord n).setWidth 32 &&& 0xFE000000#32).toNat + 4, s)
  else if [6, 7, 8, 9, 12].contains d then (0, s)
  else if d = 0 then ((if s.ev8820 then 0x8820 else 0x8840) * 0x10000 + 0xEA5D, s)
  else if d = 2 then (0x05021001, s)
  else if d = 11 then
    (match s.power.board with
     | some b => if s.power.boardOk then b.subsysId.toNat * 0x10000 + b.subsysVendor.toNat else 0
     | none => 0, s)
  else if at_ ≤ d ∧ d < at_ + 8 then (s.dvsec fn (d - at_), s)
  else
    let (n, s) := s.draw
    let x : W32 := (Config.freeWord n).setWidth 32
    match (capOf d).bind fun p => s.capDword fn p.1 p.2 with
    | some (mask, v) => ((x &&& ~~~mask ||| v).toNat, s)
    | none => (x.toNat, s)

/-- CONFIG_REQUEST: Request Retry Status until step 6 of bring-up, then the register (18 R429). -/
def execConfigRequest (head : Fin 4) (fn : Fin 36) (offset : BitVec 12) (s : State) : Out :=
  if !(s.headOf head.val).up ∨ !s.hasFn fn.val then .next s
  else if s.power.bringup < 6 then .next (s.emit (.port head "request retry status" 0))
  else
    let (v, s) := s.configDword fn.val offset.toNat
    .next (s.emit (.port head "configuration read" v))

/-! ### BAR0 (R304, R305) -/

/-- A register region of Table — BAR0 map. Mailbox payloads begin 0x20 behind the mailbox (PRESUMED, log 63) and are no registers. -/
def registerRegion (o : Nat) : Bool :=
  decide (o < 0x20000)
    || (decide (0x200000 ≤ o ∧ o < 0x600000) && !(decide (0x20 ≤ o % 0x200000) && decide (o % 0x200000 < 0x100020)))
    || decide (0x600000 ≤ o ∧ o < 0x620000) || decide (0x1000000 ≤ o ∧ o < 0x1010000)
    || decide (0x1100000 ≤ o ∧ o < 0x1101000) || decide (0x1200000 ≤ o ∧ o < 0x1201000)
    || decide (0x1300000 ≤ o ∧ o < 0x1340000) || decide (0x1400000 ≤ o ∧ o < 0x1408100)

/-- MMIO_BAD_ACCESS: an access of another size or alignment completes: a read returns zero, a write has no effect, and
SRC_PORT_MMIO_SIZE counts it in a register region. -/
def execMmioBadAccess (fn : Fin 36) (offset : BitVec 25) (read : Bool) (s : State) : Out :=
  if !s.hasFn fn.val then .next s
  else
    let ld : Option (Fin 32) := if h : fn.val < 32 then some ⟨fn.val, h⟩ else none
    let s := if registerRegion offset.toNat then
        raise { Ev.of (srcPort (portOfHead (s.fnHead fn.val)) 2) with ld := ld, detail := [s.fnHead fn.val] } s
      else s
    .next (if read then s.emit (.mmio fn.val offset.toNat 0) else s)

/-! ### MSI-X (R309) -/

/-- Clears a vector's mask; one message is sent when its pending bit is set. -/
def State.unmask (s : State) (fn v : Nat) : State :=
  let s := s.updFn fn fun f => { f with mask := Tab.set (fun _ => true) v false f.mask }
  if Tab.get (fun _ => false) (s.fn fn).msixPending v then
    (s.updFn fn fun f => { f with msixPending := Tab.set (fun _ => false) v false f.msixPending }).emit (.msix fn v)
  else s

def execMsixVectorUnmask (fn : Fin 36) (vector : Fin 2048) (s : State) : Out :=
  if s.hasFn fn.val then .next (s.unmask fn.val vector.val) else .next s

/-! ### HDM decoders (R291) -/

/-- Limits of Table — CXL features. -/
def hdmOk (base size ways gran : Nat) : Bool :=
  decide (size ≠ 0) && decide (base % 0x10000000 = 0) && decide (size % 0x10000000 = 0) && [1, 2, 3, 4, 6, 8, 12, 16].contains ways
    && [256, 512, 1024, 2048, 4096, 8192, 16384].contains gran

/-- HDM_DECODER_COMMIT: a decoder commits once, after the one before it and above its range (PRESUMED from CXL 3.1, log 16); a
commit that the limits forbid does not take. -/
def execHdmDecoderCommit (ld : Fin 32) (n : Fin 4) (base size : W64) (ways : Fin 17) (gran : W16) (s : State) : Out :=
  let f := s.fn ld.val
  let dec (i : Nat) : Option HdmDecoder := Tab.get (fun _ => none) f.hdm i
  let order := decide (n = 0) || match dec (n.val - 1) with
    | some d => decide (d.base.toNat + d.size.toNat ≤ base.toNat)
    | none => false
  if !s.hasLd ld.val ∨ (dec n.val).isSome ∨ !hdmOk base.toNat size.toNat ways.val gran.toNat ∨ !order
      ∨ base.toNat + size.toNat > 2 ^ 64 then .next s
  else .next (s.updFn ld.val fun f =>
    { f with hdm := Tab.set (fun _ => none) n.val (some { base, size, ways := ways.val, gran := gran.toNat }) f.hdm })

end Sys2Proof.Machine
end

