-- ==== Sys2Proof/Machine/Faults.lean ====
section
/-! DEFINITION. Faults, Awl and Insole (16): events that arrive from blocks the table gives no row of their own, the return of classes, ALIVE,
the injections of Awl, Insole records as bytes and their export, and the source, Awl and Insole commands. -/

namespace Sys2Proof.Machine

/-! ### Events that arrive (R390 to R396) -/

/-- Event classes of a source beside its base class (R389, Table — Hub and engine sources). -/
def extraClass (n : Nat) : Option Class :=
  if n = 7 ∨ n = 72 then some .severe else if n = 97 then some .degrade else if n = 543 then some .fatal else none

def classOfCode (c : Nat) : Class := if c = 0 then .info else if c = 1 then .degrade else if c = 2 then .severe else .fatal

/-- The event class of an arriving event: one that its source has, else the base class (R390). -/
def eventClass (n c : Nat) : Class := if extraClass n = some (classOfCode c) then classOfCode c else baseOf n

/-- The unit that FENCE of a source fences (Table — Fence units), where the source number alone names it. -/
def fenceUnitOf (n : Nat) : Option FenceUnit :=
  if 512 ≤ n ∧ n ≤ 537 then some (.engine (n - 512))
  else if 8 ≤ n ∧ n ≤ 15 then some (.core (n - 8))
  else if n < 1024 ∨ n ≥ 2048 then none
  else
    let die := (n - 1024) / 512
    let k := (n - 1024) % 512
    if 384 ≤ k ∧ k < 512 ∧ (k % 64 = 0 ∨ k % 64 = 1 ∨ k % 64 = 3) then some (.module (2 * die + (k - 384) / 64)) else none

/-- Marks the events of a cycle whose escalation fences a unit, and answers those units. -/
def State.flagFences (s : State) : List Ev → List Ev × List FenceUnit
  | [] => ([], [])
  | e :: r =>
    let unit := (fenceUnitOf e.source).filter fun u => firesHere s e.source && s.wouldRise e && (s.src e.source).fence && s.mayFence u
    let (es, us) := State.flagFences (if firesHere s e.source then (countEvent e s).2 else s) r
    ({ e with fenced := unit.isSome } :: es, unit.toList ++ us)

/-- EVENT_ARRIVAL: the events of one hub cycle. -/
def execEventArrival (events : List (BitVec 11 × Fin 4 × Option (Fin 32))) (s : State) : Out :=
  let es := events.map fun e => { Ev.of e.1.toNat with cls := some (eventClass e.1.toNat e.2.1.val), ld := e.2.2 }
  let (es, us) := s.flagFences es
  .next (us.foldl (fun s u => s.doFence none u) (raiseCycle es s)).wake

/-- CLASS_RETURN: the tick of R395 for every source. -/
def execClassReturn (s : State) : Out :=
  .next ((s.fault.sources.map (·.1)).foldl (fun s n => s.setSrc n (returnSource s.tick n (s.src n))) s)

/-! ### ALIVE (R399) -/

/-- ALIVE_STATUS. -/
def State.aliveStatus (s : State) : Nat :=
  if s.fault.fatal then 1 else if s.shank.saveDone then 3 else if !s.fault.aliveSeen then 4 else if !s.fault.heartbeat then 2 else 0

/-- ALIVE_TOGGLE. -/
def execAliveToggle (s : State) : Out :=
  if s.aliveStatus = 0 then .next ((s.mapFault fun f => { f with alive := !f.alive }).emit (.pin "ALIVE" !s.fault.alive)) else .next s

/-- HEARTBEAT_LOST. -/
def execHeartbeatLost (s : State) : Out :=
  if s.fault.heartbeat then .next (fire 6 (s.mapFault fun f => { f with heartbeat := false })) else .next s

/-! ### Insole records (R404) -/

/-- The record with a sequence number, while Insole holds it. -/
def State.insoleRec (s : State) (seq : W32) : Option InsoleRec := s.fault.insole.find? fun r => decide (r.seq = seq)

/-! ### The export ring (R405) -/

/-- The FM-owned LD through which the ring is written: that of the first head up (the spec names the fabric manager as one party and no head:
DESIGN CHOICE, log 66). -/
def State.exportFn (s : State) : Nat := 32 + ((List.range s.nHeads).find? fun h => (s.headOf h).up).getD 0

/-- INSOLE_EXPORT_WRITE: the oldest record that waits is written, or dropped while the ring is full. -/
def execInsoleExportWrite (s : State) : Out :=
  match s.fault.expWaiting with
  | [] => .next s
  | q :: rest =>
    let f := s.fault
    if f.frozen ∨ !f.expEnable then .next s
    else
      let s := s.mapFault fun f => { f with expWaiting := rest }
      if ringFull f.expLog2 f.expHead.toNat f.expTail.toNat then
        .next (s.mapFault fun f => { f with expDropped := min (f.expDropped + 1) 0xFFFF })
      else match s.insoleRec q with
        | none => .next s
        | some r =>
          let t := f.expTail.toNat % 2 ^ f.expLog2
          .next ((s.emit (.dma s.exportFn none (f.expBase.toNat + 64 * t) r.bytes)).mapFault fun f =>
            { f with expTail := BitVec.ofNat 16 (nextIdx f.expLog2 t) })

/-- A write of INSOLE_EXPORT through an FM-owned LD; LOG2 outside 4 to 15 leaves the field unchanged. -/
def State.writeExport (s : State) (value : W64) : State :=
  let k := fld value 0 4
  let en := value.getLsbD 4
  let rise := en && !s.fault.expEnable
  s.mapFault fun f =>
    { f with expLog2 := if 4 ≤ k then k else f.expLog2, expEnable := en, expBase := value &&& ~~~0xFFF
             expHead := if rise then 0 else f.expHead, expTail := if rise then 0 else f.expTail
             expWaiting := if en then f.expWaiting else [] }

/-- INSOLE_EXPORT_ENABLE. -/
def execInsoleExportEnable (head : Fin 4) (value : W64) (s : State) : Out :=
  if s.hasFn (32 + head.val) then .next (s.writeExport value) else .next s

/-! ### Awl (R400 to R403) -/

/-- An injection on a line or a channel that stands, after its last application: it no longer takes one of the 16 slots. -/
def State.parkInj (s : State) (n : Nat) (x : Injection) : State :=
  if x.left = 0 then (s.setInj n none).setInj (16 + x.number.toNat) (some x) else s.setInj n (some x)

def State.countSkipped (s : State) : State := s.mapFault fun f => { f with awlSkipped := f.awlSkipped + 1 }

/-- KIND 1 and 2: the stored check bits of the line change, while its page is HOT. -/
def State.injectLine (s : State) (n : Nat) (x : Injection) : State :=
  let dpn := x.d.address.extractLsb' 12 32
  let l := fld x.d.address 6 6
  let e := s.entry dpn
  match decide (e.state = .hot), s.place e.frame.toNat with
  | true, .at p =>
    let r := s.rawLine p l
    let s := s.setRaw p l { r with side := r.side ^^^ x.sideMask }
    (s.parkInj n { x with marked := !x.marked }).countApplied
  | _, _ => (s.setInj n (if x.left = 0 then none else some x)).countSkipped

/-- KIND 4: the channel leaves service as a failed unit. -/
def State.injectChannel (s : State) (n : Nat) (x : Injection) : State :=
  let c := x.d.target.toNat
  let scope : Scope := { channel := c, whole := true, ranksel := 0 }
  if (s.unitFor scope).isSome then (s.setInj n (if x.left = 0 then none else some x)).countSkipped
  else
    let s := (s.parkInj n { x with marked := true }).countApplied
    s.unitOut scope 0 (some x.tag)

/-- AWL_INJECTION: the next injection of an armed slot falls due. Kinds that wait for their item wait for it now; one still waiting keeps its
turn. -/
def execAwlInjection (slot : Fin 16) (s : State) : Out :=
  match s.inj slot.val with
  | none => .next s
  | some x =>
    if x.left = 0 ∨ x.due then .next s
    else
      let n := slot.val
      let x := { x with left := x.left - 1 }
      let k := x.d.kind.toNat
      if k = 1 ∨ k = 2 then .next (s.injectLine n x)
      else if k = 4 then .next (s.injectChannel n x).wake
      else if k = 9 then
        let s := (s.setInj n (if x.left = 0 then none else some x)).countApplied
        .next (raise { Ev.of x.d.target.toNat with inj := some x.tag } s)
      else .next (s.setInj n (some { x with due := true }))

/-- Limits of a descriptor (Table — Awl descriptor, Table — Injection kinds). -/
def State.awlRangeOk (s : State) (d : AwlDesc) : Bool :=
  let t := d.target.toNat
  decide (d.count ≠ 0) && decide (d.delayMs.toNat ≤ 86400000) && decide (1 ≤ d.intervalUs.toNat) && decide (d.intervalUs.toNat ≤ 1000000) &&
    match d.kind.toNat with
    | 1 => decide (d.address.toNat % 64 = 0) && decide (d.address.toNat / 4096 < s.last.hostPages) && decide (d.mask ≠ 0) && decide (d.mask.toNat < 2 ^ 48)
    | 2 => decide (d.address.toNat % 64 = 0) && decide (d.address.toNat / 4096 < s.last.hostPages) && decide (d.mask ≠ 0)
    | 3 => decide (t ≤ 35)
    | 4 => s.hasChannel t
    | 5 | 6 | 7 => decide (t % 2 ^ 8 < 8) && decide (t < 2 ^ 9) && decide (t % 4 < 2) && s.hasModule (2 * (t / 4 % 2))
    | 8 => decide (t < 16)
    | 9 => firesHere s t
    | _ => false

/-- The status with which AWL_ARM is refused for its state (R400). -/
def State.awlRefused (s : State) (d : AwlDesc) (r : Role) : Option W16 :=
  let t := d.target.toNat
  if d.kind = 4 then
    let x : Scope := { channel := t, whole := true, ranksel := 0 }
    if s.unitsOut.any fun p => decide (p.2.channel.val = t) then some stDenied
    else if (s.unitIndex false).isNone then some stNoResource
    else if (s.unitsOut.any fun p => !s.unitWhole p.2) ∨ s.sparedOn x then some stDenied
    else none
  else if d.kind = 9 ∧ fixedSource t ∧ !d.flags.getLsbD 0 ∧ r ≠ .own then some stDenied
  else none

/-- AWL_ARM. -/
def execAwlArm (m : Msg) (d : AwlDesc) (s : State) : Out :=
  s.slafin { op := 0xC063, roles := rBmcOwn, sess := false, l0 := true, secure := false, inLen := 32, body := 4 } m fun s =>
    if s.inSave ∨ s.inResume then .done stBusy [] s
    else if !s.awlRangeOk d then .done stInvalidRange [] s
    else match s.awlRefused d (s.role m) with
      | some e => .done e [] s
      | none =>
        match (List.range 16).find? fun n => (s.inj n).isNone with
        | none => .done stNoResource [] s
        | some n =>
          let k := s.fault.awlNext
          let s := s.setInj n (some { d, number := k, left := d.count.toNat, due := false, marked := false })
          let s := insoleOther .config [] none (s.mapFault fun f => { f with awlNext := f.awlNext + 1 })
          .done stOk (leNat 4 k.toNat) s

/-- AWL_DISARM: an injection that stands on a line or a channel stays attributed. A number that names none is out of range (log 67). -/
def execAwlDisarm (m : Msg) (injection : W32) (s : State) : Out :=
  s.slafin { op := 0xC064, roles := rBmcOwn, sess := false, l0 := false, secure := false, inLen := 4, body := 0 } m fun s =>
    let armed := s.injs.filter fun p => decide (p.1 < 16)
    let mine := if injection = 0xFFFFFFFF then armed else armed.filter fun p => decide (p.2.number = injection)
    if injection ≠ 0xFFFFFFFF ∧ mine.isEmpty then .done stInvalidRange [] s
    else
      let s := mine.foldl (fun s p =>
        if p.2.marked then s.parkInj p.1 { p.2 with left := 0, due := false } else s.setInj p.1 none) s
      .done stOk [] (insoleOther .config [] none s)

/-! ### Source commands (R391, R394) -/

/-- SET_SOURCE. Writes to a number that is not assigned are ignored (R390). -/
def execSetSource (m : Msg) (source : W16) (config : W64) (s : State) : Out :=
  s.slafin { op := 0xC060, roles := rBmcOwn, sess := false, l0 := false, secure := false, inLen := 16, body := 0 } m fun s =>
    let n := source.toNat
    let w := fld config 16 27
    let lim := fld config 43 2
    if n ≥ 2048 then .done stInvalidRange [] s
    else if !firesHere s n then .done stOk [] s
    else if fixedSource n then .done stDenied [] s
    else if lim = 0 ∨ w = 0 ∨ w > 86400000 then .done stInvalidRange [] s
    else
      let s := s.updSrc n fun x =>
        { x with escN := fld config 0 16, escW := w, escLimit := lim, notify := config.getLsbD 45, fence := config.getLsbD 46 }
      .done stOk [] (insoleOther .config [] none s)

/-- A source after CLEAR_SOURCE; a FATAL class stays. -/
def Source.clear (x : Source) (n : Nat) : Source :=
  { x with sticky := false, inj := false, winCount := 0, cls := if x.cls = .fatal then .fatal else baseOf n }

/-- CLEAR_SOURCE. -/
def execClearSource (m : Msg) (source : W16) (count : W16) (s : State) : Out :=
  s.slafin { op := 0xC061, roles := rBmcOwn, sess := false, l0 := false, secure := false, inLen := 4, body := 0 } m fun s =>
    let n := source.toNat
    if count = 0 then .done stOk [] s
    else if count.toNat > 2048 ∨ n + count.toNat > 2048 then .done stInvalidRange [] s
    else
      let hit := s.fault.sources.filter fun p => decide (n ≤ p.1) && decide (p.1 < n + count.toNat)
      .done stOk [] (hit.foldl (fun s p => s.updSrc p.1 fun x => x.clear p.1) s)

/-- SRC_n_STATE0 and SRC_n_STATE1; a number that is not assigned reads as zero. -/
def State.sourceBytes (s : State) (n : Nat) : List Byte :=
  if !firesHere s n then zeros 16
  else
    let x := s.src n
    leBytes 8 (put 0 16 n ||| put 16 2 (baseOf n).code ||| put 18 2 x.cls.code ||| putB 20 x.sticky ||| putB 21 x.inj
      ||| putB 22 (fixedSource n) ||| put 24 16 x.winCount ||| put 40 24 x.count) ++ leNat 8 x.lastTime

/-- GET_SOURCES. -/
def execGetSources (m : Msg) (first : W16) (max : W16) (s : State) : Out :=
  s.slafin { op := 0xC062, roles := rAll, sess := false, l0 := false, secure := false, inLen := 4, body := 8 } m fun s =>
    let f := first.toNat
    if f ≥ 2048 then .done stInvalidRange [] s
    else
      let n := fits m 8 16 max.toNat (2048 - f)
      .done stOk (leNat 2 n ++ zeros 2 ++ leNat 4 (nextCursor f n 2048) ++ (List.range n).flatMap fun i => s.sourceBytes (f + i)) s

/-! ### Insole commands (R398, R404) -/

/-- READ_INSOLE: the records from a sequence number on, oldest first. -/
def execReadInsole (m : Msg) (cursor : W32) (max : W32) (s : State) : Out :=
  s.slafin { op := 0xC070, roles := rFmBmcOwn, sess := false, l0 := false, secure := false, inLen := 8, body := 8 } m fun s =>
    let all := s.fault.insole.reverse
    let rest := all.dropWhile fun r => decide (r.seq ≠ cursor)
    if rest.isEmpty ∧ !(all.isEmpty ∧ cursor = 0) then .done stInvalidRange [] s
    else
      let n := fits m 8 64 max.toNat rest.length
      let next := match rest.drop n with | r :: _ => r.seq.toNat | [] => 0xFFFFFFFF
      .done stOk (leNat 4 n ++ leNat 4 next ++ (rest.take n).flatMap InsoleRec.bytes) s

/-- UNFREEZE_INSOLE clears the freeze and FIRST_FAULT. -/
def execUnfreezeInsole (m : Msg) (s : State) : Out :=
  s.slafin { op := 0xC071, roles := rBmcOwn, sess := false, l0 := false, secure := false, inLen := 0, body := 0 } m fun s =>
    .done stOk [] (insoleOther .config [] none (s.mapFault fun f => { f with frozen := false, first := none }))

end Sys2Proof.Machine
end

