-- ==== Sys2Proof/Machine/Perf.lean ====
section
/-! DEFINITION. Performance monitoring (17): units and their clocks, counter configuration, freezes, occupancy counting at each tick, the
samplers' control, the periodic dumps. -/

namespace Sys2Proof.Machine

/-! ### Units (R408) -/

/-- Unit u is present. -/
def State.pmHas (s : State) (u : Nat) : Bool :=
  if u < 2 then s.hasHead (2 * u) else if u < 4 then s.hasModule (2 * (u - 2)) else if u < 16 then s.hasChannel (u - 4) else decide (u < 21)

/-- Cycles of a unit's clock from time 0 to a device time (Table — Monitoring units; 18 R434 for lowered clocks). -/
def State.pmCycles (s : State) (u t : Nat) : Nat :=
  if u < 2 then t
  else if 4 ≤ u ∧ u < 16 then Config.channelCycles (s.chan (u - 4)).rate t
  else if u < 4 then t * 8 / 5
  else if s.power.hubDerated then t * 3 / 2 else t * 8 / 5

/-- The fixed counter of a unit: it counts while neither freeze holds it. -/
def State.pmFixed (s : State) (fn u : Nat) : W64 :=
  let f := s.perfFn fn
  let base := Tab.get (fun _ => 0) f.fixed u
  if f.runs u 8 then base + BitVec.ofNat 64 (s.pmCycles u s.time - s.pmCycles u (Tab.get (fun _ => 0) f.fixedSince u)) else base

/-- Settles the fixed counters of an instance at this moment, before and after its freezes change. -/
def State.pmSettle (s : State) (fn : Nat) : State :=
  (List.range 21).foldl (fun (s : State) u =>
    let v := s.pmFixed fn u
    s.updPerfFn fn fun f => { f with fixed := Tab.set (fun _ => 0) u v f.fixed, fixedSince := Tab.set (fun _ => 0) u s.time f.fixedSince }) s

/-! ### Freezes (R413) -/

/-- PM_CTRL.FREEZE_ALL. -/
def State.setFreeze (s : State) (fn : Nat) (b : Bool) : State :=
  if (s.perfFn fn).freeze = b then s else (s.pmSettle fn).updPerfFn fn fun f => { f with freeze := b }

/-- A unit's standard freeze, one bit for each counter (PRESUMED, log 64). -/
def State.setUnitFreeze (s : State) (fn u : Nat) (mask : BitVec 9) : State :=
  (s.pmSettle fn).updPerfFn fn fun f => { f with unitFreeze := Tab.set (fun _ => 0) u mask f.unitFreeze }

/-- FREEZE_ALL. -/
def execFreezeAll (fn : Fin 36) (value : W64) (s : State) : Out :=
  if s.hasFn fn.val then .next (s.setFreeze fn.val (value.getLsbD 0)) else .next s

/-! ### Counter configuration (R410 to R412) -/

/-- The Palfa group of a unit. -/
def pmGroup (u : Nat) : Nat :=
  if u < 2 then 0x80 else if u < 4 then 0x81 else if u < 16 then 0x82 else 0x83 + (u - 16)

/-- Occupancy bits of a Palfa group. -/
def occupancyBits (g : Nat) : List Nat :=
  match g with
  | 0x80 => [7, 8] | 0x81 => [5, 6] | 0x82 => [7, 8] | 0x83 => [6, 7] | 0x84 => [5] | 0x85 => [7, 8] | 0x86 => [6] | 0x87 => [5, 6]
  | _ => []

/-- A configuration is accepted: an occupancy event stands alone, and chaining is bit 0 of group 0x8F on an odd counter. -/
def cfgAccepted (c : Nat) (x : CounterCfg) : Bool :=
  if x.group = 0x8F then decide (c % 2 = 1) && decide (x.mask = 1)
  else (occupancyBits x.group.toNat).all fun b => !x.mask.getLsbD b || decide (x.mask = 1#32 <<< b)

/-- CPMU_CONFIG_WRITE: a configuration that is not accepted leaves the counter disabled. -/
def execCpmuConfigWrite (fn : Fin 36) (unit : Fin 21) (counter : Fin 8) (cfg : CounterCfg) (s : State) : Out :=
  if !s.hasFn fn.val ∨ !s.pmHas unit.val then .next s
  else
    let x := { cfg with enable := cfg.enable && cfgAccepted counter.val cfg }
    .next (s.updPerfFn fn.val fun f => { f with cfg := Tab.set (fun _ => counterReset) (pmKey unit.val counter.val) x f.cfg })

/-! ### Occupancies (R411), in the units of Table — Palfa events -/

def State.pmTags (s : State) (p : Nat) : Nat := (s.path.reqs.filter fun r => decide (portOfTag r.tag = p)).length

/-- Engines of a kind range with at least one job. -/
def State.enginesBusy (s : State) (lo hi : Nat) : Nat :=
  ((List.range hi).filter fun n => decide (lo ≤ n) && s.codec.jobs.any fun j => decide (j.engine.map (·.val) = some n)).length

/-- Decode jobs that wait for a decompressor. -/
def State.decodesQueued (s : State) : Nat := (s.codec.jobs.filter fun j => j.engine.isNone && decide (j.user.kind = 1)).length

/-- Occupancy and the size of its unit; the crypto pipeline is not held as state and counts as empty (log 65). -/
def State.occupancy (s : State) (u b : Nat) : Nat × Nat :=
  let die := [2 * (u - 2), 2 * (u - 2) + 1]
  match pmGroup u, b with
  | 0x80, 7 => (s.pmTags u, 8)
  | 0x80, 8 => (if s.pmTags u ≥ Config.tagsPerPort then 1 else 0, 1)
  | 0x81, 5 => ((die.map fun m => (s.laceMod m).die.replay.length).sum, 8)
  | 0x81, 6 => ((die.map fun m => (s.laceMod m).hub.uReq).sum, 8)
  | 0x82, 7 => (((s.chan (u - 4)).queue.filter fun r => !r.write).length, 1)
  | 0x82, 8 => (((s.chan (u - 4)).queue.filter (·.write)).length, 1)
  | 0x83, 6 => (s.enginesBusy 8 24, 1)
  | 0x83, 7 => (s.decodesQueued, 1)
  | 0x85, 7 => (s.last.missq.length, 8)
  | 0x85, 8 => (s.last.trackers.length, 1)
  | 0x86, 6 => ((s.poq.ctxs.map fun p => match p.2 with | some q => (q.execs.filter (·.started)).length | none => 0).sum, 1)
  | 0x87, 5 => (s.dirtyBytes, mib64)
  | 0x87, 6 => ((List.range 4).map fun n => (s.drive n).commands.length).sum |> fun n => (n, 1)
  | _, _ => (0, 1)

/-- The occupancy events that a counter counts in the nanosecond before this moment. -/
def State.pmOccupancy (s : State) (fn : Nat) (k : Nat) (x : CounterCfg) : State :=
  let u := k / 8
  let f := s.perfFn fn
  match (occupancyBits (pmGroup u)).find? fun b => decide (x.group.toNat = pmGroup u) && decide (x.mask = 1#32 <<< b) with
  | none => s
  | some b =>
    let (n, size) := s.occupancy u b
    if !x.enable ∨ !f.runs u (k % 8) ∨ n ≤ x.threshold.toNat * size then s
    else
      let (f, o) := f.count k (s.pmCycles u s.time - s.pmCycles u (s.time - 1))
      let s := s.setPerfFn fn f
      if o then s.raiseVector fn Config.cpmuVector.val else s

/-- An operating hour is one of device time (18 R441 gives the count and no rule for it: DEDUCED, log 159). -/
def State.countHour (s : State) : State :=
  if s.power.pwrgood ∧ s.time % Config.nsHour = 0 then s.mapPower fun p => { p with hours := p.hours + 1 } else s

/-- The passing of one nanosecond: device time, the operating hours, and the occupancy counters (R411). -/
def State.passTime (s : State) : State :=
  let s := (tickTime s).countHour
  s.perf.fns.foldl (fun s p => p.2.cfg.foldl (fun s c => s.pmOccupancy p.1 c.1 c.2) s) s

/-! ### Samplers (R414) -/

/-- The port of a function. -/
def State.fnPort (fn : Nat) : Nat := if fn < 32 then portOfLd fn else portOfHead (fn - 32)

/-- SAMPLE_CFG_WRITE. LOG2_RATE above 20 and DIR 3 leave their fields unchanged. -/
def State.writeSampleCfg (s : State) (fn : Nat) (p : Nat) (value : W64) : State :=
  let o := (s.sampler p).owner.map (·.val)
  if State.fnPort fn ≠ p ∨ (o.isSome ∧ o ≠ some fn) then s
  else
    let r := fld value 0 5
    let d := fld value 5 2
    let en := value.getLsbD 7
    let s := s.updPerfFn fn fun f =>
      { f with sampRate := if r ≤ 20 then Tab.set (fun _ => 10) p r f.sampRate else f.sampRate
               sampDir := if d < 3 then Tab.set (fun _ => 0) p (Fin.ofNat 4 d) f.sampDir else f.sampDir }
    if en ∧ o.isNone then
      let s := s.updPerfFn fn fun f => { f with sampTail := Tab.set (fun _ => 0) p 0 f.sampTail }
      s.updSampler p fun x => { x with owner := some (Fin.ofNat 36 fn), inBlock := 0 }
    else if !en ∧ o.isSome then s.updSampler p fun x => { x with owner := none }
    else s

def execSampleCfgWrite (fn : Fin 36) (p : Fin 2) (value : W64) (s : State) : Out :=
  if s.hasFn fn.val && s.hasHead (2 * p.val) then .next (s.writeSampleCfg fn.val p.val value) else .next s

/-! ### Periodic dumps (R416 to R418, 16 R406) -/

/-- A write of DUMP_RING; LOG2 outside 1 to 12 leaves the field unchanged. -/
def State.writeDumpRing (s : State) (fn : Nat) (value : W64) : State :=
  let k := fld value 0 4
  let en := value.getLsbD 4
  s.updPerfFn fn fun f =>
    let rise := en && !f.ringEnable
    { f with ringLog2 := if 1 ≤ k ∧ k ≤ 12 then k else f.ringLog2, ringEnable := en, ringBase := value &&& ~~~0xFFF
             dumpHead := if rise then 0 else f.dumpHead, dumpTail := if rise then 0 else f.dumpTail }

/-- DUMP_RING_ENABLE. -/
def execDumpRingEnable (fn : Fin 36) (value : W64) (s : State) : Out :=
  if s.hasFn fn.val then .next (s.writeDumpRing fn.val value) else .next s

/-- The 80-byte block of a unit. -/
def State.dumpBlock (s : State) (fn u : Nat) : List Byte :=
  let f := s.perfFn fn
  let status := (List.range 8).foldl (fun n c => if Tab.get (fun _ => false) f.overflow (pmKey u c) then n + 2 ^ c else n) 0
  leBytes 8 (s.pmFixed fn u) ++ (List.range 8).flatMap (fun c => leNat 8 (Tab.get (fun _ => 0) f.counters (pmKey u c)).toNat) ++ leNat 8 status

/-- A slot of the dump ring. -/
def State.dumpSlot (s : State) (fn : Nat) : List Byte :=
  let f := s.perfFn fn
  let us := (List.range 21).filter s.pmHas
  let head := leNat 4 0x504D4450 ++ leNat 4 us.length ++ leBytes 8 f.dumpSeq ++ leNat 8 s.time ++ leNat 4 f.periodUs
  let body := head ++ zeros (64 - head.length) ++ us.flatMap (s.dumpBlock fn)
  body ++ zeros (2040 - body.length) ++ leBytes 8 f.dumpSeq

def State.loseDump (s : State) (fn : Nat) : State := s.updPerfFn fn fun f => { f with dumpLost := min (f.dumpLost + 1) 0xFFFFFFFF }

/-- An export record is ready or being written, so the telemetry writer takes no dump (16 R406). -/
def State.exporting (s : State) : Bool := !s.fault.expWaiting.isEmpty && s.fault.expEnable && !s.fault.frozen

/-- PERIODIC_DUMP. The copy and its writing are one step (log 68), so no dump of an LD meets its previous one. -/
def execPeriodicDump (fn : Fin 36) (s : State) : Out :=
  let n := fn.val
  let f := s.perfFn n
  if !s.hasFn n ∨ f.periodUs = 0 ∨ !f.ringEnable then .next s
  else if s.exporting then
    .next ((s.loseDump n).mapFault fun x => { x with dumpsLost := min (x.dumpsLost + 1) 0xFFFF })
  else if ringFull f.ringLog2 f.dumpHead f.dumpTail then .next (s.loseDump n)
  else
    let t := f.dumpTail % 2 ^ f.ringLog2
    .next ((s.emit (.dma n none (f.ringBase.toNat + 2048 * t) (s.dumpSlot n))).updPerfFn n fun f =>
      { f with dumpTail := nextIdx f.ringLog2 t, dumpSeq := f.dumpSeq + 1 })

end Sys2Proof.Machine
end

