-- ==== Sys2Proof/Machine/Poq.lean ====
section
/-! DEFINITION. Page operation queues (13): contexts and their cache, doorbells, descriptor reads and checks, execution slots, the page
operations, completions and interrupts, and the administration commands. -/

namespace Sys2Proof.Machine

/-! ### The context cache (R314) -/

/-- Points the tree bits of a way's path away from it; the tree has 13 levels, node n the children 2n and 2n + 1 (log 27). -/
def treeTouch (depth way : Nat) (tree : BitVec 8192) : BitVec 8192 :=
  (List.range depth).foldl (fun t i =>
    let node := 2 ^ i + way / 2 ^ (depth - i)
    if way / 2 ^ (depth - i - 1) % 2 = 1 then t &&& ~~~(1#8192 <<< node) else t ||| (1#8192 <<< node)) tree

/-- The victim walk, past ways that may not be chosen. -/
def treeVictim (tree : BitVec 8192) (ok : Nat → Bool) : Nat → Nat → Nat → Option Nat
  | 0, _, lo => if ok lo then some lo else none
  | d + 1, node, lo =>
    if tree.getLsbD node then
      match treeVictim tree ok d (2 * node + 1) (lo + 2 ^ d) with
      | some w => some w
      | none => treeVictim tree ok d (2 * node) lo
    else
      match treeVictim tree ok d (2 * node) lo with
      | some w => some w
      | none => treeVictim tree ok d (2 * node + 1) (lo + 2 ^ d)

def State.ctxWay (s : State) (q : BitVec 20) : Option (Nat × Bool) :=
  (s.poq.cached.filterMap fun p => p.2.map fun c => (p.1, c)).find? (fun p => decide (p.2.1 = q)) |>.map fun p => (p.1, p.2.2)

/-- INFLIGHT of a queue (R313). -/
def State.inflightOf (s : State) (q : BitVec 20) : Nat := match s.ctx q.toNat with | some c => c.execs.length | none => 0

def State.putCtxWay (s : State) (i : Nat) (q : BitVec 20) (modified : Bool) : State :=
  s.mapPoq fun p => { p with cached := Tab.set (fun _ => none) i (some (q, modified)) p.cached, tree := treeTouch 13 i p.tree }

/-- Uses a queue's context: a miss reads it, counted for an LD, and writes back a modified victim, charged to M_POQ. -/
def State.useCtx (s : State) (q : BitVec 20) (ld : Nat) (modify : Bool) : State :=
  match s.ctxWay q with
  | some (i, m) => s.putCtxWay i q (m || modify)
  | none =>
    let s := (s.countPoq ld 4).charge mPoq (chargeRead 1)
    let way (i : Nat) : Option (BitVec 20 × Bool) := Tab.get (fun _ => none) s.poq.cached i
    let ok (i : Nat) : Bool := match way i with | some (x, _) => decide (s.inflightOf x = 0) | none => true
    let free := if s.poq.cached.length < 8192 then (List.range 8192).find? fun i => (way i).isNone else none
    match free.orElse fun _ => treeVictim s.poq.tree ok 13 1 0 with
    | none => s
    | some i =>
      let s := match way i with | some (_, true) => s.charge mPoq chargeDeltaWrite | _ => s
      s.putCtxWay i q modify

/-! ### Doorbells (R317 to R319) -/

/-- PASID that a doorbell page stamps on a write; none: the write is dropped. -/
def stampOf (bind : Fin 4 × BitVec 20) (pasid : Option (BitVec 20)) : Option (Option (BitVec 20)) :=
  match bind.1 with
  | 0 => none
  | 1 => if pasid.isNone ∨ pasid = some bind.2 then some (some bind.2) else none
  | 2 => some pasid
  | 3 => some none

def State.bindOf (s : State) (ld page : Nat) : Fin 4 × BitVec 20 := Tab.get (fun _ => (0, 0)) (s.poqLd ld).binds page

/-- DOORBELL: stamped, checked, and SQ_TAIL advanced. R316 says that a DRAINING queue's doorbells are dropped under R319, R318 that a queue must be
ACTIVE: R316 is followed where the identity is right (DEDUCED, log 155). -/
def execDoorbell (ld : Fin 32) (page : Fin 64) (value : W64) (pasid : Option (BitVec 20)) (s : State) : Out :=
  let q := BitVec.ofNat 20 (fld value 44 20)
  let tail := fld value 0 16
  let drop (s : State) : State := raise (ldEvent 704 ld.val 0 [page.val, q.toNat]) (s.countPoq ld.val 2)
  if s.path.fenced ∨ !s.hasLd ld.val ∨ !(s.fn ld.val).bound then .next s
  else match stampOf (s.bindOf ld.val page.val) pasid with
    | none => .next (drop s)
    | some stamp =>
      let s := s.useCtx q ld.val false
      match s.ctx q.toNat with
      | none => .next (drop s)
      | some c =>
        let size := 2 ^ c.log2
        let a := (tail + size - c.sqTail) % size
        if (c.state ≠ .active ∧ c.state ≠ .draining) ∨ c.ld ≠ ld ∨ c.pasid ≠ stamp then .next (drop s)
        else if c.state = .draining ∨ tail ≥ size ∨ c.opened + a ≥ size then
          .next (raise (ldEvent 705 ld.val 0 [q.toNat, tail]) (s.countPoq ld.val 3))
        else if a = 0 then .next s
        else .next (((s.useCtx q ld.val true).setCtx q.toNat (some { c with sqTail := tail, opened := c.opened + a })).pmPoq 0 ld.val)

/-! ### Descriptors (R320, R323) -/

end Sys2Proof.Machine

namespace Sys2Proof

def Descriptor.op (d : Descriptor) : Nat := d.opcode.toNat
def Descriptor.len (d : Descriptor) : Nat := d.length.toNat
def Descriptor.pages (d : Descriptor) : Nat := d.len / 4096
/-- Level of HARDEN_RANGE and COMPRESS_OUT. -/
def Descriptor.level (d : Descriptor) : Nat := Machine.fld d.aux 0 4

end Sys2Proof

namespace Sys2Proof.Machine

/-- The head through which an LD's requests enter. -/
def State.headOfLd (s : State) (ld : Nat) : Nat := match (s.fn ld).head with | some h => h.val | none => 0

def State.poqTarget (s : State) (ld : Nat) (dpa : Nat) : Option Target := s.mapLdDpa ld (s.headOfLd ld) dpa

/-- Every page of a range lies in valid capacity map entries and meets a test. -/
def State.rangeIn (s : State) (ld dpa len : Nat) (p : Target → Bool) : Bool :=
  decide (dpa + len ≤ 2 ^ 64) && (List.range ((dpa + len - 1) / 4096 - dpa / 4096 + 1)).all fun i =>
    match s.poqTarget ld ((dpa / 4096 + i) * 4096) with
    | some t => p t
    | none => false

/-- Table — Checks, in its order: the status of the first check that ends the descriptor. -/
def State.checkDescriptor (s : State) (ld : Nat) (d : Descriptor) : Option W16 :=
  let op := d.op
  let dpa := d.dpa.toNat
  let al := if op = 2 then 64 else 4096
  let need := if op = 8 ∨ op = 9 then 32 * d.pages else if op = 10 then 2 * d.pages else 0
  if d.version ≠ 1 then some stUnsupportedVersion
  else if op = 0 ∨ op > 11 then some stInvalidOpcode
  else if op = 11 then none
  else if d.len = 0 then some stOk
  else if dpa % al ≠ 0 ∨ d.len % al ≠ 0 ∨ (op = 2 ∧ d.aux.toNat % al ≠ 0) then some stInvalidAlign
  else if d.len > 0xFFFFF000 then some stInvalidLength
  else if d.bufLen.toNat < need then some stInvalidLength
  else if (op = 7 ∨ op = 8) ∧ d.level > 9 then some stInvalidRange
  else if !s.rangeIn ld dpa d.len (fun _ => true) then some stInvalidRange
  else if op = 2 ∧ (!s.rangeIn ld d.aux.toNat d.len (fun _ => true) ∨ (dpa < d.aux.toNat + d.len ∧ d.aux.toNat < dpa + d.len)) then
    some stInvalidRange
  else if op = 7 ∧ !s.rangeIn ld dpa d.len (·.durable) then some stInvalidRange
  else if op = 7 ∧ !s.shank.imageExists then some stNoResource
  else none

/-! ### Execution slots (R331, R334) -/

def Exec.isFence (x : Exec) : Bool := decide (x.d.op = 11)

/-- The first descriptor of a queue that may start: no FENCE stands before it, fewer than 16 are in execution. A FENCE takes no slot (DESIGN CHOICE,
log 156). -/
def QueueCtx.ready (c : QueueCtx) : Option W16 :=
  if (c.execs.filter (·.started)).length ≥ 16 then none
  else ((c.execs.takeWhile fun x => !x.isFence || x.finished.isSome && decide (x.d.version ≠ 1)).find? fun x =>
    !x.started && x.finished.isNone).map (·.id)

/-- Slots in use by LD, and in all. -/
def State.slotsOf (s : State) (ld : Option Nat) : Nat :=
  (s.poq.ctxs.map fun p => match p.2 with
    | some c => if ld.isNone ∨ ld = some c.ld.val then (c.execs.filter (·.started)).length else 0
    | none => 0).sum

/-- Queues with a descriptor to start: index, LD. -/
def State.readyQueues (s : State) : List (Nat × Nat) :=
  s.poq.ctxs.filterMap fun p => match p.2 with
    | some c => if c.ready.isSome then some (p.1, c.ld.val) else none
    | none => none

/-- The LD of the next slot: slots in use by weight lowest, the lower LD on a tie. -/
def State.slotLd (s : State) (rs : List (Nat × Nat)) : Option Nat :=
  (sortBy (fun a b => decide (a < b)) (rs.map (·.2))).foldl (fun best n => match best with
    | none => some n
    | some b => if s.slotsOf (some n) * (s.poqLd b).weight < s.slotsOf (some b) * (s.poqLd n).weight then some n else some b) none

/-- Gives free slots to ready descriptors. -/
def State.fillSlots : Nat → State → State
  | 0, s => s
  | fuel + 1, s =>
    if s.path.fenced ∨ s.slotsOf none ≥ 256 then s
    else
      let rs := s.readyQueues
      match s.slotLd rs with
      | none => s
      | some n =>
        let mine := (rs.filter fun r => decide (r.2 = n)).map (·.1)
        match (mine.find? fun q => decide (q > (s.poqLd n).rr)).orElse fun _ => mine.head? with
        | none => s
        | some q =>
          match s.ctx q with
          | none => s
          | some c =>
            let c := { c with execs := replaceFirst (fun x => decide (some x.id = c.ready)) (fun x => { x with started := true }) c.execs }
            State.fillSlots fuel (((s.setCtx q (some c)).updPoqLd n fun x => { x with rr := q }).pmPoq 2 n)

def State.slots (s : State) : State := s.fillSlots 256

/-- A DMA of a queue's rings fails (R333). -/
def State.ringFault (s : State) (q : BitVec 20) (c : QueueCtx) : State :=
  let s := s.setCtx q.toNat (some { c with failed := true, state := if c.state = .active then .error else c.state })
  raise (ldEvent 706 c.ld.val 0 [q.toNat]) (s.countPoq c.ld.val 7)

/-- DESCRIPTOR_FETCH: entries between SQ_FETCH and SQ_TAIL are read and checked. -/
def execDescriptorFetch (q : BitVec 20) (ds : Option (List Descriptor)) (s : State) : Out :=
  match s.ctx q.toNat with
  | none => .next s
  | some c =>
    let waiting := (c.sqTail + 2 ^ c.log2 - c.sqFetch) % 2 ^ c.log2
    if s.path.fenced ∨ c.state ≠ .active ∨ waiting = 0 then .next s
    else match ds with
      | none => .next (s.ringFault q c)
      | some ds =>
        if ds.length = 0 ∨ ds.length > waiting then .next s
        else
          let s := s.useCtx q c.ld.val true
          let xs := ds.zipIdx.map fun p =>
            ({ id := c.nextId + BitVec.ofNat 16 p.2, d := p.1, started := false, held := false, pos := 0, bufPos := 0, acting := false
               dataLost := false, waits := false, passed := [], out := [], finished := (s.checkDescriptor c.ld.val p.1).map fun st => (st, 0) } : Exec)
          let c := { c with sqFetch := (c.sqFetch + ds.length) % 2 ^ c.log2, execs := c.execs ++ xs
                            nextId := c.nextId + BitVec.ofNat 16 ds.length }
          .next (s.setCtx q.toNat (some c)).slots

/-! ### Running an operation (R324) -/

/-- What acting on one piece of a range comes to: done with so many bytes of the range and of the buffer; held by the dirty window;
waiting, after `acting` started a migration or not; or the end with a status. -/
inductive PageRes where
  | ok (step buf : Nat) (lost : Bool) (s : State)
  | hold (s : State)
  | wait (acting : Bool) (s : State)
  | fail (status : W16) (s : State)

def State.updExec (s : State) (q : BitVec 20) (id : W16) (f : Exec → Exec) : State :=
  match s.ctx q.toNat with
  | some c => s.setCtx q.toNat (some { c with execs := replaceFirst (fun x => decide (x.id = id)) f c.execs })
  | none => s

/-- The descriptor in execution with an opcode that this command runs: it has started, has not finished and waits for no close. -/
def State.running (s : State) (q : BitVec 20) (id : W16) (op : Nat) : Option (Nat × Exec) :=
  if s.path.fenced then none
  else match s.ctx q.toNat with
    | none => none
    | some c => (c.execs.find? fun x => decide (x.id = id) && x.started && x.finished.isNone && !x.waits && decide (x.d.op = op)).map fun x =>
        (c.ld.val, x)

def State.finishExec (s : State) (q : BitVec 20) (id : W16) (st : W16) (bytes : Nat) : State :=
  s.updExec q id fun x => { x with held := false, acting := false, passed := [], out := [], finished := some (st, BitVec.ofNat 32 bytes) }

/-- The keys with which the pages of the piece at a position are checked. -/
def State.pieceKeys (s : State) (ld : Nat) (d : Descriptor) (pos : Nat) : List (BitVec 12) :=
  ([d.dpa.toNat + pos] ++ if d.op = 2 then [d.aux.toNat + pos] else []).map fun dpa =>
    match s.poqTarget ld dpa with
    | some t => if (s.entry t.dpn).state = .unwritten then s.defKey ld else (s.entry t.dpn).key
    | none => s.defKey ld

/-- The piece at a position has passed its checks before it had to wait: it completes with the old key (05 R119). -/
def Exec.checkedAt (x : Exec) (pos : Nat) : Bool := !x.passed.isEmpty && decide (x.pos = pos)

/-- Each start of holding is counted (09 R222). -/
def State.holdExec (s : State) (q : BitVec 20) (ld : Nat) (x : Exec) (pos bufPos : Nat) (lost : Bool) : State :=
  let s := if x.held then s else fire 771 (s.countShank 3)
  let passed := s.pieceKeys ld x.d pos
  s.updExec q x.id fun x => { x with held := true, pos, bufPos, dataLost := lost, acting := false, passed }

/-- Runs the pieces of an operation from where it stands until it ends, is held or waits. -/
def State.runPieces (q : BitVec 20) (ld : Nat) (x : Exec) (act : Nat → Nat → Bool → State → PageRes) :
    Nat → Nat → Nat → Bool → Bool → State → State
  | 0, _, _, _, _, s => s
  | fuel + 1, pos, bufPos, acting, lost, s =>
    if pos ≥ x.d.len then s.finishExec q x.id (if lost then stDataLost else stOk) x.d.len
    else match act pos bufPos acting s with
      | .ok step buf l s => State.runPieces q ld x act fuel (pos + step) (bufPos + buf) false (lost || l) (s.countPoq ld 5)
      | .hold s => s.holdExec q ld x pos bufPos lost
      | .wait a s =>
        let passed := s.pieceKeys ld x.d pos
        s.updExec q x.id fun x => { x with held := false, pos, bufPos, dataLost := lost, acting := a, passed }
      | .fail st s => s.finishExec q x.id st pos

/-- Runs an operation whose command names a descriptor in execution. -/
def State.operate (s : State) (q : BitVec 20) (id : W16) (op : Nat) (act : Nat → Exec → Nat → Nat → Bool → State → PageRes) : Out :=
  match s.running q id op with
  | none => .next s
  | some (ld, x) => .next (State.runPieces q ld x (act ld x) (x.d.len / 2048 + 4) x.pos x.bufPos x.acting x.dataLost s).wake

/-- The owner and key checks of an operation on a page (R324). -/
def State.poqCheck (s : State) (ld : Nat) (dpn : Dpn) (keyed : Bool) : Option W16 × State :=
  let e := s.entry dpn
  let dpa := dpn.toNat * 4096
  if e.state = .unwritten then (none, s)
  else if !ownerOk e ld then (some stNotOwner, raise (ldEvent 641 ld dpa [dpa, e.owner.toNat]) s)
  else if keyed ∧ !(decide (s.defKey ld = e.key) && s.keyUsable ld e.key) then
    (some stDenied, raise (ldEvent 576 ld dpa [dpa, e.key.toNat]) (s.pmCrypto 4))
  else (none, s)

/-- A page of the range: the target at a position, its checks unless they have been passed, then the action on it. `fresh` says that the action takes an UNWRITTEN
page out of that state, for which the default key's slot must be usable (05 R107). -/
def State.onPage (s : State) (ld dpa : Nat) (passed keyed fresh : Bool) (act : Target → State → PageRes) : PageRes :=
  match s.poqTarget ld dpa with
  | none => .fail stInvalidRange s
  | some t =>
    if passed then act t s
    else match s.poqCheck ld t.dpn keyed with
    | (some st, s) => .fail st s
    | (none, s) =>
      if fresh ∧ (s.entry t.dpn).state = .unwritten ∧ !s.keyUsable ld (s.defKey ld) then
        .fail stDenied (raise (ldEvent 576 ld (t.dpn.toNat * 4096) [t.dpn.toNat * 4096, (s.defKey ld).toNat]) (s.pmCrypto 4))
      else act t s

/-- Host accesses to the page that the tracker has accepted are not carried out yet: the operation's accesses come after them (01 R19, R331; by page
instead of by line: DEDUCED, log 71). -/
def State.pageBusy (s : State) (dpn : Dpn) : Bool := s.path.reqs.any fun r => decide (r.dpn = dpn)

/-- Whether the window holds a change of a page that adds an amount (09 R222). -/
def State.holdsChange (s : State) (t : Target) (amount : Nat) : Bool :=
  if (s.entry t.dpn).state = .unwritten then
    t.durable && s.shank.imageExists && (decide (s.dirtyBytes + amount > s.shank.window * mib64)
      || decide (s.shank.queue.length ≥ Config.shadowQueueMax) || s.shank.logFull)
  else s.windowHolds t.dpn amount

/-- The soft limit holds a master's priority as it holds a host's (09 R221). -/
def State.softHoldPoq (s : State) (t : Target) (master : Nat := mPoq) : State :=
  let e := s.entry t.dpn
  if (e.durable || (decide (e.state = .unwritten) && t.durable)) ∧ !e.dirty
      ∧ s.dirtyBytes ≥ softOf s.shank.window s.shank.policy.softPct * mib64 then
    let s := if (s.master master).holdSoft then s else s.countReg 4
    s.updMaster master fun m => { m with holdSoft := true }
  else s

/-- Buffered lines and merge entries of a page go: what they hold is overwritten. -/
def State.dropBuffered (s : State) (dpn : Dpn) : State :=
  let s := (s.path.merge.filter fun m => decide (m.dpn = dpn)).foldl (fun s m => s.completeMerge m) s
  s.mapPath fun p => { p with wbuf := p.wbuf.filter fun w => decide (w.dpn ≠ dpn), merge := p.merge.filter fun m => decide (m.dpn ≠ dpn) }

def newOwner (t : Target) (ld : Nat) : BitVec 12 := if t.shared then 0 else ownerLd ld

/-- A page becomes ZERO (R325). -/
def State.zeroPage (s : State) (ld : Nat) (t : Target) (step buf : Nat) : PageRes :=
  if (s.entry t.dpn).state = .zero then .ok step buf false s
  else if s.pageBusy t.dpn then .wait false s
  else if s.holdsChange t 64 then .hold s
  else .ok step buf false (((s.softHoldPoq t).dropBuffered t.dpn).toZero t.dpn (newOwner t ld) (s.defKey ld) t.durable)

def execZeroRange (q : BitVec 20) (id : W16) (s : State) : Out :=
  s.operate q id 1 fun ld x pos _ _ s => s.onPage ld (x.d.dpa.toNat + pos) (x.checkedAt pos) true true fun t s => s.zeroPage ld t 4096 0

/-! ### Writing lines as a host access would (R326, R329) -/

/-- What stands in the way of a write to a page: nothing, the window, or a wait. -/
inductive Ready where
  | yes (s : State)
  | hold (s : State)
  | wait (s : State)

/-- Makes a page ready for line writes: a hot frame, or a promotion that is waited for (02 R37, R38, R51 to R54; 03 R58, R60, R66). -/
def State.readyPage (s : State) (ld : Nat) (t : Target) (hint : Frame) (master : Nat := mPoq) : Ready :=
  if s.pageBusy t.dpn then .wait s
  else if s.holdsChange t 4160 then .hold s
  else
    let e := s.entry t.dpn
    let warm (s : State) : State :=
      let s := if s.tier.freeFrames = 0 then s.emergencyDemote hint else s
      match s.startMigration .writePromotion t.dpn hint with
      | some s => s
      | none => s
    let hot (s : State) : Ready :=
      match s.trackerOf t.dpn with
      | some (_, tr) => if tr.holdWrites then .wait s else .yes (s.softHoldPoq t master)
      | none => .yes (s.softHoldPoq t master)
    match e.state with
    | .unwritten | .zero | .lost =>
      let own := if e.state = .unwritten then newOwner t ld else e.owner
      let s := if s.tier.freeFrames = 0 then s.emergencyDemote hint else s
      match s.takeFrame hint (hotRecord t.dpn own) with
      | none => .wait s
      | some (f, s) => .yes ((s.softHoldPoq t master).toHot t.dpn f own (s.defKey ld) t.durable)
    | .hot => hot s
    | .warm => .wait (warm s)
    | .inMotion =>
      if e.warmSource then
        match s.trackerOf t.dpn with
        | some (_, tr) => .wait (if tr.flipped ∨ tr.place.isEmpty then s else warm (s.abandon t.dpn))
        | none => .wait s
      else hot s
    | .restoring => .wait s

/-- Writes one line whole; an open merge entry of the line is replaced (06 R138). -/
def State.poqWriteLine (s : State) (dpn : Dpn) (line : Fin 64) (x : Option Line) : State :=
  let s := match s.mergeOf dpn line.val with
    | some m => (s.completeMerge m).dropMerge dpn line.val
    | none => s
  match x with
  | some d => s.bufferLine dpn line d false none
  | none => let (n, s) := s.draw; s.bufferLine dpn line (Config.freeLine n) true none

/-! ### COPY_RANGE (R326) -/

/-- Bytes from a position to the end of its source page, of its destination page, or of the range. -/
def copyStep (d : Descriptor) (pos : Nat) : Nat :=
  min (min (4096 - (d.dpa.toNat + pos) % 4096) (4096 - (d.aux.toNat + pos) % 4096)) (d.len - pos)

/-- The lines of a source page as reads of it return them. R58 does not say whether such a read of a WARM page triggers a promotion: none does (DESIGN
CHOICE, log 139). -/
def State.sourceLines (s : State) (t : Target) : List (Option Line) × State :=
  let e := s.entry t.dpn
  if e.state = .unwritten ∧ t.poisonUnw then (List.replicate 64 none, s)
  else if e.warmForm then
    match s.warmLines t.dpn true with
    | (some ls, s) => (ls, s.charge mPoq (chargeRead e.granules))
    | (none, s) => (List.replicate 64 none, s)
  else (s.pageLines t.dpn, s)

/-- One piece of COPY_RANGE. R55 does not say whether a destination page that the operation itself makes HOT counts as a sampled access: the page is
sampled once it is HOT (DESIGN CHOICE, log 138; so for DECOMPRESS_IN). -/
def State.copyPiece (s : State) (ld : Nat) (d : Descriptor) (pos : Nat) (passed : Bool) (hint : Frame) : PageRes :=
  let step := copyStep d pos
  let from_ := d.dpa.toNat + pos
  let to_ := d.aux.toNat + pos
  s.onPage ld from_ passed true false fun src s => s.onPage ld to_ passed true true fun dst s =>
    let e := s.entry src.dpn
    if s.pageBusy src.dpn then .wait false s
    else if step = 4096 ∧ (e.state = .zero ∨ (e.state = .unwritten ∧ !src.poisonUnw)) then s.zeroPage ld dst step 0
    else match s.readyPage ld dst hint with
      | .hold s => .hold s
      | .wait s => .wait false s
      | .yes s =>
        let s := if pos = 0 ∨ from_ % 4096 = 0 then s.heatSample src.dpn else s
        let s := if pos = 0 ∨ to_ % 4096 = 0 then s.heatSample dst.dpn else s
        let (ls, s) := s.sourceLines src
        let n := step / 64
        let got := (List.range n).map fun i => ls.getD (from_ / 64 % 64 + i) none
        let s := if (s.entry src.dpn).hotForm then s.charge mPoq (chargeRead n) else s
        let s := got.zipIdx.foldl (fun s p => s.poqWriteLine dst.dpn (Fin.ofNat 64 (to_ / 64 + p.2)) p.1) s
        .ok step 0 (got.any (·.isNone)) s

def execCopyRange (q : BitVec 20) (id : W16) (hint : Frame) (s : State) : Out :=
  s.operate q id 2 fun ld x pos _ _ s => s.copyPiece ld x.d pos (x.checkedAt pos) hint

/-! ### PIN_HOT, UNPIN, PROMOTE, DEMOTE (03 R58, R65; R327) -/

/-- Sets or clears PINNED, which no span spans. -/
def State.setPinned (s : State) (dpn : Dpn) (on : Bool) : State :=
  let e := s.entry dpn
  if e.pinned = on then s
  else
    let s := s.breakSpan dpn
    let s := s.putEntry dpn { s.entry dpn with pinned := on }
    let s := s.mapTier fun t => { t with pinnedPages := if on then t.pinnedPages + 1 else t.pinnedPages - 1 }
    if (s.entry dpn).state = .hot then s.formSpan dpn else s

/-- A promotion for the queue: NO_RESOURCE at or below RESERVE, else it starts or waits for a tracker. -/
def State.poqPromote (s : State) (dpn : Dpn) (hint : Frame) : PageRes :=
  if s.tier.freeFrames ≤ s.reserveFrames then .fail stNoResource s
  else match s.startMigration .poqPromotion dpn hint with
    | some s => .wait true s
    | none => .wait false s

/-- A page in motion is pinned when its migration has ended (DEDUCED, log 72). -/
def execPinHot (q : BitVec 20) (id : W16) (hint : Frame) (s : State) : Out :=
  s.operate q id 3 fun ld x pos _ _ s => s.onPage ld (x.d.dpa.toNat + pos) (x.checkedAt pos) true false fun t s =>
    let e := s.entry t.dpn
    let full := decide (s.tier.pinnedPages + 1 > s.tier.pinMax)
    match e.state with
    | .unwritten | .lost | .restoring => .ok 4096 0 false s
    | .inMotion => .wait false s
    | .hot | .zero => if e.pinned then .ok 4096 0 false s else if full then .fail stNoResource s else .ok 4096 0 false (s.setPinned t.dpn true)
    | .warm => if !e.pinned ∧ full then .fail stNoResource s else s.poqPromote t.dpn hint

def execUnpin (q : BitVec 20) (id : W16) (s : State) : Out :=
  s.operate q id 4 fun ld x pos _ _ s => s.onPage ld (x.d.dpa.toNat + pos) (x.checkedAt pos) true false fun t s =>
    match (s.entry t.dpn).state with
    | .unwritten | .lost | .restoring => .ok 4096 0 false s
    | _ => .ok 4096 0 false (s.setPinned t.dpn false)

/-- The migration that the operation started for the page still runs. -/
def State.stillMoves (s : State) (dpn : Dpn) (k : MigKind) : Bool :=
  match s.trackerOf dpn with
  | some (_, t) => decide (t.kind = k) && !t.flipped
  | none => false

def execPromote (q : BitVec 20) (id : W16) (hint : Frame) (s : State) : Out :=
  s.operate q id 5 fun ld x pos _ acting s => s.onPage ld (x.d.dpa.toNat + pos) (x.checkedAt pos) true false fun t s =>
    if acting then (if s.stillMoves t.dpn .poqPromotion then .wait true s else .ok 4096 0 false s)
    else if (s.entry t.dpn).state = .warm then s.poqPromote t.dpn hint
    else .ok 4096 0 false s

def execDemote (q : BitVec 20) (id : W16) (hint : Frame) (s : State) : Out :=
  s.operate q id 6 fun ld x pos _ acting s => s.onPage ld (x.d.dpa.toNat + pos) (x.checkedAt pos) true false fun t s =>
    let e := s.entry t.dpn
    if acting then (if s.stillMoves t.dpn .demotion then .wait true s else .ok 4096 0 false s)
    else if e.state = .hot ∧ !e.pinned then
      if s.allFenced 0 then .fail stNoResource s
      else match s.startMigration .demotion t.dpn hint with
        | some s => .wait true s
        | none => .wait false s
    else .ok 4096 0 false s

/-! ### HARDEN_RANGE (09 R247) -/

/-- Records a page by hardening: DIRTY clears, and its queued entry with its amount becomes the record's. -/
def State.hardenPage (s : State) (dpn : Dpn) (level : Nat) : State :=
  let e := s.entry dpn
  let mine (p : QEntry) : Bool := decide (p.dpn = dpn) && decide (p.kind = .changed)
  let amount := if s.shank.queue.any mine then queueAmount e .changed else 0
  let s := s.mapShank fun k => { k with queue := k.queue.filter fun p => !mine p }
  let s := if e.dirty then s.touchEntry dpn fun e => { e with dirty := false } else s
  let level := if s.allFenced 2 then 0 else level
  s.recordPage dpn amount level (fun r => { r with hardened := true }) mPoq

/-- A page whose record cannot be written yet: its key is not wrapped (05 R114) or it is under repair (09 R216). -/
def State.hardenWaits (s : State) (dpn : Dpn) : Bool :=
  let slot := s.slot (s.entry dpn).key.toNat
  !s.canRecord || (slot.persistent && !slot.wrapped) || s.repairWaits dpn || s.pageBusy dpn

/-! ### The engines of an operation (04 R87, R88) -/

/-- The deep-engine job of an operation. -/
def State.deepJob (s : State) (u : CodecUser) : Option CodecJob := s.codec.jobs.find? fun j => decide (j.user = u)

/-- Issues the deep-engine job of an operation that has none. -/
def State.takeDeep (s : State) (u : CodecUser) (ld : Nat) : State :=
  if (s.deepJob u).isSome then s else s.startJob u 0 0 (ownerLd ld) (s.defKey ld)

/-- The operation has an engine to code with: its deep engine, which the thermal measures stop (18 R425), else a free compressor, or none in service. -/
def State.coderReady (s : State) (deep : Bool) (u : CodecUser) : Bool :=
  if deep then (match s.deepJob u with | some j => j.engine.isSome && !s.power.throttle | none => false)
  else (s.idleEngine 0).isSome || s.allFenced 0

/-- R88: a hardening job waits, every deep engine in service runs a COMPRESS_OUT job, and this one started last. -/
def State.preempted (s : State) (j : CodecJob) : Bool :=
  let hardens (u : CodecUser) : Bool := match u with | .harden _ _ => true | _ => false
  let copies (u : CodecUser) : Bool := match u with | .compressOut _ _ => true | _ => false
  copies j.user && (s.codec.jobs.any fun x => hardens x.user && x.engine.isNone) &&
    ((enginesOf 2).all fun n => s.engineFenced n || s.jobOn n fun x => copies x.user) &&
    s.codec.jobs.all fun x => x.engine.isNone || decide (x.user.kind ≠ 2) || decide (x.since ≤ j.since)

/-- The end of a chunk on a deep engine: a job that is preempted, or that the thermal measures stop, gives its engine up and waits at its place for the
first that frees. -/
def State.chunkBoundary (s : State) (u : CodecUser) : State :=
  match s.deepJob u with
  | none => s
  | some j =>
    let pre := j.engine.isSome && s.preempted j
    if !pre ∧ !s.power.throttle then s
    else
      let s := if pre then s.countCodec 7 else s
      (s.mapCodec fun c => { c with jobs := replaceFirst (fun x => decide (x.user = u)) (fun x => { x with engine := none }) c.jobs }).giveEngines

/-- HARDEN_RANGE: at levels 1 to 9 on a deep engine, at level 0, or with both fenced, on a compressor. -/
def execHardenRange (q : BitVec 20) (id : W16) (s : State) : Out :=
  match s.running q id 7 with
  | none => .next s
  | some (ld, x) =>
    let user : CodecUser := .harden q id
    let deep := decide (x.d.level ≠ 0) && !s.allFenced 2
    let s := if deep then s.takeDeep user ld else s
    if !s.coderReady deep user then .next (s.chunkBoundary user)
    else
      let act (pos _ : Nat) (_ : Bool) (s : State) : PageRes :=
        s.onPage ld (x.d.dpa.toNat + pos) (x.checkedAt pos) true false fun t s =>
          let e := s.entry t.dpn
          if e.state = .unwritten ∨ !e.durable then .ok 4096 0 false s
          else if s.hardenWaits t.dpn then .wait false s
          else .ok 4096 0 false (s.hardenPage t.dpn x.d.level)
      let s := (State.runPieces q ld x act (x.d.len / 2048 + 4) x.pos 0 false false s).endJobs fun j => decide (j.user = user)
      -- after the last record the epoch ends, and the operation completes with its close
      match (s.ctx q.toNat).bind fun c => c.execs.find? fun y => decide (y.id = id) with
      | some y =>
        if y.finished = some (stOk, x.d.length) then
          let e := s.shank.epoch
          let s := s.updExec q id fun y => { y with finished := none, waits := true }
          .next (s.endEpoch.mapShank fun k => { k with harden := k.harden ++ [(q, id, e)] }).slotQueuePassed.wake
        else .next s.slotQueuePassed.wake
      | none => .next s

/-! ### COMPRESS_OUT, DECOMPRESS_IN, HEAT_REPORT (R328 to R330) -/

/-- A chunk of a page that reads without poison, as a frame (04 R79). -/
def frameOfChunk (level : Nat) (ls : List Line) : ChunkForm × List Byte :=
  let bs := bytesOfLines ls
  let f := formOf level false bs
  (f, f.frame level bs)

/-- A stored warm chunk as a frame: its header and stream with the padding of a frame (R328). -/
def storedFrame (cnt : Nat) (bs : List Byte) : List Byte :=
  if cnt = 0 then ChunkForm.absent.frame 0 (zeros 1024)
  else if cnt = 16 then ChunkForm.raw.frame 0 (bs.take 1024)
  else bs.take (ceilDiv (8 + (CHeader.parse bs).len) 8 * 8)

/-- The stored chunks of a warm page in plaintext; none where a granule cannot be read or is poisoned. -/
def State.storedChunks (s : State) (dpn : Dpn) (e : LastEntry) : Option (List (Nat × List Byte)) :=
  (List.range 4).foldl (fun (acc : Option (List (Nat × List Byte))) ch =>
    let gs := s.granules e ch
    match acc with
    | none => none
    | some cs =>
      if s.codec.repair.any (fun j => decide (j.dpn = dpn) && decide (j.chunk.val = ch)) ∨
          !gs.all (fun g => match g with | some r => !metaPoison (sideMeta r.side) | none => false) then none
      else some (cs ++ [((e.chunk ch).cnt.toNat,
        bytesOfLines (gs.zipIdx.map fun p => s.decGranule e.key.toNat dpn.toNat ch p.2 ((p.1.map (·.data)).getD 0)))])) (some [])

/-- One chunk of a page as a deep engine codes it for COMPRESS_OUT, or the status with which the operation fails. -/
def State.chunkFrame (s : State) (t : Target) (level ch : Nat) : Except W16 (List Byte) × State :=
  let e := s.entry t.dpn
  match e.state with
  | .unwritten | .zero => (.ok (ChunkForm.absent.frame level (zeros 1024)), s)
  | .lost | .restoring => (.error stDataLost, s)
  | _ =>
    let (ls, s) :=
      if e.warmForm then
        match (s.charge mPoq (chargeRead (e.chunk ch).cnt.toNat)).chunkFor t.dpn ch true with
        | (some ls, s) => (ls, s)
        | (none, s) => (List.replicate 16 none, s)
      else (chunkLines (s.pageLines t.dpn) ch, s.charge mPoq (chargeRead 16))
    if ls.any (·.isNone) then (.error stDataLost, s)
    else
      let f := frameOfChunk level (ls.map fun x => x.getD 0)
      (.ok f.2, (s.pmCodec 2).countCodec 1 (if f.1 = .raw then 1 else 0))

/-- The four frames of a page, or the status with which the operation fails. No engine codes an UNWRITTEN or ZERO page, and R79 does not say which LEVEL
its ZERO frames carry: the AUX level (DESIGN CHOICE, log 145). -/
def State.pageFrames (s : State) (t : Target) (level : Nat) : Except W16 (List Byte) × State :=
  let e := s.entry t.dpn
  match e.state with
  | .unwritten | .zero => (.ok (List.replicate 4 (ChunkForm.absent.frame level (zeros 1024))).flatten, s)
  | .lost | .restoring => (.error stDataLost, s)
  | _ =>
    if level = 0 ∧ e.warmForm then
      let s := s.charge mPoq (chargeRead e.granules)
      match s.storedChunks t.dpn e with
      | some cs => (.ok (cs.flatMap fun c => storedFrame c.1 c.2), s.countCodec 1 (cs.filter fun c => decide (c.1 = 16)).length)
      | none => (.error stDataLost, s)
    else if s.allFenced (if level = 0 then 0 else 2) then (.error stNoResource, s)
    else
      let s := if e.hotForm then s.charge mPoq (chargeRead 64) else s
      let (ls, s) := s.sourceLines t
      if ls.any (·.isNone) then (.error stDataLost, s)
      else
        let fs := (List.range 4).map fun ch => frameOfChunk level ((chunkLines ls ch).map fun x => x.getD 0)
        let raws := (fs.filter fun f => decide (f.1 = .raw)).length
        let s := if level = 0 then s.countCodec 0 4 else s.pmCodec 2 4
        (.ok (fs.flatMap (·.2)), s.countCodec 1 raws)

/-- The result of COMPRESS_OUT over its pages: status, BYTES_DONE, the frames to deliver. -/
def State.compressAll (ld : Nat) (d : Descriptor) : Nat → Nat → List Byte → State → (W16 × Nat × List Byte) × State
  | 0, _, buf, s => ((stOk, buf.length, buf), s)
  | fuel + 1, i, buf, s =>
    if i ≥ d.pages then ((stOk, buf.length, buf), s)
    else match s.poqTarget ld (d.dpa.toNat + 4096 * i) with
      | none => ((stInvalidRange, 0, []), s)
      | some t =>
        match s.poqCheck ld t.dpn true with
        | (some st, s) => ((st, 4096 * i, buf), s)
        | (none, s) =>
          match (s.heatSample t.dpn).pageFrames t d.level with
          | (.error st, s) => ((st, 0, []), s)
          | (.ok fs, s) =>
            if buf.length + fs.length > d.bufLen.toNat then ((stOverrun, 0, []), s)
            else State.compressAll ld d fuel (i + 1) (buf ++ fs) (s.countPoq ld 5)

/-- PASID of a queue's DMA (R315). -/
def State.pasidOf (s : State) (q : BitVec 20) : Option (BitVec 20) := (s.ctx q.toNat).bind (·.pasid)

/-- A buffer DMA fails (R333). -/
def State.bufferFault (s : State) (q : BitVec 20) (id : W16) (ld bytes : Nat) : State :=
  (s.countPoq ld 7).finishExec q id stDenied bytes

def State.rangeBusy (s : State) (ld : Nat) (d : Descriptor) : Bool :=
  (List.range d.pages).any fun i => match s.poqTarget ld (d.dpa.toNat + 4096 * i) with
    | some t => s.pageBusy t.dpn
    | none => false

/-- What COMPRESS_OUT has coded goes to the host buffer, and the operation ends. -/
def State.deliverFrames (s : State) (q : BitVec 20) (id : W16) (ld : Nat) (x : Exec) (dmaOk : Bool) (r : W16 × Nat × List Byte) : State :=
  if r.2.2.isEmpty then s.finishExec q id r.1 r.2.1
  else if !dmaOk then s.bufferFault q id ld 0
  else (s.emit (.dma ld (s.pasidOf q) x.d.hostAddr.toNat r.2.2)).finishExec q id r.1 r.2.1

/-- One chunk of a COMPRESS_OUT at levels 1 to 9 on the operation's deep engine. -/
def State.compressChunk (s : State) (q : BitVec 20) (id : W16) (ld : Nat) (x : Exec) (dmaOk : Bool) : State :=
  let user : CodecUser := .compressOut q id
  let ends (s : State) (r : W16 × Nat × List Byte) : State := (s.deliverFrames q id ld x dmaOk r).giveEngines
  let ch := x.pos % 4096 / 1024
  match s.poqTarget ld (x.d.dpa.toNat + x.pos) with
  | none => ends s (stInvalidRange, 0, [])
  | some t =>
    let (bad, s) := if ch = 0 then s.poqCheck ld t.dpn true else (none, s)
    match bad with
    | some st => ends s (st, x.pos, x.out)
    | none =>
      match (if ch = 0 then s.heatSample t.dpn else s).chunkFrame t x.d.level ch with
      | (.error st, s) => ends s (st, 0, [])
      | (.ok f, s) =>
        let out := x.out ++ f
        let pos := x.pos + 1024
        if out.length > x.d.bufLen.toNat then ends s (stOverrun, 0, [])
        else
          let s := if pos % 4096 = 0 then s.countPoq ld 5 else s
          if pos ≥ x.d.len then ends s (stOk, out.length, out)
          else
            let passed := if pos % 4096 = 0 then [] else s.pieceKeys ld x.d x.pos
            (s.updExec q id fun y => { y with pos, out, passed }).chunkBoundary user

/-- COMPRESS_OUT: at level 0 whole, on a free compressor; at levels 1 to 9 chunk by chunk on a deep engine, which a hardening job may take (04 R88). -/
def execCompressOut (q : BitVec 20) (id : W16) (dmaOk : Bool) (s : State) : Out :=
  match s.running q id 8 with
  | none => .next s
  | some (ld, x) =>
    let user : CodecUser := .compressOut q id
    let deep := decide (x.d.level ≠ 0) && !s.allFenced 2
    if deep then
      let s := s.takeDeep user ld
      if !s.coderReady true user then .next (s.chunkBoundary user)
      else if x.pos % 4096 = 0 ∧ s.rangeBusy ld x.d then .next s
      else .next (s.compressChunk q id ld x dmaOk).wake
    else if s.rangeBusy ld x.d || (decide (x.d.level = 0) && !s.coderReady false user) then .next s
    else match State.compressAll ld x.d (x.d.pages + 1) 0 [] s with
      | (r, s) => .next (s.deliverFrames q id ld x dmaOk r).wake

/-- The four frames of one page from a buffer: the lines, whether all four are ZERO frames, the bytes used; or the failing test. -/
def readPage (buf : List Byte) : Except W16 (List Line × Bool × Nat) :=
  let step (acc : Except W16 (List Byte × Bool × List Byte)) (_ : Nat) : Except W16 (List Byte × Bool × List Byte) :=
    match acc with
    | .error st => .error st
    | .ok (out, z, rest) =>
      match readFrame rest with
      | .fail st => .error st
      | .ok chunk rest' => .ok (out ++ chunk, z && decide ((CHeader.parse rest).mode = .zero), rest')
  match (List.range 4).foldl step (.ok ([], true, buf)) with
  | .error st => .error st
  | .ok (out, z, rest) => .ok (linesOfBytes 64 out, z, buf.length - rest.length)

def execDecompressIn (q : BitVec 20) (id : W16) (buf : Option (List Byte)) (hint : Frame) (s : State) : Out :=
  match s.running q id 9 with
  | none => .next s
  | some (ld, x) =>
    match buf with
    | none => .next (s.bufferFault q id ld x.pos)
    | some bs =>
      s.operate q id 9 fun ld x pos bufPos _ s => s.onPage ld (x.d.dpa.toNat + pos) (x.checkedAt pos) true true fun t s =>
        if (s.idleEngine 1).isNone then .wait false s
        else match readPage ((bs.take x.d.bufLen.toNat).drop bufPos) with
        | .error st => .fail st s
        | .ok (ls, zero, used) =>
          if zero then
            match s.zeroPage ld t 4096 used with
            | .ok a b l s => .ok a b l ((s.heatSample t.dpn).pmCodec 0 4)
            | r => r
          else match s.readyPage ld t hint with
            | .hold s => .hold s
            | .wait s => .wait false s
            | .yes s =>
              let s := (s.heatSample t.dpn).pmCodec 0 4
              .ok 4096 used false (ls.zipIdx.foldl (fun s p => s.poqWriteLine t.dpn (Fin.ofNat 64 p.2) (some p.1)) s)

/-- The two bytes of a page (R330). -/
def heatBytes (e : LastEntry) : List Byte :=
  let heat : Byte := match e.state with | .hot | .warm | .inMotion => e.heat | _ => 0
  [heat, BitVec.ofNat 8 (e.state.code + (if e.pinned then 8 else 0) + (if e.dirty then 16 else 0) + (if e.durable then 32 else 0))]

/-- The report over the pages up to the first that fails the owner check. -/
def State.heatAll (ld : Nat) (d : Descriptor) : Nat → Nat → List Byte → State → (W16 × Nat × List Byte) × State
  | 0, _, buf, s => ((stOk, buf.length, buf), s)
  | fuel + 1, i, buf, s =>
    if i ≥ d.pages then ((stOk, buf.length, buf), s)
    else match s.poqTarget ld (d.dpa.toNat + 4096 * i) with
      | none => ((stInvalidRange, 4096 * i, buf), s)
      | some t =>
        match s.poqCheck ld t.dpn false with
        | (some st, s) => ((st, 4096 * i, buf), s)
        | (none, s) => State.heatAll ld d fuel (i + 1) (buf ++ heatBytes (s.entry t.dpn)) (s.countPoq ld 5)

def execHeatReport (q : BitVec 20) (id : W16) (dmaOk : Bool) (s : State) : Out :=
  match s.running q id 10 with
  | none => .next s
  | some (ld, x) =>
    match State.heatAll ld x.d (x.d.pages + 1) 0 [] s with
    | ((st, n, buf), s) =>
      if buf.isEmpty then .next (s.finishExec q id st n)
      else if !dmaOk then .next (s.bufferFault q id ld 0)
      else .next ((s.emit (.dma ld (s.pasidOf q) x.d.hostAddr.toNat buf)).finishExec q id st n)

/-- FENCE starts once it is the oldest descriptor of its queue (R331). -/
def execFence (q : BitVec 20) (id : W16) (s : State) : Out :=
  match s.ctx q.toNat with
  | none => .next s
  | some c =>
    match c.execs with
    | x :: _ => if !s.path.fenced ∧ x.id = id ∧ x.isFence ∧ x.finished.isNone then .next (s.finishExec q id stOk 0) else .next s
    | [] => .next s

/-! ### Completions and interrupts (R321, R322, R333) -/

/-- The interrupt of a queue, which clears its pending count. -/
def State.queueInterrupt (s : State) (q : BitVec 20) (c : QueueCtx) : State :=
  ((s.setCtx q.toNat (some { c with pendingInts := 0 })).raiseVector c.ld.val c.vector.toNat).countPoq c.ld.val 6

def completionEntry (x : Exec) (st : W16) (bytes : W32) (phase : Bool) : List Byte :=
  leBytes 2 x.d.tag ++ leBytes 2 st ++ leBytes 4 bytes ++ zeros 4 ++ leNat 4 (if phase then 1 else 0)

/-- The entry of a finished descriptor in ring order. -/
def State.writeCompletion (s : State) (q : BitVec 20) (c : QueueCtx) (x : Exec) (st : W16) (bytes : W32) : State :=
  let t := (c.cqTail + 1) % 2 ^ c.log2
  let s := s.emit (.dma c.ld.val c.pasid (c.cqBase.toNat + 16 * c.cqTail) (completionEntry x st bytes c.cqPhase))
  let s := (if st = stOk then s else s.countPoq c.ld.val 1).countPoq c.ld.val 0
  let c := { c with cqTail := t, cqPhase := if t = 0 then !c.cqPhase else c.cqPhase, opened := c.opened - 1, done := c.done + 1
                    pendingInts := if c.vector = 0xFFFF then 0 else c.pendingInts + 1 }
  let s := s.setCtx q.toNat (some c)
  if c.vector = 0xFFFF then s
  else if st ≠ stOk ∨ x.d.flags.getLsbD 0 ∨ c.coalTime = 0 ∨ c.pendingInts ≥ c.coalCount then s.queueInterrupt q c
  else s

/-- POQ_COMPLETION: an ERROR queue writes no entry. -/
def execPoqCompletion (q : BitVec 20) (id : W16) (dmaOk : Bool) (s : State) : Out :=
  match s.ctx q.toNat with
  | none => .next s
  | some c =>
    match c.execs.find? fun x => decide (x.id = id) with
    | none => .next s
    | some x =>
      match x.finished with
      | none => .next s
      | some (st, bytes) =>
        if s.path.fenced then .next s
        else
          let s := s.useCtx q c.ld.val true
          let c := { c with execs := c.execs.filter fun y => decide (y.id ≠ id) }
          if c.failed then .next (s.setCtx q.toNat (some c)).slots
          else if !dmaOk then .next (s.ringFault q c).slots
          else .next (s.writeCompletion q c x st bytes).slots

/-- COALESCE_TIMER: COAL_TIME_US after the first pending entry. -/
def execCoalesceTimer (q : BitVec 20) (s : State) : Out :=
  match s.ctx q.toNat with
  | some c => if c.pendingInts > 0 ∧ !s.path.fenced then .next (s.queueInterrupt q c) else .next s
  | none => .next s

/-- A context becomes FREE. -/
def State.freeCtx (s : State) (q : BitVec 20) (ld : Nat) : State :=
  (s.setCtx q.toNat none).updPoqLd ld fun x => { x with queues := x.queues - 1 }

/-- QUEUE_DRAINED (R316). -/
def execQueueDrained (q : BitVec 20) (s : State) : Out :=
  match s.ctx q.toNat with
  | some c =>
    if c.state = .draining ∧ c.execs = [] ∧ !s.path.fenced then
      let s := s.freeCtx q c.ld.val
      match c.destroyer with
      | some m => .next (s.reply m 0xC041 stOk [])
      | none => .next s
    else .next s
  | none => .next s

/-! ### Administration (R315, R316, R318, R334; 14 R362) -/

def vectorOk (v : W16) : Bool := decide (v = 0xFFFF) || (decide (16 ≤ v.toNat) && decide (v.toNat ≤ 2047))
def coalesceOk (vector count time : W16) : Bool :=
  vectorOk vector && decide (1 ≤ count.toNat) && decide (count.toNat ≤ 256) && decide (time.toNat ≤ 1000)

/-- LD of the sender of a queue command. -/
def roleLd : Role → Nat
  | .ld n => n.val
  | _ => 0

/-- The index of a new queue is the device's choice among the FREE ones, given by the command's operand where that context is FREE
(DESIGN CHOICE, log 73). -/
def State.newIndex (s : State) (index : BitVec 20) : Option (BitVec 20) :=
  if (s.ctx index.toNat).isNone then some index
  else ((List.range (s.poq.ctxs.length + 1)).find? fun i => decide (i < 2 ^ 20) && (s.ctx i).isNone).map (BitVec.ofNat 20)

def execCreateQueue (m : Msg) (sqBase : W64) (cqBase : W64) (pasid : W32) (log2 : Byte) (vector : W16) (coalCount : W16)
    (coalTime : W16) (index : BitVec 20) (s : State) : Out :=
  s.slafin { op := 0xC040, roles := rLd, sess := false, l0 := false, secure := false, inLen := 28, body := 4 } m fun s =>
    let ld := roleLd (s.role m)
    let l := s.poqLd ld
    if log2.toNat < 4 ∨ log2.toNat > 16 ∨ !coalesceOk vector coalCount coalTime ∨ sqBase.toNat % 4096 ≠ 0 ∨ cqBase.toNat % 4096 ≠ 0 then
      .done stInvalidRange [] s
    else if l.queues ≥ l.quota then .done stNoResource [] s
    else match s.newIndex index with
      | none => .done stNoResource [] s
      | some q =>
        let s := (s.useCtx q ld true).setCtx q.toNat (some
          { sqBase, cqBase, pasid := if pasid.getLsbD 31 then some (pasid.extractLsb' 0 20) else none, ld := Fin.ofNat 32 ld
            log2 := log2.toNat, state := .active, sqTail := 0, sqFetch := 0, cqTail := 0, cqPhase := true, vector
            coalCount := coalCount.toNat, coalTime := coalTime.toNat, done := 0, opened := 0, pendingInts := 0, execs := [], nextId := 0
            failed := false, destroyer := none })
        .done stOk (leNat 4 q.toNat) (s.updPoqLd ld fun x => { x with queues := x.queues + 1 })

/-- The queue that a command names, of the sender's LD. -/
def State.ownQueue (s : State) (m : Msg) (q : W32) : Except W16 QueueCtx :=
  if q.toNat ≥ 2 ^ 20 then .error stInvalidRange
  else match s.ctx q.toNat with
    | none => .error stInvalidRange
    | some c => if c.ld.val = roleLd (s.role m) then .ok c else .error stNotOwner

/-- A queue that drains already is BUSY to another destroy (DEDUCED, log 74). -/
def execDestroyQueue (m : Msg) (q : W32) (s : State) : Out :=
  s.slafin { op := 0xC041, roles := rLd, sess := false, l0 := false, secure := false, inLen := 4, body := 0 } m fun s =>
    match s.ownQueue m q with
    | .error st => .done st [] s
    | .ok c =>
      if c.state = .draining then .done stBusy [] s
      else .later ((s.useCtx (BitVec.ofNat 20 q.toNat) c.ld.val true).setCtx q.toNat (some { c with state := .draining, destroyer := some m }))

def execSetCoalesce (m : Msg) (q : W32) (vector : W16) (coalCount : W16) (coalTime : W16) (s : State) : Out :=
  s.slafin { op := 0xC042, roles := rLd, sess := false, l0 := false, secure := false, inLen := 10, body := 0 } m fun s =>
    match s.ownQueue m q with
    | .error st => .done st [] s
    | .ok c =>
      if !coalesceOk vector coalCount coalTime then .done stInvalidRange [] s
      else
        let c := { c with vector, coalCount := coalCount.toNat, coalTime := coalTime.toNat }
        let s := (s.useCtx (BitVec.ofNat 20 q.toNat) c.ld.val true).setCtx q.toNat (some c)
        -- what already pends meets the new limits (R333)
        let due := vector ≠ 0xFFFF ∧ c.pendingInts > 0 ∧ (c.coalTime = 0 ∨ c.pendingInts ≥ c.coalCount)
        .done stOk [] (if due then s.queueInterrupt (BitVec.ofNat 20 q.toNat) c else s)

def execBindDoorbell (m : Msg) (page : Byte) (mode : Byte) (pasid : W32) (s : State) : Out :=
  s.slafin { op := 0xC043, roles := rLd, sess := false, l0 := false, secure := false, inLen := 8, body := 0 } m fun s =>
    if page.toNat > 63 ∨ mode.toNat > 3 then .done stInvalidRange [] s
    else .done stOk [] (s.updPoqLd (roleLd (s.role m)) fun x =>
      { x with binds := Tab.set (fun _ => (0, 0)) page.toNat
                 (Fin.ofNat 4 mode.toNat, if mode.toNat = 1 then pasid.extractLsb' 0 20 else 0) x.binds })

/-- The sum of all quotas stays within the contexts (R315). -/
def execSetPoqShare (m : Msg) (ld : Byte) (weight : Byte) (quota : W32) (s : State) : Out :=
  s.slafin { op := 0xC044, roles := rFm, sess := false, l0 := false, secure := false, inLen := 8, body := 0 } m fun s =>
    let n := ld.toNat
    if !s.hasLd n ∨ weight = 0 ∨ quota.toNat > 2 ^ 20 then .done stInvalidRange [] s
    else
      let others := (((List.range s.nLds).filter (· ≠ n)).map fun k => (s.poqLd k).quota).sum
      if others + quota.toNat > 2 ^ 20 then .done stNoResource [] s
      else .done stOk [] (s.updPoqLd n fun x => { x with weight := weight.toNat, quota := quota.toNat }).slots

end Sys2Proof.Machine
end

