-- ==== Sys2Proof/Machine/Eyelet.lean ====
section
/-! DEFINITION. Eyelet channels (14 R347 to R351), the event ring's registers (R352, R363), management locks (R355 to R358), versions
(R359), the owner key (R338), and commands of undefined opcodes (R341, R343). -/

namespace Sys2Proof.Machine

/-! ### Eyelet channels -/

/-- The host reaches LD n through BAR0: the LD exists and is bound. -/
def State.reach (s : State) (n : Nat) : Bool := s.hasLd n && (s.fn n).bound

/-- EYELET_NOTICE: taken with its stamp, or dropped when the channel is full or disabled. -/
def State.postEyelet (s : State) (ld : Fin 32) (ch : Fin 16) (value : W64) (pasid : Option (BitVec 20)) : State :=
  let k := eyeKey ld ch
  let e := s.eye k
  if e.notice.isSome ∨ !e.enable then
    raise { Ev.of 128 with ld := some ld, detail := [ch.val] } ((s.updEye k fun e => { e with overrun := true }).countEye ld.val 1)
  else s.updEye k fun e => { e with notice := some (value &&& ~~~0x3F, pasid) }

def execEyeletNotice (ld : Fin 32) (ch : Fin 16) (value : W64) (pasid : Option (BitVec 20)) (s : State) : Out :=
  if s.reach ld.val then .next (s.postEyelet ld ch value pasid) else .next s

/-- EYELET_DEQUEUE: fewer than 8 commands of the channel are in execution. -/
def execEyeletDequeue (ld : Fin 32) (ch : Fin 16) (s : State) : Out :=
  let e := s.eye (eyeKey ld ch)
  match e.notice with
  | none => .next s
  | some n =>
    if !s.hasLd ld.val ∨ e.running.length + e.reading.length ≥ 8 then .next s
    else
      let s := s.updEye (eyeKey ld ch) fun e => { e with notice := none, reading := e.reading ++ [n] }
      .next (s.raiseVector ld.val e.taken.toNat)

/-- IN_LEN and OUT_LEN within their ranges (R350). -/
def blockOk (b : CmdBlock) : Bool := decide (b.inLen.toNat ≤ 1048576) && decide (4 ≤ b.outLen.toNat) && decide (b.outLen.toNat ≤ 1048576)

/-- COMMAND_BLOCK_READ: the oldest block on its way comes back and its command is in execution, or ends with INVALID_LENGTH; a failed
read drops it. Firmware takes it while the normal world runs (15 R366). -/
def execCommandBlockRead (ld : Fin 32) (ch : Fin 16) (b : Option CmdBlock) (s : State) : Out :=
  let k := eyeKey ld ch
  match (s.eye k).reading with
  | [] => .next s
  | (addr, pasid) :: rest =>
    if s.world.normal ≠ .up then .next s
    else
      let s := s.updEye k fun e => { e with reading := rest }
      match b with
      | none => .next (raise { Ev.of 129 with ld := some ld, detail := [ch.val] } (s.countEye ld.val 2))
      | some b =>
        let s := s.updEye k fun e => { e with running := e.running ++ [(b, addr, pasid)] }
        if blockOk b then .next s
        else
          let n := if b.outLen.toNat < 4 then 0 else 4
          let word := leNat 2 stInvalidLength.toNat ++ zeros 2
          .next (s.eyeletDone ld ch b addr pasid stInvalidLength.toNat n (word.take n))

/-- A vector field of a register: values that name no vector it may hold leave it unchanged. -/
def newVector (old : W16) (v : W16) : W16 := if vectorOk v then v else old

def State.writeEyeConfig (s : State) (k : Nat) (value : W64) : State :=
  s.updEye k fun e =>
    { e with taken := newVector e.taken (value.extractLsb' 0 16), done := newVector e.done (value.extractLsb' 16 16)
             enable := value.getLsbD 32 }

/-- EYELET_CONFIG_WRITE. -/
def execEyeletConfigWrite (ld : Fin 32) (ch : Fin 16) (value : W64) (s : State) : Out :=
  if s.reach ld.val then .next (s.writeEyeConfig (eyeKey ld ch) value) else .next s

/-- A write of EVENT_RING; LOG2 outside 4 to 12 leaves the field unchanged (DEDUCED, log 75). -/
def State.writeEventRing (s : State) (ld : Nat) (value : W64) : State :=
  let k := fld value 0 4
  let en := value.getLsbD 4
  s.updCmdLd ld fun c =>
    let rise := en && !c.ringEnable
    { c with ringLog2 := if 4 ≤ k ∧ k ≤ 12 then k else c.ringLog2, ringEnable := en, ringBase := value &&& ~~~0xFFF
             head := if rise then 0 else c.head, tail := if rise then 0 else c.tail, phase := rise || c.phase }

/-- EVENT_RING_ENABLE. -/
def execEventRingEnable (ld : Fin 32) (value : W64) (s : State) : Out :=
  if s.reach ld.val then .next (s.writeEventRing ld.val value) else .next s

/-! ### Management locks (R355 to R357) -/

/-- The position of a party among the 34. -/
def partyPos : Party → Fin 34
  | .ld n => ⟨n.val, by omega⟩
  | .bmc => 32
  | .fm _ => 33

/-- The function through whose BAR0 a party reads; the BMC has none. -/
def partyFn : Party → Option Nat
  | .ld n => some n.val
  | .bmc => none
  | .fm h => some (32 + h.val)

def State.partyHere (s : State) : Party → Bool
  | .ld n => s.hasLd n.val
  | .bmc => true
  | .fm h => s.hasHead h.val

/-- LOCKn as a party reads it. -/
def lockValue (l : Lock) (now : Nat) (granted : Bool) : W64 :=
  match l.holder with
  | none => put 8 8 0xFF
  | some h => putB 0 granted ||| put 1 1 1 ||| put 8 8 h.val ||| put 32 32 ((l.leaseEnd - now) / Config.nsMs)

/-- The first party at or after the pointer, and the pointer after it. Only a tie moves the pointer (DEDUCED, log 76). -/
def lockWinner (ptr : Fin 34) (ps : List (Fin 34)) : Option (Fin 34) :=
  ((List.range 34).map fun i => (Fin.ofNat 34 (ptr.val + i))).find? fun p => ps.contains p

/-- Grants a lock to a party, or renews its lease; `via` is the head of a fabric manager's read. -/
def State.grantLock (s : State) (k : Nat) (p : Fin 34) (via : Option (Fin 4)) : State :=
  s.updLock k fun l => { l with holder := some p, leaseEnd := s.time + 1000 * Config.nsMs, fmVia := via.orElse fun _ => l.fmVia }

/-- The reads of LOCKn of one hub cycle: at most one grant or renewal. -/
def State.readLock (s : State) (k : Nat) (readers : List Party) : State :=
  let ps := readers.map partyPos
  let via := (readers.filterMap fun r => match r with | .fm h => some h | _ => none).getLast?
  let viaOf (p : Fin 34) : Option (Fin 4) := if p = 33 then via else none
  match (s.lock k).holder with
  | some h => if ps.contains h then s.grantLock k h (viaOf h) else s
  | none =>
    match lockWinner s.cmd.lockPtr ps with
    | none => s
    | some w =>
      let s := if ps.all (· = w) then s else s.mapCmd fun c => { c with lockPtr := w + 1 }
      s.grantLock k w (viaOf w)

/-- LOCK_REGISTER_READ. -/
def execLockRegisterRead (lock : Fin 8) (readers : List Party) (s : State) : Out :=
  let readers := readers.filter s.partyHere
  let s := s.readLock lock.val readers
  let l := s.lock lock.val
  .next (readers.foldl (fun s r => match partyFn r with
    | some fn => s.emit (.mmio fn (0x1200000 + 16 * lock.val) (lockValue l s.time (decide (l.holder = some (partyPos r)))).toNat)
    | none => s) s)

def State.releaseLock (s : State) (k : Nat) (p : Fin 34) : State := if (s.lock k).holder = some p then s.freeLock k else s

/-- LOCK_RELEASE_WRITE. -/
def execLockReleaseWrite (lock : Fin 8) (p : Party) (value : W64) (s : State) : Out :=
  if value.getLsbD 0 ∧ s.partyHere p then .next (s.releaseLock lock.val (partyPos p)) else .next s

/-- LOCK_LEASE_EXPIRY. -/
def execLockLeaseExpiry (lock : Fin 8) (s : State) : Out := .next (s.freeLock lock.val)

/-- LOCK. -/
def execLockCommand (m : Msg) (lock : Byte) (op : Byte) (s : State) : Out :=
  s.slafin { op := 0xC004, roles := rBmc, sess := false, l0 := false, secure := false, inLen := 2, body := 8 } m fun s =>
    if lock.toNat > 7 ∨ op.toNat > 1 then .done stInvalidRange [] s
    else
      let s := if op = 0 then s.readLock lock.toNat [.bmc] else s.releaseLock lock.toNat 32
      let l := s.lock lock.toNat
      .done stOk (leBytes 8 (lockValue l s.time (decide (l.holder = some 32)))) s

/-! ### Capabilities (R359, R362) and the owner key (R338) -/

/-- GET_SLAFIN_INFO. -/
def execGetSlafinInfo (m : Msg) (s : State) : Out :=
  s.slafin { op := 0xC000, roles := rAll, sess := false, l0 := false, secure := false, inLen := 0, body := 10 } m fun s =>
    .done stOk (leNat 2 1 ++ leNat 2 1 ++ leNat 1 (if s.ev8820 then 1 else 0) ++ zeros 3 ++ leNat 2 0x1FFF) s

/-- SET_SLAFIN_VERSION: version 1 is the only one. -/
def execSetSlafinVersion (m : Msg) (version : W16) (s : State) : Out :=
  s.slafin { op := 0xC001, roles := rAll, sess := false, l0 := false, secure := false, inLen := 2, body := 2 } m fun s =>
    if version ≠ 1 then .done stUnsupportedVersion [] s
    else
      let s := match s.role m with
        | .ld n => s.updCmdLd n.val fun c => { c with version := 1 }
        | .bmc => s.mapCmd fun c => { c with bmcVersion := 1 }
        | _ => s
      .done stOk (leNat 2 1) s

/-- Who may install or remove the owner: the BMC while there is none, else the owner. -/
def State.mayOwn (s : State) : Role → Bool
  | .own => true
  | .bmc => s.cmd.owner.isNone
  | _ => false

/-- SET_OWNER_KEY. -/
def execSetOwnerKey (m : Msg) (hash : BitVec 384) (s : State) : Out :=
  s.slafin { op := 0xC002, roles := s.mayOwn, sess := false, l0 := false, secure := true, inLen := 48, body := 0 } m fun s =>
    .done stOk [] (s.mapCmd fun c => { c with owner := if hash = 0 then none else some hash })

/-! ### Opcodes without a command -/

/-- Opcodes that the command tables define. -/
def slafinDefined : List Nat :=
  [0xC000, 0xC001, 0xC002, 0xC003, 0xC004, 0xC010, 0xC011, 0xC012, 0xC013, 0xC020, 0xC021, 0xC030, 0xC031, 0xC032, 0xC033, 0xC034,
   0xC040, 0xC041, 0xC042, 0xC043, 0xC044, 0xC050, 0xC051, 0xC060, 0xC061, 0xC062, 0xC063, 0xC064, 0xC070, 0xC071, 0xC080, 0xC081,
   0xC082, 0xC083, 0xC084, 0xC085, 0xC090, 0xC091, 0xC092, 0xC093, 0xC094, 0xC095, 0xC0A0, 0xC0A1, 0xC0B0, 0xC0B1, 0xC0B2, 0xC0C0,
   0xC0C1]

def slafinRange (op : Nat) : Bool := decide (0xC000 ≤ op) && decide (op ≤ 0xC0CF)

/-- SLAFIN_UNDEFINED_OPCODE. -/
def execSlafinUndefinedOpcode (m : Msg) (opcode : W16) (s : State) : Out :=
  let op := opcode.toNat
  if !s.arrives m op ∨ !slafinRange op ∨ slafinDefined.contains op then .next s
  else .next (s.reply m op stInvalidOpcode [])

/-- UNSUPPORTED_COMMAND: a standard opcode that is not supported, or a vendor opcode outside the Slafin range. -/
def execUnsupportedCommand (m : Msg) (opcode : W16) (s : State) : Out :=
  let op := opcode.toNat
  if !s.arrives m op ∨ slafinRange op ∨ stdOpcodes.contains op then .next s else .next (s.respStd m op rcUnsupported [])

end Sys2Proof.Machine
end

