-- ==== Sys2Proof/Machine/Regs.lean ====
section
/-! DEFINITION. The registers of the Palfa capability list as reads return them (12 R306; each owning chapter), READ_REGISTERS, and
writes to registers under their access codes (00 R7, 12 R305). -/

namespace Sys2Proof.Machine

/-! ### Fields -/

def putN (lo len n : Nat) : W64 := put lo len n

def countAt (t : Tab W64) (n : Nat) : W64 := Tab.get (fun _ => 0) t n

/-- Register n of an array of eight-byte registers that begins at an offset. -/
def inArray (off base n : Nat) : Option Nat := if base ≤ off ∧ off < base + 8 * n ∧ (off - base) % 8 = 0 then some ((off - base) / 8) else none

/-! ### Tiering, ID 1 (03) -/

def TierPolicy.word (p : TierPolicy) : W64 :=
  put 0 3 p.sampleShift ||| put 8 8 p.promoteThreshold ||| put 16 16 p.decayMs ||| put 32 8 p.demoteMaxHeat ||| put 40 6 p.demoteMinGain
def TierWatermark.word (w : TierWatermark) : W64 :=
  put 0 10 w.freeHigh ||| put 10 10 w.freeLow ||| put 20 10 w.pressure ||| put 30 10 w.reserve ||| put 40 10 w.pinLimit
def TierRate.word (r : TierRate) : W64 := put 0 16 r.sweepBw ||| put 16 16 r.releaseRetryMs

/-- TIER_STATUS; without a pool no threshold is met (DEDUCED from its reset value, log 77). -/
def State.tierStatus (s : State) : W64 :=
  let f := s.tier.freeFrames
  let pool := decide (s.tier.poolFrames > 0)
  putB 0 (pool && decide (f ≤ s.lowFrames)) ||| putB 1 (pool && decide (f ≤ s.pressureFrames)) ||| putB 2 (pool && decide (f ≤ s.reserveFrames))
    ||| putB 3 s.tier.exhausted ||| putB 4 s.tier.releasePending ||| put 16 16 (sat 16 s.tier.effectiveDecay) ||| put 32 32 s.tier.pinnedPages

def State.tierReg (s : State) (off : Nat) : W64 :=
  match off with
  | 0x10 => s.tier.policy.word
  | 0x18 => s.tier.watermark.word
  | 0x20 => s.tier.rate.word
  | 0x28 => put 0 32 s.tier.freeFrames ||| put 32 32 s.tier.poolFrames
  | 0x30 => s.tierStatus
  | 0x78 => put 0 32 s.last.hostPages
  | _ => match inArray off 0x38 8 with | some n => countAt s.tier.counts n | none => 0

/-! ### Codec, ID 2 (04) -/

def State.codecReg (s : State) (off : Nat) : W64 :=
  match off with
  | 0x10 => put 0 4 1 ||| put 8 8 8 ||| put 16 8 16 ||| put 24 8 2 ||| put 32 4 9
  | 0x18 => put 0 26 s.codec.fenced.toNat
  | 0x20 => put 0 9 s.codec.repair.length
  | _ => match inArray off 0x28 8 with | some n => countAt s.codec.counts n | none => 0

/-! ### Welt, channels and Lace, ID 3 (06, 07, 08) -/

/-- PROGRESS: groups processed in the current step, which are the metadata, the parity and the data steps of a rebuild (06 R153) and the groups of a
rejoin. -/
def State.unitProgress (s : State) (u : UnitSlot) : Nat :=
  if u.state = 5 ∨ u.progress < s.metaCount then u.progress
  else if u.progress < s.rebuildPrelude then u.progress - s.metaCount else u.progress - s.rebuildPrelude

def UnitSlot.word (u : UnitSlot) (progress : Nat) : W64 :=
  put 0 1 1 ||| put 1 4 u.channel.val ||| putB 5 (!u.wholeChannel) ||| put 6 3 u.ranksel.toNat ||| put 9 2 u.cause.val ||| put 11 3 u.state.val
    ||| put 32 32 progress

def WeltPolicy.word (p : WeltPolicy) : W64 :=
  put 0 5 p.scrubDays ||| put 5 7 p.sparePermille ||| put 12 7 p.quietPct ||| put 32 16 p.rebuildBw ||| put 48 16 p.ecsLimit

def State.weltReg (s : State) (off : Nat) : W64 :=
  let used := s.usedSpares.length
  let spares := s.welt.spareFrames - s.retiredSpares
  match off with
  | 0x10 => put 0 4 s.w ||| put 4 8 24 ||| put 12 4 4 ||| put 16 16 16384 ||| put 32 8 8
  | 0x18 => s.welt.policy.word
  | 0x20 => put 0 3 (((List.range 4).filter fun n => (s.unit n).isSome).length)
      ||| putB 3 (decide (spares > 0) && decide (used ≥ spares))
      ||| putB 4 (decide (10 * s.welt.exceptions.length ≥ 9 * Config.exceptionMax)) ||| put 32 32 s.doubledGroups.length
  | 0x48 => put 0 32 spares ||| put 32 32 used
  | _ => match inArray off 0x28 4, inArray off 0x50 8 with
    | some n, _ => (match s.unit n with | some u => u.word (s.unitProgress u) | none => 0)
    | _, some n => countAt s.welt.counts n
    | _, _ => 0

def DdrControl.word (c : DdrControl) : W64 :=
  putB 0 c.fgr ||| putB 1 c.sameBank ||| putB 2 c.relocateEn ||| put 8 8 c.relocateAfter ||| put 16 16 c.actWarn ||| put 32 16 c.actMitigate
    ||| put 48 16 c.rateCap

/-- DDR_CHc registers. -/
def State.chanReg (s : State) (c off : Nat) : W64 :=
  let x := s.chan c
  if !s.hasChannel c then 0
  else match off with
    | 0x00 =>
      let ds := (List.range 2).filterMap fun i => Tab.get (fun _ => none) x.dimms i
      let shape := match ds with
        | d :: _ => putB 2 d.threeDS ||| putB 3 d.x8 ||| put 4 2 d.density.val ||| putB 6 d.ranks2 ||| put 7 2 d.height.val
        | [] => 0
      put 0 2 ds.length ||| shape ||| put 16 16 x.rate ||| put 32 32 x.frames
    | 0x08 => x.control.word
    | 0x10 =>
      let age := match x.record with | some r => s.power.hours.toNat - r.hours.toNat | none => 0
      put 0 3 x.state.val ||| putB 3 x.cached ||| putB 4 x.pwrEn ||| putB 5 x.present ||| putB 6 x.hotRefresh ||| putB 7 x.rfm
        ||| put 8 4 ((x.owed.map (·.2)).foldl max 0) ||| put 16 8 x.temp.toNat ||| put 32 32 age
    | _ => match inArray off 0x18 5 with | some n => countAt x.counts n | none => 0

/-- LACE_Mm registers, the hub's end. -/
def State.laceReg (s : State) (m off : Nat) : W64 :=
  let x := s.laceMod m
  if !s.hasModule m then 0
  else match off with
    | 0x00 => put 0 3 x.state.val ||| putB 3 x.carryAll ||| put 4 2 x.rate.val ||| putB 6 x.half ||| put 8 4 x.version ||| put 16 8 x.lanesRepaired
        ||| put 24 5 x.returnAttempts
    | 0x08 => put 0 10 x.hub.uReq ||| put 10 10 x.hub.uRsp ||| put 20 10 (sat 10 x.hub.leak) ||| put 32 10 x.hub.peerReq ||| put 42 10 x.hub.peerRsp
    | _ => match inArray off 0x10 6 with | some n => countAt x.counts n | none => 0

def State.entry3Reg (s : State) (off : Nat) : W64 :=
  if off < 0x100 then s.weltReg off
  else if off < 0x400 then s.chanReg ((off - 0x100) / 0x40) (off % 0x40)
  else if off < 0x500 then s.laceReg ((off - 0x400) / 0x40) (off % 0x40)
  else 0

/-! ### Shadow and restore, ID 4 (09, 10) -/

def ShadowPolicy.word (p : ShadowPolicy) : W64 :=
  put 0 14 p.epochMs ||| put 14 4 p.gpfTimeoutMs ||| put 18 7 p.softPct ||| put 32 8 p.lapHours ||| put 48 16 p.rebuildBw

def State.driveReg (s : State) (n : Nat) : W64 :=
  let d := s.drive n
  if !s.hasDrive n then 0
  else put 0 3 d.state.val ||| putB 3 d.x8 ||| put 4 4 d.speed.val ||| put 8 8 d.position ||| put 16 16 (sat 16 d.rate) ||| put 32 32 (d.rebuilt / 262144)

/-- EXTENTS_PENDING: restored extents that an LD has not accepted, the declined ones among them. -/
def State.extentsPending (s : State) : Nat :=
  ((s.cmd.offers ++ s.cmd.declined).map fun o => (o.2.devDpn, o.2.pages, o.2.tag)).eraseDups.length

def State.shadowReg (s : State) (off : Nat) : W64 :=
  let k := s.shank
  let r := s.resume
  match off with
  | 0x10 => k.policy.word
  | 0x18 => put 0 16 k.window ||| put 16 16 (softOf k.window k.policy.softPct) ||| put 32 32 k.rFlush
  | 0x20 => put 0 48 s.dirtyBytes
  | 0x28 => put 0 16 k.capMf ||| put 16 16 k.vbankMv ||| put 32 16 (sat 16 (k.eUsableMj / 1000)) ||| putB 48 k.probed ||| putB 49 k.probeFail
  | 0x30 => put 0 3 s.shadowState ||| putB 3 s.softHit ||| putB 4 s.holding ||| putB 5 k.short ||| putB 6 k.logLow ||| put 16 48 k.lastClosed
  | 0x98 => put 0 6 r.restorePct ||| put 8 8 r.upspeedDelayS
  | 0xA0 => put 0 2 r.level.val ||| put 2 3 r.image.val ||| putB 5 r.incomplete ||| putB 6 r.degraded ||| putB 7 r.noHeat ||| putB 8 r.initDone
      ||| putB 9 r.truncated ||| put 16 16 (sat 16 s.extentsPending)
  | 0xA8 => put 0 32 (sat 32 r.pagesDone) ||| put 32 32 (sat 32 r.pagesTotal)
  | 0xB0 => put 0 32 (sat 32 r.lostPages) ||| put 32 32 (sat 32 r.revertedPages)
  | _ => match inArray off 0x38 4, inArray off 0x58 8 with
    | some n, _ => s.driveReg n
    | _, some n => countAt k.counts n
    | _, _ => 0

/-! ### POQ, ID 5 (13), and Eyelet, ID 6 (14), of one LD -/

def State.poqReg (s : State) (ld off : Nat) : W64 :=
  let x := s.poqLd ld
  match off with
  | 0x10 => put 0 21 1048576 ||| put 32 14 8192 ||| put 46 9 256 ||| put 55 5 16 ||| put 60 4 1
  | 0x18 => put 0 21 x.quota ||| put 21 21 x.queues ||| put 42 8 x.weight
  | _ => match inArray off 0x20 64, inArray off 0x220 8 with
    | some n, _ => let b := s.bindOf ld n; put 0 20 b.2.toNat ||| put 20 2 b.1.val
    | _, some n => countAt x.counts n
    | _, _ => 0

def CmdLd.ringWord (c : CmdLd) : W64 := put 0 4 c.ringLog2 ||| putB 4 c.ringEnable ||| (c.ringBase &&& ~~~0xFFF)
def CmdLd.ctrlWord (c : CmdLd) : W64 := put 0 16 c.vector.toNat ||| put 16 16 c.head ||| put 32 16 c.tail ||| putB 48 c.overflow

def State.eyeletReg (s : State) (ld off : Nat) : W64 :=
  let c := s.cmdLd ld
  match off with
  | 0x10 => put 0 8 16 ||| put 8 4 8 ||| put 16 16 1
  | 0x18 => c.ringWord
  | 0x20 => c.ctrlWord
  | _ => match inArray off 0x28 4 with | some n => countAt c.eyeCounts n | none => 0

/-! ### Regulation, ID 7 (11) -/

/-- EFF_PRIORITY of a master: that of a request which is not in class 1. -/
def State.masterPriority (s : State) (n : Nat) : Nat :=
  let m := s.master n
  if (m.overBudget ∨ m.held) ∧ n ≠ mSave then 0 else m.priority.val

/-- Through an LD, the registers of other LDs read as zero. -/
def State.regulReg (s : State) (ld off : Nat) : W64 :=
  let r := s.reg
  match off with
  | 0x10 => put 0 7 r.optimalPct ||| put 7 7 r.moderatePct ||| put 14 8 r.ageUs
  | 0x18 => put 0 16 (sat 16 (r.usable / quarterGb)) ||| put 16 16 (sat 16 (ceilDiv (s.sumWith []) 4)) ||| put 32 11 r.scale
  | _ => match inArray off 0x20 6 with
    | some n => countAt r.counts n
    | none =>
      let n := (off - 0x80) / 0x20
      let m := s.master n
      if off < 0x80 ∨ n ≥ 39 ∨ (n < 32 ∧ n ≠ ld) ∨ (n < 32 ∧ !s.hasLd n) then 0
      else match (off - 0x80) % 0x20 with
        | 0x00 => m.settings
        | 0x08 => put 0 12 (s.effMinRead n) ||| put 12 12 (s.effMinWrite n) ||| put 24 3 (s.masterPriority n) ||| putB 27 m.overLast ||| putB 28 m.held
            ||| put 32 12 m.inflight
        | 0x10 => BitVec.ofNat 64 (m.charge / 64)
        | _ => 0

/-! ### Awl and Insole, IDs 8 and 9 (16) -/

def State.awlReg (s : State) (off : Nat) : W64 :=
  if off = 0x10 then
    (List.range 16).foldl (fun w i => if (s.inj i).isSome then w ||| put i 1 1 else w)
      (put 32 16 s.fault.awlApplied.toNat ||| put 48 16 s.fault.awlSkipped.toNat)
  else 0

def FaultSt.exportWord (f : FaultSt) : W64 := put 0 4 f.expLog2 ||| putB 4 f.expEnable ||| (f.expBase &&& ~~~0xFFF)
def FaultSt.exportCtrl (f : FaultSt) : W64 :=
  put 0 16 f.expHead.toNat ||| put 16 16 f.expTail.toNat ||| put 32 16 (sat 16 f.expDropped) ||| put 48 16 (sat 16 f.dumpsLost)

def State.insoleReg (s : State) (off : Nat) : W64 :=
  let f := s.fault
  match off with
  | 0x10 => putB 0 f.frozen ||| put 1 3 s.aliveStatus ||| put 32 32 f.nextSeq.toNat
  | 0x18 => match f.first with
    | some x => put 0 1 1 ||| putB 1 x.sameCycle ||| put 2 2 x.cls.code ||| put 16 16 x.source ||| put 32 32 x.seq.toNat
    | none => 0
  | 0x20 => f.exportWord
  | 0x28 => f.exportCtrl
  | _ => 0

/-! ### Ageing, ID 10 (18), and compatibility, ID 11 (14 R364) -/

/-- Bits of the units of a derate table. -/
def derateBits (t : Tab Nat) (n : Nat) : Nat := ((List.range n).filter fun i => Tab.get (fun _ => 0) t i ≠ 0).foldl (fun a i => a + 2 ^ i) 0

def State.ageReg (s : State) (off : Nat) : W64 :=
  let p := s.power
  match off with
  | 0x10 => put 0 11 p.vcoreMv ||| put 11 2 p.kind.val ||| putB 13 p.floorMiss ||| putB 14 p.hubDerated ||| put 16 16 (sat 16 p.slackPs)
      ||| put 32 32 p.hours.toNat
  | 0x18 => put 0 12 (derateBits p.derateCh 12) ||| put 12 4 (derateBits p.derateHead 4) ||| put 16 4 (derateBits p.derateLace 4)
      ||| put 20 4 (derateBits p.derateDrive 4)
  | 0x20 => put 0 2 p.state.val ||| putB 2 p.throttle ||| putB 3 p.xtalFallback ||| put 16 16 p.vcoreReadMv ||| put 32 16 p.icore
      ||| put 48 8 (BitVec.ofInt 8 p.tj).toNat
  | _ => 0

def State.compatReg (s : State) (off : Nat) : W64 :=
  if off = 0x10 then put 0 4 8 ||| put 8 4 (((List.range 8).filter fun n => (s.compat n).isSome).length)
  else match inArray off 0x18 8 with
    | some n => (match s.compat n with | some c => put 0 1 1 ||| (c.dpa &&& ~~~0x3F) | none => 0)
    | none => 0

/-! ### The capability list (12 R306) -/

/-- SIZE of an entry: to the end of its last register (DEDUCED, log 69). -/
def capSize (id : Nat) : Nat :=
  match id with
  | 1 => 0x80 | 2 => 0x68 | 3 => 0x500 | 4 => 0xB8 | 5 => 0x260 | 6 => 0x48 | 7 => 0x560 | 8 => 0x18 | 9 => 0x30 | 10 => 0x28 | 11 => 0x58
  | _ => 0

/-- The eight bytes at an offset of an entry, as LD `ld` reads them. -/
def State.capReg (s : State) (ld id off : Nat) : W64 :=
  match off with
  | 0x00 => put 0 8 id ||| put 8 8 1 ||| put 32 32 (if id = 11 then 0 else 0x1000000 + 0x1000 * id)
  | 0x08 => put 0 32 (capSize id)
  | _ => match id with
    | 1 => s.tierReg off
    | 2 => s.codecReg off
    | 3 => s.entry3Reg off
    | 4 => s.shadowReg off
    | 5 => s.poqReg ld off
    | 6 => s.eyeletReg ld off
    | 7 => s.regulReg ld off
    | 8 => s.awlReg off
    | 9 => s.insoleReg off
    | 10 => s.ageReg off
    | 11 => s.compatReg off
    | _ => 0

/-- READ_REGISTERS. -/
def execReadRegisters (m : Msg) (capId : Byte) (ld : Byte) (offset : W16) (length : W32) (s : State) : Out :=
  let o := offset.toNat
  let n := length.toNat
  s.slafin { op := 0xC003, roles := rBmcOwn, sess := false, l0 := false, secure := false, inLen := 8, body := if n ≤ 4096 then n else 0 } m fun s =>
    if capId = 0 ∨ capId.toNat > 11 ∨ !s.hasLd ld.toNat ∨ n < 8 ∨ n > 4096 ∨ o + n > 4096 then .done stInvalidRange [] s
    else if o % 8 ≠ 0 ∨ n % 8 ≠ 0 then .done stInvalidAlign [] s
    else .done stOk ((List.range (n / 8)).flatMap fun i => leBytes 8 (s.capReg ld.toNat capId.toNat (o + 8 * i))) s

/-! ### Writes -/

/-- What a register with writable fields holds, its RW1C bits as zero; the part of a word that a four-byte write leaves is taken from it. -/
def State.regOld (s : State) (fn off : Nat) : W64 :=
  let page := off / 0x1000
  if fn < 32 ∧ off = 0x1005018 then (s.cmdLd fn).ringWord
  else if fn < 32 ∧ off = 0x1005020 then (s.cmdLd fn).ctrlWord &&& ~~~(1#64 <<< 48)
  else if off = 0x1008020 then s.fault.exportWord
  else if off = 0x1008028 then s.fault.exportCtrl
  else if fn < 32 ∧ page = 0x1100 ∧ off % 0x100 = 0x10 then
    let e := s.eye (fn * 16 + off / 0x100 % 16)
    put 0 16 e.taken.toNat ||| put 16 16 e.done.toNat ||| putB 32 e.enable
  else if page = 0x61F then
    let f := s.perfFn fn
    let p := off / 0x20 % 2
    let p := 1 - p
    match off % 0x1000 with
    | 0x00 => putB 0 f.freeze
    | 0x08 => put 0 24 f.periodUs
    | 0x10 => put 0 4 f.ringLog2 ||| putB 4 f.ringEnable ||| (f.ringBase &&& ~~~0xFFF)
    | 0x18 => put 0 16 f.dumpHead
    | 0x20 | 0x40 => put 0 5 (Tab.get (fun _ => 10) f.sampRate p) ||| put 5 2 (Tab.get (fun _ => 0) f.sampDir p).val
        ||| putB 7 (decide ((s.sampler p).owner.map (·.val) = some fn))
    | 0x28 | 0x48 => put 0 4 (Tab.get (fun _ => 4) f.sampLog2 p) ||| (Tab.get (fun _ => 0) f.sampBase p &&& ~~~0xFFF)
    | 0x30 | 0x50 => put 0 16 (Tab.get (fun _ => 0) f.sampHead p)
    | _ => 0
  else if 0x600000 ≤ off ∧ off < 0x615000 ∧ off % 0x1000 = 0x18 then
    put 0 9 (Tab.get (fun _ => 0) (s.perfFn fn).unitFreeze ((off - 0x600000) / 0x1000)).toNat
  else if 0x1400000 ≤ off ∧ off < 0x1408000 then
    if off % 16 = 0 then Tab.get (fun _ => 0) (s.fn fn).regs off
    else (Tab.get (fun _ => 0) (s.fn fn).regs off &&& 0xFFFFFFFF) ||| putB 32 (Tab.get (fun _ => true) (s.fn fn).mask ((off - 0x1400000) / 16))
  else 0

/-- Registers that take only 64-bit accesses (13 R317, 14 R347). -/
def only64 (off : Nat) : Bool :=
  (decide (0x1100000 ≤ off) && decide (off < 0x1101000) && decide (off % 0x100 < 8))
    || (decide (0x1300000 ≤ off) && decide (off < 0x1340000) && decide (off % 0x1000 < 8))

/-- Writes of the control page (17 R418). SAMPLE_RING changes only while ENABLE reads 0. -/
def State.writeControlPage (s : State) (fn off : Nat) (v : W64) : State :=
  let p := 1 - off / 0x20 % 2
  let here := decide (State.fnPort fn = p) || s.hasHead (2 * p)
  match off with
  | 0x00 => s.setFreeze fn (v.getLsbD 0)
  | 0x08 => if fld v 0 24 ≤ 10000000 then s.updPerfFn fn fun f => { f with periodUs := fld v 0 24 } else s
  | 0x10 => s.writeDumpRing fn v
  | 0x18 => s.updPerfFn fn fun f => { f with dumpHead := fld v 0 16 }
  | 0x20 | 0x40 => if here then s.writeSampleCfg fn p v else s
  | 0x28 | 0x48 =>
    if !here ∨ (s.sampler p).owner.map (·.val) = some fn then s
    else s.updPerfFn fn fun f =>
      { f with sampLog2 := if fld v 0 4 ≥ 4 then Tab.set (fun _ => 4) p (fld v 0 4) f.sampLog2 else f.sampLog2
               sampBase := Tab.set (fun _ => 0) p (v &&& ~~~0xFFF) f.sampBase }
  | 0x30 | 0x50 => if here then s.updPerfFn fn fun f => { f with sampHead := Tab.set (fun _ => 0) p (fld v 0 16) f.sampHead } else s
  | _ => s

/-- Writes of a CPMU unit: overflow status at 0x10, freeze at 0x18 (PRESUMED, log 64). -/
def State.writeUnit (s : State) (fn u off : Nat) (v : W64) : State :=
  match off with
  | 0x10 => s.updPerfFn fn fun f =>
      { f with overflow := (List.range 8).foldl (fun t c => if v.getLsbD c then Tab.set (fun _ => false) (pmKey u c) false t else t) f.overflow }
  | 0x18 => s.setUnitFreeze fn u (v.extractLsb' 0 9)
  | _ => s

/-- Writes of an MSI-X table entry: message address at 0, data at 8, vector control at 12 (12 R308, R309). -/
def State.writeMsix (s : State) (fn off : Nat) (v : W64) : State :=
  let n := (off - 0x1400000) / 16
  if off % 16 = 0 then s.updFn fn fun f => { f with regs := Tab.set (fun _ => 0) off v f.regs }
  else
    let s := s.updFn fn fun f => { f with regs := Tab.set (fun _ => 0) off (v &&& 0xFFFFFFFF) f.regs }
    if v.getLsbD 32 then s.updFn fn fun f => { f with mask := Tab.set (fun _ => true) n true f.mask } else s.unmask fn n

/-- The registers of an LD's own regions. -/
def State.writeLdReg (s : State) (ld : Fin 32) (off : Nat) (v : W64) : Out :=
  let page := off / 0x1000
  if off = 0x1005018 then .next (s.writeEventRing ld.val v)
  else if off = 0x1005020 then .next (s.updCmdLd ld.val fun c =>
    { c with vector := newVector c.vector (v.extractLsb' 0 16), head := fld v 16 16, overflow := c.overflow && !v.getLsbD 48 })
  else if page = 0x1100 then
    let ch : Fin 16 := Fin.ofNat 16 (off / 0x100)
    match off % 0x100 with
    | 0x00 => .next (s.postEyelet ld ch v none)
    | 0x08 => .next (if v.getLsbD 5 then s.updEye (eyeKey ld ch) fun e => { e with overrun := false } else s)
    | 0x10 => .next (s.writeEyeConfig (eyeKey ld ch) v)
    | _ => .next s
  else if 0x1300 ≤ page ∧ page < 0x1340 ∧ off % 0x1000 = 0 then execDoorbell ld (Fin.ofNat 64 (page - 0x1300)) v none s
  else .next s

/-- A write of eight bytes at an aligned offset. -/
def State.writeReg (s : State) (fn : Nat) (off : Nat) (v : W64) : Out :=
  let page := off / 0x1000
  if page = 0x61F then .next (s.writeControlPage fn (off % 0x1000) v)
  else if 0x600 ≤ page ∧ page < 0x615 then .next (if s.pmHas (page - 0x600) then s.writeUnit fn (page - 0x600) (off % 0x1000) v else s)
  else if 0x1400000 ≤ off ∧ off < 0x1408000 then .next (s.writeMsix fn off v)
  else if page = 0x1200 then
    if off % 0x10 = 8 ∧ off % 0x1000 < 0x80 ∧ v.getLsbD 0 then
      .next (s.releaseLock (off % 0x1000 / 0x10) (if h : fn < 32 then ⟨fn, by omega⟩ else 33))
    else .next s
  else if fn ≥ 32 then
    if off = 0x1008020 then .next (s.writeExport v)
    else if off = 0x1008028 then .next (s.mapFault fun f => { f with expHead := v.extractLsb' 0 16 })
    else .next s
  else s.writeLdReg (Fin.ofNat 32 fn) off v

/-- REGISTER_WRITE of eight bytes, or of the four low bytes of `value`. An access of another alignment, or of four bytes to a register
that takes only eight, completes without effect (12 R305). -/
def execRegisterWrite (fn : Fin 36) (offset : BitVec 25) (value : W64) (four : Bool) (s : State) : Out :=
  let o := offset.toNat
  let base := o / 8 * 8
  if !s.hasFn fn.val ∨ (fn.val < 32 ∧ !(s.fn fn.val).bound) then .next s
  else if (if four then o % 4 ≠ 0 else o % 8 ≠ 0) ∨ (four ∧ only64 o) then execMmioBadAccess fn offset false s
  else
    let old := s.regOld fn.val base
    let v := if !four then value
      else if o % 8 = 0 then (old &&& 0xFFFFFFFF00000000) ||| (value &&& 0xFFFFFFFF)
      else (old &&& 0xFFFFFFFF) ||| (value <<< 32)
    s.writeReg fn.val base v

end Sys2Proof.Machine
end

