-- ==== Sys2Proof/Machine/Keys.lean ====
section
/-! DEFINITION. Keys (05): programming, destruction and its completion, quotas, grants, the TSP messages (R117), zeroization of the whole
device (R118), CXL IDE keys (R121). -/

namespace Sys2Proof.Machine

/-! ### Whose slot it is (R116) -/

/-- An LD mask names no LD but this one. -/
def onlyLd (ld : Nat) (mask : W32) : Bool := decide (mask &&& ~~~(ldBit ld) = 0)

/-- The owner has granted this LD a mask on the key ID, and the mask in question is that one. -/
def KeySlot.granted (x : KeySlot) (ld : Nat) (mask : W32) : Bool := x.grant.getLsbD ld && decide (mask = x.grant)

/-- Whether a session of a role may act on a slot. -/
def State.mayAct (s : State) (r : Role) (k : Nat) : Bool :=
  match r with
  | .ld n => onlyLd n.val (s.slot k).mask || (s.slot k).granted n.val (s.slot k).mask
  | _ => true

/-- Whether it may program a slot with a mask. -/
def State.mayMask (s : State) (r : Role) (k : Nat) (mask : W32) : Bool :=
  match r with
  | .ld n => onlyLd n.val mask || (s.slot k).granted n.val mask
  | _ => true

/-! ### Quotas (R110) -/

/-- PROGRAMMER of a slot that a role programs (R113). -/
def programmerOf : Role → Byte
  | .ld n => BitVec.ofNat 8 (n.val + 1)
  | _ => 0

/-- Slots LOADED or DESTROYED that count against an LD. -/
def State.keySlotsOf (s : State) (ld : Nat) : Nat :=
  (s.keys.slots.filter fun p => decide (p.1 ≠ 0) && decide (p.2.state ≠ .empty) && decide (p.2.programmer.toNat = ld + 1)).length

/-- The role has used up its quota. -/
def State.overQuota (s : State) (r : Role) : Bool :=
  match r with
  | .ld n => decide (s.keySlotsOf n.val ≥ s.keyQuota n.val)
  | _ => false

/-! ### Programming -/

/-- Loads an EMPTY slot; a persistent key is wrapped into the image (R113, R114). -/
def State.loadSlot (s : State) (k : Nat) (key : Key) (persistent : Bool) (mask : W32) (programmer : Byte) : State :=
  let s := s.updSlot k fun x =>
    { slotReset k with state := .loaded, key, persistent, mask, programmer, grant := x.grant }
  if persistent then s.wrapKeys else s

/-- The CTR_DRBG holds a state, from the entropy source where it holds none (R116). -/
def State.seeded (s : State) : BitVec 384 × State :=
  match s.keys.drbg with
  | some x => (x, s)
  | none => let (n, s) := s.draw; (drbgSeed (Config.entropy n), s)

/-- A generated key: 512 bits of the CTR_DRBG (R116). -/
def State.drawKey (s : State) : Key × State :=
  let (x, s) := s.seeded
  let (key, y) := drbgDraw x
  (key, s.mapKeys fun k => { k with drbg := some y })

def State.setCkid (s : State) (ld ckid : Nat) (k : Option (BitVec 12)) : State :=
  s.updTspOf ld fun t => { t with ckids := Tab.set (fun _ => none) ckid k t.ckids }

def keyGate (op inLen body : Nat) (roles : Role → Bool) : Gate := { op, roles, sess := true, l0 := false, secure := true, inLen, body }

/-- PROGRAM_KEY. A locked CKID table takes no entry (R117). -/
def execProgramKey (m : Msg) (keyId : W16) (flags : Byte) (ldMask : W32) (ckid : W16) (ld : Byte) (key : Key) (s : State) : Out :=
  s.slafin (keyGate 0xC090 80 0 rLdBmcOwn) m fun s =>
    let k := keyId.toNat
    let r := s.role m
    let maps := decide (ckid ≠ 0xFFFF)
    if k = 0 ∨ k > 4095 ∨ (maps ∧ (ckid.toNat > 127 ∨ !s.hasLd ld.toNat)) then .done stInvalidRange [] s
    else if !s.mayMask r k ldMask ∨ !s.mayAct r k ∨ (maps ∧ othersLd r ld.toNat) then .done stNotOwner [] s
    else if (s.slot k).state ≠ .empty ∨ (maps ∧ (s.tspOf ld.toNat).locked) then .done stDenied [] s
    else if s.overQuota r then .done stNoResource [] s
    else
      let (key, s) := if flags.getLsbD 1 then s.drawKey else (key, s)
      let s := s.loadSlot k key (flags.getLsbD 0) ldMask (programmerOf r)
      .done stOk [] (if maps then s.setCkid ld.toNat ckid.toNat (some (BitVec.ofNat 12 k)) else s)

/-! ### Destruction (R119) -/

/-- Pages that carry a key ID. -/
def State.pagesUnder (s : State) (k : Nat) : List Dpn :=
  (s.last.table.keys.map (BitVec.ofNat 32)).filter fun d =>
    let e := s.entry d
    decide (e.state ≠ .unwritten) && decide (e.key.toNat = k)

/-- Steps 1 and 2: new requests fail the key check, unflipped migrations of the slot's pages are abandoned. -/
def State.startDestroy (s : State) (k : Nat) : State :=
  let s := s.updSlot k fun x => { x with destroying := true }
  ((s.pagesUnder k).filter fun d => decide ((s.entry d).state = .inMotion)).foldl State.abandon s

/-- Operations that passed the key check with the slot and have not finished: host requests, and page operations at a page that they have checked; a line
in the write buffer still needs the key (DEDUCED, log 79). -/
def State.keyInflight (s : State) (k : Nat) : Nat :=
  (s.path.reqs.filter fun r => r.sampled && decide (r.key.map (·.toNat) = some k)).length
    + (s.path.wbuf.filter fun w => decide ((s.entry w.dpn).key.toNat = k)).length
    + (s.path.merge.filter fun x => decide ((s.entry x.dpn).key.toNat = k)).length
    + (s.poq.ctxs.map fun p => match p.2 with
        | some q => (q.execs.filter fun x => x.finished.isNone && x.passed.any fun y => decide (y.toNat = k)).length
        | none => 0).sum

/-- Step 4: the key is zeroized and the slot DESTROYED; its grant goes with it (R116). -/
def State.zeroizeSlot (s : State) (k : Nat) : State :=
  let x := s.slot k
  let s := s.setSlot k { x with state := .destroyed, key := 0, destroying := false, grant := 0, wrapped := false, waiters := [], tspWaiters := [] }
  let s := if x.persistent then s.wrapKeys else s
  s.slotZero k

/-- The commands that wait for a slot's destruction are answered. -/
def State.answerDestroyed (s : State) (k : Nat) (x : KeySlot) : State :=
  let s := x.waiters.foldl (fun s m => s.reply m 0xC091 stOk []) s
  x.tspWaiters.foldl (fun s ld => s.emit (.tsp ld "key cleared" [k])) s

/-- SLOT_DESTRUCTION_COMPLETE: step 3 has ended. The commands that wait are answered, unless the secure world restarts and will end
them itself (15 R376). -/
def execSlotDestructionComplete (keyId : BitVec 12) (s : State) : Out :=
  let k := keyId.toNat
  let x := s.slot k
  if !x.destroying ∨ s.keyInflight k ≠ 0 then .next s
  else
    let s := s.zeroizeSlot k
    if s.world.secure = .restarting then .next ((s.updSlot k fun y => { y with waiters := x.waiters }).wake)
    else .next (s.answerDestroyed k x).wake

/-- DESTROY_KEY. -/
def execDestroyKey (m : Msg) (keyId : W16) (s : State) : Out :=
  s.slafin (keyGate 0xC091 2 0 rLdBmcOwn) m fun s =>
    let k := keyId.toNat
    if k > 4095 then .done stInvalidRange [] s
    else if k = 0 then .done stDenied [] s
    else if !s.mayAct (s.role m) k then .done stNotOwner [] s
    else if (s.slot k).state ≠ .loaded then .done stOk [] s
    else
      let s := if (s.slot k).destroying then s else s.startDestroy k
      .later (s.updSlot k fun x => { x with waiters := x.waiters ++ [m] })

/-! ### Other key commands -/

def slotCode : SlotState → Nat
  | .empty => 0 | .loaded => 1 | .destroyed => 2

/-- QUERY_KEY. -/
def execQueryKey (m : Msg) (keyId : W16) (s : State) : Out :=
  s.slafin (keyGate 0xC092 2 16 rLdBmcOwn) m fun s =>
    let k := keyId.toNat
    let x := s.slot k
    if k > 4095 then .done stInvalidRange [] s
    else if !s.mayAct (s.role m) k then .done stNotOwner [] s
    else .done stOk (leNat 1 (slotCode x.state) ++ leNat 1 (if x.persistent then 1 else 0) ++ zeros 2 ++ leBytes 4 x.mask ++ leNat 8 x.pages) s

/-- SET_DEFAULT_KEY. -/
def execSetDefaultKey (m : Msg) (ld : Byte) (keyId : W16) (s : State) : Out :=
  s.slafin (keyGate 0xC093 4 0 rLdOwn) m fun s =>
    let k := keyId.toNat
    let n := ld.toNat
    if !s.hasLd n ∨ k > 4095 then .done stInvalidRange [] s
    else if othersLd (s.role m) n then .done stNotOwner [] s
    else if (s.slot k).state ≠ .loaded then .done stDenied [] s
    else if !(s.slot k).mask.getLsbD n then .done stNotOwner [] s
    else .done stOk [] (s.setDefKey n (BitVec.ofNat 12 k))

/-- SET_KEY_QUOTA. -/
def execSetKeyQuota (m : Msg) (ld : Byte) (quota : W16) (s : State) : Out :=
  s.slafin (keyGate 0xC094 4 0 rFmOwn) m fun s =>
    if !s.hasLd ld.toNat ∨ quota.toNat > 4095 then .done stInvalidRange [] s else .done stOk [] (s.setKeyQuota ld.toNat quota.toNat)

/-- GRANT_SHARE. -/
def execGrantShare (m : Msg) (keyId : W16) (ldMask : W32) (s : State) : Out :=
  s.slafin (keyGate 0xC095 8 0 rOwn) m fun s =>
    let k := keyId.toNat
    if k = 0 ∨ k > 4095 then .done stInvalidRange [] s else .done stOk [] (s.updSlot k fun x => { x with grant := ldMask })

/-! ### Zeroization of the whole device (R118) -/

/-- Every slot other than 0, every CKID table and every grant; the KEK and the DRBG state go with them, and a destruction under way has then taken place. It stays away until the increment of DKE, or the next cold reset. -/
def State.zeroizeAll (s : State) : State :=
  let s := ((s.keys.slots.map (·.1)).filter (· ≠ 0)).foldl (fun (s : State) k =>
    if (s.slot k).state = .loaded then (s.zeroizeSlot k).answerDestroyed k (s.slot k) else s.updSlot k fun x => { x with grant := 0 }) s
  s.mapKeys fun k => { k with kekValid := false, drbg := none, tsp := k.tsp.filterMap fun p =>
    let t : Tsp := { p.2 with ckids := [] }
    if t = tspReset then none else some (p.1, t) }

/-- The increment of DKE that follows; every wrapped key of the image is unreadable from then on, and the slots that hold persistent keys
have none (R111). -/
def State.nextEpochKey (s : State) : State := s.mapKeys fun k => { k with dke := k.dke + 1, kekValid := true }

/-! ### TSP (R117) -/

/-- A TSP message is taken: an established session on the LD's DOE, and both worlds serve it. -/
def State.tspHere (s : State) (ld : Fin 32) (session : Fin 8) : Bool :=
  s.hasLd ld.val && decide (s.world.normal = .up) && match s.sessionOf session.val with
    | some x => x.finished && decide (x.ld = some ld)
    | none => false

/-- The answer of a TSP message. An LD on a head with 68-byte flits has no TSP (12 R292); the secure world may be away (15 R376, R380). -/
def State.tspRun (s : State) (ld : Fin 32) (session : Fin 8) (act : State → State) : Out :=
  if !s.tspHere ld session then .next s
  else if s.world.secure = .restarting then .next (s.emit (.tsp ld "busy" [stBusySecure.toNat]))
  else if s.world.secure = .down then .next (s.emit (.tsp ld "no resource" [stNoResource.toNat]))
  else if match (s.fn ld.val).head with | some h => s.head68 h.val | none => false then .next (s.emit (.tsp ld "unsupported" []))
  else .next (act s)

/-- R117 says that the single supported version is reported and not which: version 1 (DESIGN CHOICE, log 146). -/
def execGetTargetTspVersion (ld : Fin 32) (session : Fin 8) (s : State) : Out :=
  s.tspRun ld session fun s => s.emit (.tsp ld "versions" [1])

/-- CKID-based encryption, 128 CKIDs, AES-256-XTS. -/
def execGetTargetCapabilities (ld : Fin 32) (session : Fin 8) (s : State) : Out :=
  s.tspRun ld session fun s => s.emit (.tsp ld "capabilities" [1, 128, 256])

def execSetTargetConfiguration (ld : Fin 32) (session : Fin 8) (ckidEnable : Bool) (s : State) : Out :=
  s.tspRun ld session fun s =>
    if (s.tspOf ld.val).locked then s.emit (.tsp ld "locked" [])
    else (s.updTspOf ld.val fun t => { t with enabled := ckidEnable }).emit (.tsp ld "configured" [])

def tspConfig (t : Tsp) : List Nat := [if t.enabled then 1 else 0, if t.locked then 1 else 0]

def execGetTargetConfiguration (ld : Fin 32) (session : Fin 8) (s : State) : Out :=
  s.tspRun ld session fun s => s.emit (.tsp ld "configuration" (tspConfig (s.tspOf ld.val)))

/-- The report: the configuration and the CKIDs that have a key. -/
def execGetTargetConfigurationReport (ld : Fin 32) (session : Fin 8) (s : State) : Out :=
  s.tspRun ld session fun s => s.emit (.tsp ld "report" (tspConfig (s.tspOf ld.val) ++ (s.tspOf ld.val).ckids.keys))

def execLockTargetConfiguration (ld : Fin 32) (session : Fin 8) (s : State) : Out :=
  s.tspRun ld session fun s => (s.updTspOf ld.val fun t => { t with locked := true }).emit (.tsp ld "locked" [])

/-- The EMPTY slot that a TSP key takes: the first at or after a hint, which slot being the device's choice (DESIGN CHOICE, log 80). -/
def State.emptyKeySlot (s : State) (hint : Nat) : Option Nat :=
  ((List.range 4096).map fun i => (hint + i) % 4096).find? fun k => decide (k ≠ 0) && decide ((s.slot k).state = .empty)

/-- Programs an ephemeral slot for a CKID of an LD. A CKID that has a key keeps it until it is cleared (DEDUCED, log 80). -/
def State.tspProgram (s : State) (ld : Fin 32) (ckid slot : Nat) (key : Key) : State :=
  let t := s.tspOf ld.val
  if t.locked then s.emit (.tsp ld "locked" [])
  else if ckid > 127 ∨ (Tab.get (fun _ => none) t.ckids ckid : Option (BitVec 12)).isSome then s.emit (.tsp ld "invalid CKID" [ckid])
  else if s.overQuota (.ld ld) then s.emit (.tsp ld "no resource" [stNoResource.toNat])
  else match s.emptyKeySlot slot with
    | none => s.emit (.tsp ld "no resource" [stNoResource.toNat])
    | some k => ((s.loadSlot k key false (ldBit ld.val) (programmerOf (.ld ld))).setCkid ld.val ckid (some (BitVec.ofNat 12 k))).emit
        (.tsp ld "key set" [ckid])

def execSetTargetCkidSpecificKey (ld : Fin 32) (session : Fin 8) (ckid : BitVec 13) (slot : BitVec 12) (key : Key) (s : State) : Out :=
  s.tspRun ld session fun s => s.tspProgram ld ckid.toNat slot.toNat key

def execSetTargetCkidRandomKey (ld : Fin 32) (session : Fin 8) (ckid : BitVec 13) (slot : BitVec 12) (s : State) : Out :=
  s.tspRun ld session fun s => let (key, s) := s.drawKey; s.tspProgram ld ckid.toNat slot.toNat key

/-- CLEAR_TARGET_CKID_KEY: the entry goes and the slot is destroyed under R119; key ID 0 is never destroyed. -/
def execClearTargetCkidKey (ld : Fin 32) (session : Fin 8) (ckid : BitVec 13) (s : State) : Out :=
  s.tspRun ld session fun s =>
    let t := s.tspOf ld.val
    if t.locked then s.emit (.tsp ld "locked" [])
    else match (Tab.get (fun _ => none) t.ckids ckid.toNat : Option (BitVec 12)) with
      | none => s.emit (.tsp ld "invalid CKID" [ckid.toNat])
      | some k =>
        let s := s.setCkid ld.val ckid.toNat none
        if (s.slot k.toNat).state ≠ .loaded ∨ k = 0 then s.emit (.tsp ld "key cleared" [k.toNat])
        else
          let s := if (s.slot k.toNat).destroying then s else s.startDestroy k.toNat
          s.updSlot k.toNat fun x => { x with tspWaiters := x.tspWaiters ++ [ld] }

def execTspUnsupportedRequest (ld : Fin 32) (session : Fin 8) (_opcode : Byte) (s : State) : Out :=
  s.tspRun ld session fun s => s.emit (.tsp ld "unsupported" [])

/-! ### IDE (R121) -/

/-- The key of a set of a stream. -/
def IdeStream.setKey (x : IdeStream) (set : Bool) (k : Option (BitVec 256)) : IdeStream := if set then { x with setB := k } else { x with setA := k }
def IdeStream.keyOf (x : IdeStream) (set : Bool) : Option (BitVec 256) := if set then x.setB else x.setA

/-- What a CXL_IDE_KM message does to a stream: a key for one of its two sets; the switch to a set that has a key, which refreshes the keys of a stream in use
without stopping it, and sets the mode of CXL.cachemem; the end of a set. -/
def IdeStream.take (x : IdeStream) (set : Bool) : IdeKm → IdeStream
  | .keyProg key => x.setKey set (some key)
  | .setGo containment => if (x.keyOf set).isSome then { x with active := some set, containment } else x
  | .setStop => let y := x.setKey set none; if x.active = some set then { y with active := none } else y

/-- IDE_KM_MESSAGE over an established session on a DOE of the port: stream 0 is CXL.cachemem, 1 the link stream, 2 to 5 the selective
streams. -/
def execIdeKmMessage (p : Fin 2) (session : Fin 8) (stream : Fin 6) (set : Bool) (km : IdeKm) (s : State) : Out :=
  match s.sessionOf session.val with
  | none => .next s
  | some x =>
    match x.ld with
    | none => .next s
    | some ld =>
      if !x.finished ∨ portOfLd ld.val ≠ p.val ∨ s.world.normal ≠ .up ∨ s.world.secure ≠ .up then .next s
      else
        let k := 6 * p.val + stream.val
        let y := (s.ideStream k).take set km
        .next ((s.setIdeStream k y).emit (.spdm (.doe ld) "IDE" [stream.val, match y.active with | none => 0 | some false => 1 | some true => 2]))

end Sys2Proof.Machine
end

