-- ==== Sys2Proof/Machine/Standard.lean ====
section
/-! DEFINITION. The standard commands of a mailbox (14 R340 to R342): identity, health, logs, partitions, dynamic capacity, poison,
Sanitize. The answers hold the figures that the spec gives; fields that are the standard's alone are left out (log 44). -/

namespace Sys2Proof.Machine

/-! ### The capacity of an LD (02 R25) -/

/-- 256 MiB in pages. -/
def block : Nat := 65536

def pagesOf (es : List MapEntry) : Nat := (es.map (·.pages.toNat)).sum

/-- A range of the identity, in entries whose PAGES the field holds. -/
def identity (base stop : Nat) : List MapEntry :=
  (List.range (ceilDiv (stop - base) (2 ^ 31))).map fun i =>
    let a := base + i * 2 ^ 31
    { ldBase := BitVec.ofNat 32 a, devBase := BitVec.ofNat 32 a, pages := BitVec.ofNat 32 (min (2 ^ 31) (stop - a)), valid := true, shared := false
      poisonUnw := false, durable := false, dc := false, region := 0, tag := 0 }

/-- The pages below a bound that no valid entry of a map covers, as the identity. -/
def identityRest (es : List MapEntry) (stop : Nat) : List MapEntry :=
  let r := (sortBy (fun a b => decide (a.ldBase.toNat < b.ldBase.toNat)) (es.filter (·.valid))).foldl (fun (acc : Nat × List MapEntry) e =>
    (max acc.1 (e.ldBase.toNat + e.pages.toNat), acc.2 ++ identity acc.1 (min stop e.ldBase.toNat))) (0, [])
  r.2 ++ identity r.1 stop

/-- The capacity map of an LD; a single logical device has the identity where its map lists nothing (log 38). -/
def State.ldMap (s : State) (ld : Nat) : List MapEntry :=
  s.map ld ++ if s.headSld (s.headOfLd ld) then identityRest (s.map ld) s.last.hostPages else []

/-- Pages of the volatile and of the persistent part of the entries with DC = 0 (09 R214). -/
def State.partition (s : State) (ld : Nat) : Nat × Nat :=
  let es := (s.ldMap ld).filter fun e => e.valid && !e.dc
  (pagesOf (es.filter fun e => !e.durable), pagesOf (es.filter (·.durable)))

/-! ### Capacity that goes back to UNWRITTEN (02 R27, R49) -/

/-- A page that some map, or an extent of the image that is in no map yet, still holds. -/
def State.stillHeld (s : State) (d : Nat) : Bool :=
  (s.last.maps.any fun p => p.2.any fun e => e.holdsDev d)
    || s.heldEntries.any fun r => decide (r.devDpn.toNat ≤ d) && decide (d < r.devDpn.toNat + r.pages.toNat)

/-- Drops what the buffers hold of a page and returns it to UNWRITTEN. -/
def State.clearPage (s : State) (d : Dpn) (stays : Bool) : State := (s.dropBuffered d).toUnwritten d stays

/-- The pages of an entry that nobody holds any more. -/
def State.clearFree (s : State) (e : MapEntry) : State :=
  ((s.extentPages e).filter fun d => !s.stillHeld d.toNat).foldl (fun s d => s.clearPage d false) s

/-- Requests of an LD to an entry that the tracker still holds (12 R311). -/
def State.usesEntry (s : State) (p : Fin 32 × MapEntry) : Bool :=
  s.path.reqs.any fun r => decide (r.ld = p.1) && p.2.holdsDev r.dpn.toNat

/-- Ends the removals whose requests have completed: the pages return to UNWRITTEN, other LDs receive what was allocated to them (02 R27), then the
command completes (12 R311). -/
def State.settleRemovals (s : State) : State :=
  let ready := s.cmd.removals.filter fun r => !r.entries.any s.usesEntry
  if ready.isEmpty then s
  else (ready.foldl (fun s r =>
    let s := s.mapCmd fun c => { c with removals := c.removals.erase r }
    let s := r.entries.foldl (fun s p => s.clearFree p.2) s
    let s := r.follow.foldl (fun s p => s.setMap p.1.val (s.map p.1.val ++ [p.2])) s
    match r.m with
    | some m => s.respStd m r.op rcSuccess []
    | none => s) s).wake

/-- Takes entries out of the maps; the command ends now or when the removal does. -/
def State.removeEntries (s : State) (m : Msg) (op : Nat) (es : List (Fin 32 × MapEntry)) (follow : List (Fin 32 × MapEntry) := []) : State :=
  let s := es.foldl (fun s p => s.setMap p.1.val ((s.map p.1.val).filter (· ≠ p.2))) s
  let asked := s.tier.release.filter fun q => !es.any fun p => decide (p.1 = q.1) && decide (p.2.tag = q.2.1) && decide (p.2.devBase = q.2.2)
  let s := s.mapTier fun t => { t with release := asked, releasePending := t.releasePending && !asked.isEmpty }
  (((s.mapShank fun k => { k with regionDirty := true }).mapCmd fun c => { c with removals := c.removals ++ [{ m := some m, op, entries := es, follow }] })).settleRemovals

/-! ### Identity, health, alerts, time (R341; 09 R213) -/

/-- IDENTIFY_MEMORY_DEVICE: total, volatile and persistent capacity and their granule in bytes, records per log, poison list limit. -/
def execIdentifyMemoryDevice (m : Msg) (s : State) : Out :=
  s.std 0x4000 onMailboxOrBmc m fun s =>
    let (v, p) := match pathLd m.path with | some ld => s.partition ld.val | none => (s.last.hostPages, 0)
    .done rcSuccess [(v + p) * 4096, v * 4096, p * 4096, block * 4096, 256, 4096] s

/-- GET_HEALTH_INFO: the Dirty Shutdown Count and the Shutdown State. -/
def execGetHealthInfo (m : Msg) (s : State) : Out :=
  s.std 0x4200 onMailboxOrBmc m fun s => .done rcSuccess [s.shank.dsc.toNat, s.shank.shutdownState.toNat] s

def execGetAlertConfiguration (m : Msg) (s : State) : Out :=
  s.std 0x4201 onMailbox m fun s => .done rcSuccess [(s.cmdLd (pathFn m.path)).alert.toNat] s

def execSetAlertConfiguration (m : Msg) (cfg : BitVec 96) (s : State) : Out :=
  s.std 0x4202 onMailbox m fun s => .done rcSuccess [] (s.updCmdLd (pathFn m.path) fun c => { c with alert := cfg })

def execGetShutdownState (m : Msg) (s : State) : Out :=
  s.std 0x4203 onMailbox m fun s => .done rcSuccess [s.shank.shutdownState.toNat] s

/-- SET_SHUTDOWN_STATE: kept in the superblock. -/
def execSetShutdownState (m : Msg) (st : Byte) (s : State) : Out :=
  s.std 0x4204 onMailbox m fun s =>
    let s := s.mapShank fun k => { k with shutdownState := st }
    .done rcSuccess [] (s.refreshSupers (match s.image.supB with | some x => x.clean | none => false))

def execGetTimestamp (m : Msg) (s : State) : Out :=
  s.std 0x0300 onMailbox m fun s => .done rcSuccess [(BitVec.ofNat 64 s.time + (s.cmdLd (pathFn m.path)).timeOffset).toNat] s

/-- SET_TIMESTAMP: an offset to device time, which is never changed. -/
def execSetTimestamp (m : Msg) (t : W64) (s : State) : Out :=
  s.std 0x0301 onMailbox m fun s => .done rcSuccess [] (s.updCmdLd (pathFn m.path) fun c => { c with timeOffset := t - BitVec.ofNat 64 s.time })

/-! ### The four standard logs (R341) -/

/-- GET_EVENT_RECORDS: handle and content of each record. -/
def execGetEventRecords (m : Msg) (log : Byte) (s : State) : Out :=
  s.std 0x0100 onMailboxOrBmc m fun s =>
    if log.toNat > 3 then .done rcInvalidInput [] s
    else .done rcSuccess ((s.log log.toNat).length :: (s.log log.toNat).flatMap fun r => [r.1, r.2]) s

/-- CLEAR_EVENT_RECORDS: all, or the records of the handles given; a handle that names none changes nothing. -/
def execClearEventRecords (m : Msg) (log : Byte) (all : Bool) (handles : List W16) (s : State) : Out :=
  s.std 0x0101 onMailbox m fun s =>
    let l := s.log log.toNat
    if log.toNat > 3 then .done rcInvalidInput [] s
    else if all then .done rcSuccess [] (s.setLog log.toNat [])
    else if handles.any fun h => !l.any fun r => decide (r.1 = h.toNat) then .done rcInvalidHandle [] s
    else .done rcSuccess [] (s.setLog log.toNat (l.filter fun r => !handles.any fun h => decide (r.1 = h.toNat)))

def execGetEventInterruptPolicy (m : Msg) (s : State) : Out :=
  s.std 0x0102 onMailbox m fun s => .done rcSuccess [(s.cmdLd (pathFn m.path)).policy.toNat] s

def execSetEventInterruptPolicy (m : Msg) (p : W32) (s : State) : Out :=
  s.std 0x0103 onMailbox m fun s => .done rcSuccess [] (s.updCmdLd (pathFn m.path) fun c => { c with policy := p })

/-- Bytes of the Command Effects Log: opcode and effects of each command supported. -/
def celBytes : List Byte := (stdOpcodes ++ slafinDefined).flatMap fun op => leNat 2 op ++ leBytes 2 (Config.celEffect op)

/-- GET_SUPPORTED_LOGS: one log and its size. -/
def execGetSupportedLogs (m : Msg) (s : State) : Out :=
  s.std 0x0400 onMailbox m fun s => .done rcSuccess [1, 4 * (stdOpcodes.length + slafinDefined.length)] s

/-- GET_LOG: the Command Effects Log. -/
def execGetLog (m : Msg) (cel : Bool) (offset : W32) (length : W32) (s : State) : Out :=
  s.std 0x0401 onMailboxOrBmc m fun s =>
    if !cel then .done rcInvalidLog [] s
    else if offset.toNat + length.toNat > 4 * (stdOpcodes.length + slafinDefined.length) then .done rcInvalidInput [] s
    else .done rcSuccess (((celBytes.drop offset.toNat).take length.toNat).map (·.toNat)) s

/-! ### Partitions (09 R214) -/

/-- GET_PARTITION_INFO: volatile and persistent capacity in 256 MiB. -/
def execGetPartitionInfo (m : Msg) (s : State) : Out :=
  s.std 0x4100 onMailbox m fun s =>
    let (v, p) := match pathLd m.path with | some ld => s.partition ld.val | none => (0, 0)
    .done rcSuccess [v / block, p / block] s

/-- The entries with DC = 0 divided at `v` pages: what lies below is volatile, what lies above durable. -/
def splitStatic (v : Nat) : List MapEntry → List MapEntry
  | [] => []
  | e :: r =>
    let n := e.pages.toNat
    let low := min v n
    let a : List MapEntry := if low = 0 then [] else [{ e with pages := BitVec.ofNat 32 low, durable := false }]
    let b : List MapEntry := if low = n then [] else
      [{ e with ldBase := e.ldBase + BitVec.ofNat 32 low, devBase := e.devBase + BitVec.ofNat 32 low, pages := BitVec.ofNat 32 (n - low), durable := true }]
    a ++ b ++ splitStatic (v - low) r

/-- SET_PARTITION_INFO: in force at once; the content of capacity that changes its kind is lost, as the standard says (PRESUMED, log 81). -/
def execSetPartitionInfo (m : Msg) (volatile : W64) (s : State) : Out :=
  s.std 0x4101 onMailbox m fun s =>
    match pathLd m.path with
    | none => .done rcUnsupported [] s
    | some ld =>
      let es := (s.ldMap ld.val).filter fun e => e.valid && !e.dc
      let v := volatile.toNat * block
      let news := splitStatic v (sortBy (fun a b => decide (a.ldBase.toNat < b.ldBase.toNat)) es)
      let dc := (s.map ld.val).filter fun e => e.valid && e.dc
      let durable := news.filter (·.durable)
      if v > pagesOf es ∨ (durable.any fun e => decide (e.ldBase ≠ e.devBase)) ∨ news.length + dc.length > 256 then .done rcInvalidInput [] s
      else if !durable.isEmpty ∧ s.shadowState = 0 then .done rcNoResource [] s
      else
        let was (d : Nat) : Bool := es.any fun e => e.durable && e.holdsDev d
        let changed := (es.flatMap s.extentPages).filter fun d => was d.toNat != durable.any fun e => e.holdsDev d.toNat
        let s := changed.foldl (fun s d => s.clearPage d false) s
        .done rcSuccess [] ((s.setMap ld.val (news ++ dc)).mapShank fun k => { k with regionDirty := true })

/-! ### Dynamic capacity of a host (12 R291, R292; 10 R263) -/

/-- The LD's head exposes dynamic capacity (12 R292). -/
def State.exposesDc (s : State) (ld : Nat) : Bool := match (s.fn ld).head with | some h => !s.head68 h.val | none => true

/-- A dynamic-capacity command of an LD's mailbox. -/
def State.dcRun (s : State) (op : Nat) (m : Msg) (act : Fin 32 → State → StdResult) : Out :=
  s.std op onMailbox m fun s => match pathLd m.path with
    | some ld => if s.exposesDc ld.val then act ld s else .done rcUnsupported [] s
    | none => .done rcUnsupported [] s

/-- Block size, durable mark and sanitize flag of the 8 regions. -/
def State.regionInfo (s : State) (first n : Nat) : List Nat :=
  ((List.range 8).filter fun r => decide (first ≤ r) && decide (r < first + n)).flatMap fun r =>
    let x := s.region r
    [r, x.blockSize.toNat, if x.durable then 1 else 0, if x.sanitize then 1 else 0]

/-- Extents that the map can still take. -/
def State.extentRoom (s : State) (ld : Nat) : Nat := 256 - (s.map ld).length

def execGetDynamicCapacityConfiguration (m : Msg) (s : State) : Out :=
  s.dcRun 0x4800 m fun ld s =>
    .done rcSuccess ([8, 256 - ((s.map ld.val).filter fun e => !e.dc).length, s.extentRoom ld.val] ++ s.regionInfo 0 8) s

def State.extents (s : State) (ld : Nat) : List MapEntry := (s.map ld).filter fun e => e.valid && e.dc

/-! ### The rules of the capacity maps (02 R25, R27, R68, R461) -/

/-- Layout rules of one entry (02 R25, R461). -/
def State.entryOk (s : State) (e : MapEntry) : Bool :=
  decide (e.pages.toNat ≠ 0) && decide (e.pages.toNat % block = 0) && decide (e.ldBase.toNat % block = 0) && decide (e.devBase.toNat % block = 0)
    && decide (e.ldBase.toNat + e.pages.toNat ≤ 2 ^ 32) && decide (e.devBase.toNat + e.pages.toNat ≤ s.last.hostPages)
    && (!e.durable || decide (e.ldBase = e.devBase))

def overlap (a b n k : Nat) : Bool := decide (a < b + k) && decide (b < a + n)

/-- Two entries of one map name different LD pages; device pages meet only where both entries are SHARED (02 R27). -/
def lookupOk (a b : MapEntry) : Bool := !overlap a.ldBase.toNat b.ldBase.toNat a.pages.toNat b.pages.toNat
def devOverlap (a b : MapEntry) : Bool := overlap a.devBase.toNat b.devBase.toNat a.pages.toNat b.pages.toNat
def sharingOk (a b : MapEntry) : Bool := (a.shared && b.shared) || !devOverlap a b

def mapOk : List MapEntry → Bool
  | [] => true
  | e :: r => r.all (fun x => lookupOk e x && sharingOk e x) && mapOk r

/-- An entry that breaks no rule of the maps as they stand. -/
def State.joins (s : State) (ld : Nat) (e : MapEntry) : Bool :=
  s.entryOk e && (List.range s.nLds).all fun n => (s.map n).all fun x => sharingOk e x && (decide (n ≠ ld) || lookupOk e x)

/-- Capacity on its way back to UNWRITTEN (R27). -/
def State.leaving (s : State) (e : MapEntry) : Bool := s.cmd.removals.any fun r => r.entries.any fun p => devOverlap e p.2

/-- Pages of ranges, each page once. -/
def unionPages (l : List (Nat × Nat)) : Nat :=
  ((sortBy (fun a b => decide (a.1 < b.1)) l).foldl (fun (acc : Nat × Nat) r =>
    (acc.1 + (r.1 + r.2 - max r.1 acc.2), max acc.2 (r.1 + r.2))) (0, 0)).1

/-- The non-DC capacity of maps: the pages of the valid entries with DC = 0, SHARED pages once (03 R68). -/
def nonDcPages (es : List MapEntry) : Nat :=
  let st := es.filter fun e => e.valid && !e.dc
  pagesOf (st.filter fun e => !e.shared) + unionPages ((st.filter (·.shared)).map fun e => (e.devBase.toNat, e.pages.toNat))

/-- The extents of an LD from a position on: base, length, tag, region. -/
def State.extentList (s : State) (ld start count : Nat) : List Nat :=
  let all := s.extents ld
  let l := (all.drop start).take count
  [l.length, all.length] ++ l.flatMap fun e => [e.ldBase.toNat * 4096, e.pages.toNat * 4096, e.tag.toNat, e.region.val]

def execGetDynamicCapacityExtentList (m : Msg) (start : W32) (count : W32) (s : State) : Out :=
  s.dcRun 0x4801 m fun ld s =>
    if start.toNat > (s.extents ld.val).length then .done rcInvalidInput [] s
    else .done rcSuccess (s.extentList ld.val start.toNat count.toNat) s

/-- The map entry of a restored extent that is accepted (10 R263). -/
def offeredEntry (e : RegionEntry) : MapEntry :=
  { ldBase := e.devDpn, devBase := e.devDpn, pages := e.pages, valid := true, shared := e.shared, poisonUnw := e.poisonUnw, durable := true
    dc := true, region := e.region.getD 0, tag := e.tag }

/-- The map entry of an extent that the fabric manager adds. -/
def State.addedEntry (s : State) (e : Extent) : MapEntry :=
  { ldBase := e.ldDpn, devBase := e.devDpn, pages := e.pages, valid := true, shared := e.shared, poisonUnw := e.poisonUnwritten
    durable := (s.region e.region.val).durable, dc := true, region := e.region, tag := e.tag }

def State.addEntry (s : State) (ld : Nat) (e : MapEntry) : State :=
  (s.setMap ld (s.map ld ++ [e])).mapShank fun k => { k with regionDirty := true }

/-- ADD_DYNAMIC_CAPACITY_RESPONSE to an offer of a restored extent or to an add of the fabric manager. The entry meets the rules of the maps when it
becomes valid (02 R27, R461). -/
def execAddDynamicCapacityResponse (m : Msg) (tag : BitVec 128) (accept : Bool) (s : State) : Out :=
  s.dcRun 0x4802 m fun ld s =>
    match s.cmd.offers.find? fun o => decide (o.1 = ld) && decide (o.2.tag = tag) with
    | some o =>
      if accept then
        if s.extentRoom ld.val = 0 then .done rcNoResource [] s
        else if !s.joins ld.val (offeredEntry o.2) then .done rcInvalidInput [] s
        else .done rcSuccess [] ((s.mapCmd fun c => { c with offers := c.offers.erase o }).addEntry ld.val (offeredEntry o.2))
      else .done rcSuccess [] (s.mapCmd fun c => { c with offers := c.offers.erase o, declined := c.declined ++ [o] })
    | none =>
      match s.cmd.adds.find? fun o => decide (o.1 = ld) && decide (o.2.tag = tag) with
      | none => .done rcInvalidInput [] s
      | some o =>
        let s := s.mapCmd fun c => { c with adds := c.adds.erase o }
        if !accept then .done rcSuccess [] s
        else if s.extentRoom ld.val = 0 then .done rcNoResource [] s
        else if !s.joins ld.val (s.addedEntry o.2) then .done rcInvalidInput [] s
        else .done rcSuccess [] (s.addEntry ld.val (s.addedEntry o.2))

/-- The extents of a release request that an LD's response leaves out are declined, each counted once (03 R69). -/
def State.declineRest (s : State) (ld : Fin 32) (es : List MapEntry) : State :=
  let out := s.tier.release.filter fun q => decide (q.1 = ld) && !es.any fun e => decide (e.tag = q.2.1) && decide (e.devBase = q.2.2)
  out.foldl (fun s _ => fire 34 s) (s.mapTier fun t => { t with release := t.release.filter fun q => !out.contains q })

/-- RELEASE_DYNAMIC_CAPACITY: whole extents of the LD within a range that they fill. With `more` clear it ends the host's response to a release request. -/
def execReleaseDynamicCapacity (m : Msg) (dpa : W64) (length : W64) (s : State) (more : Bool := false) : Out :=
  s.dcRun 0x4803 m fun ld s =>
    let es := (s.extents ld.val).filter fun e =>
      decide (dpa.toNat ≤ e.ldBase.toNat * 4096) && decide ((e.ldBase.toNat + e.pages.toNat) * 4096 ≤ dpa.toNat + length.toNat)
    if es.isEmpty ∨ pagesOf es * 4096 ≠ length.toNat then .done rcInvalidAddress [] s
    else .later ((if more then s else s.declineRest ld es).removeEntries m 0x4803 (es.map fun e => (ld, e)))

/-! ### Poison (R341) -/

/-- Lines of a page known to hold poison: all of a LOST page, else those buffered or stored so. -/
def State.poisonLines (s : State) (d : Dpn) : List Nat :=
  let e := s.entry d
  if e.state = .lost then List.range 64
  else if e.hotForm ∨ e.warmForm then
    ((s.pagePlain d).zipIdx.filter fun p => match s.buffered d p.2 with
      | some w => w.poison
      | none => p.1.isNone).map (·.2)
  else []

/-- GET_POISON_LIST: LD DPAs of a range in lines of 64 B, up to 4,096. -/
def execGetPoisonList (m : Msg) (dpa : W64) (length : W64) (s : State) : Out :=
  s.std 0x4300 onMailbox m fun s => match pathLd m.path with
    | none => .done rcUnsupported [] s
    | some ld =>
      let found := (s.ldMap ld.val).flatMap fun e => (s.extentPages e).flatMap fun d =>
        (s.poisonLines d).map fun l => (e.ldBase.toNat + (d.toNat - e.devBase.toNat)) * 4096 + l * 64
      let mine := found.filter fun a => decide (dpa.toNat ≤ a) && decide (a < dpa.toNat + 64 * length.toNat)
      .done rcSuccess (mine.take 4096) s

/-- What stands in the way of a line job: it has ended with a code, or it waits. -/
def State.lineJob (s : State) (j : LineJob) : Option W16 × State :=
  let ld := j.ld.val
  match s.poqTarget ld j.dpa with
  | none => (some rcInvalidAddress, s)
  | some t =>
    match s.poqCheck ld t.dpn true with
    | (some _, s) => (some rcInvalidAddress, s)
    | (none, s) =>
      if (s.entry t.dpn).state = .unwritten ∧ !s.keyUsable ld (s.defKey ld) then (some rcInvalidAddress, s)
      else match s.readyPage ld t 0 mFw with
        | .hold s => (none, s)
        | .wait s => (none, s)
        | .yes s =>
          let line : Fin 64 := Fin.ofNat 64 (j.dpa / 64)
          let s := match s.mergeOf t.dpn line.val with
            | some x => (s.completeMerge x).dropMerge t.dpn line.val
            | none => s
          match j.data with
          | some x => (some rcSuccess, s.bufferLine t.dpn line x false (some j.ld))
          | none => let (n, s) := s.draw; (some rcSuccess, s.bufferLine t.dpn line (Config.freeLine n) true (some j.ld))

/-- Tries the line jobs that wait. -/
def State.settleLines (s : State) : State :=
  s.cmd.lineJobs.foldl (fun s j => match s.lineJob j with
    | (some code, s) => (s.mapCmd fun c => { c with lineJobs := c.lineJobs.erase j }).respStd j.m j.op code []
    | (none, s) => s) s

/-- Starts a line job: it writes the line as the LD's own write would, and its command completes when it has. -/
def State.startLine (s : State) (m : Msg) (op : Nat) (dpa : W64) (data : Option Line) : StdResult :=
  match pathLd m.path with
  | none => .done rcUnsupported [] s
  | some ld =>
    if dpa.toNat % 64 ≠ 0 then .done rcInvalidInput [] s
    else .later (s.mapCmd fun c => { c with lineJobs := c.lineJobs ++ [{ m, op, ld, dpa := dpa.toNat, data }] }).settleLines

def execInjectPoison (m : Msg) (dpa : W64) (s : State) : Out := s.std 0x4301 onMailbox m fun s => s.startLine m 0x4301 dpa none

def execClearPoison (m : Msg) (dpa : W64) (data : Line) (s : State) : Out :=
  s.std 0x4302 onMailbox m fun s => s.startLine m 0x4302 dpa (some data)

/-! ### Sanitize and Secure Erase (R342; 05 R118) -/

/-- A background operation of a function runs. -/
def State.backgroundRuns (s : State) (fn : Nat) : Bool := match (s.cmdLd fn).background with | some (_, ended) => !ended | none => false

/-- An LD's own capacity: pages of its entries with SHARED = 0; durable capacity stays durable. -/
def State.sanitizeLd (s : State) (ld : Nat) : State :=
  (((s.ldMap ld).filter fun e => e.valid && !e.shared).flatMap s.extentPages).foldl (fun s d => s.clearPage d true) s

/-- The whole device: every page, every key, then the next DKE. -/
def State.sanitizeAll (s : State) : State :=
  let s := (s.last.table.keys.map (BitVec.ofNat 32)).foldl (fun s d => s.clearPage d (s.entry d).durable) s
  s.zeroizeAll.nextEpochKey.wrapKeys

/-- Sanitize and Secure Erase do the same here. The effect is there when the operation starts; its end is a command of its own
(DEDUCED, log 83). -/
def State.erase (s : State) (m : Msg) (op : W16) : StdResult :=
  let fn := pathFn m.path
  if s.backgroundRuns fn then .done rcBusy [] s
  else
    let start (s : State) : StdResult := .done rcBackground [] (s.updCmdLd fn fun c => { c with background := some (op, false) }).wake
    match pathLd m.path with
    | some ld => start (s.sanitizeLd ld.val)
    | none =>
      if !s.boundLds.isEmpty ∨ s.world.secure = .restarting then .done rcBusy [] s
      else if s.world.secure = .down then .done rcNoResource [] s
      else start s.sanitizeAll

def execSanitize (m : Msg) (s : State) : Out := s.std 0x4400 onMailbox m fun s => s.erase m 0x4400

def execSecureErase (m : Msg) (s : State) : Out := s.std 0x4401 onMailbox m fun s => s.erase m 0x4401

/-- BACKGROUND_OPERATION_STATUS: opcode of the latest operation and whether it has ended. -/
def execBackgroundOperationStatus (m : Msg) (s : State) : Out :=
  s.std 0x0002 onMailbox m fun s => match (s.cmdLd (pathFn m.path)).background with
    | some (op, ended) => .done rcSuccess [op.toNat, if ended then 100 else 0] s
    | none => .done rcSuccess [0, 100] s

/-- BACKGROUND_OPERATION_DONE. -/
def execBackgroundOperationDone (fn : Fin 36) (s : State) : Out :=
  match (s.cmdLd fn.val).background with
  | some (op, false) => .next ((s.updCmdLd fn.val fun c => { c with background := some (op, true) }).emit (.background fn.val op.toNat))
  | _ => .next s

end Sys2Proof.Machine
end

