-- ==== Sys2Proof/Machine/FmApi.lean ====
section
/-! DEFINITION. The FM-API commands (14 R341; 12 R310, R311; 11 R285, R286), the tier commands (14 Table — Tier, shadow and restore
commands; 02 R461) and the margin report (18 R435). -/

namespace Sys2Proof.Machine

/-! ### LD information and allocations -/

/-- GET_LD_INFO: capacity in bytes and number of LDs. -/
def execGetLdInfo (m : Msg) (s : State) : Out :=
  s.std 0x5400 onFmApi m fun s => .done rcSuccess [s.last.hostPages * 4096, s.nLds] s

/-- GET_LD_ALLOCATIONS: number of LDs, granularity in bytes, then the allocations asked for. -/
def execGetLdAllocations (m : Msg) (start : Byte) (limit : Byte) (s : State) : Out :=
  s.std 0x5401 onFmApi m fun s =>
    if start.toNat ≥ s.nLds then .done rcInvalidInput [] s
    else
      let l := ((List.range s.nLds).drop start.toNat).take limit.toNat
      .done rcSuccess ([s.nLds, block * 4096, start.toNat, l.length] ++ l.map fun n => (s.fn n).allocation) s

/-- A static entry of an allocation. One that the region table names as the LD's static partition is durable again (DEDUCED, log 78). -/
def State.staticEntry (s : State) (ld : Nat) (x : Extent) : MapEntry :=
  let old := (s.map ld).find? fun e => !e.dc && decide (e.ldBase = x.ldDpn) && decide (e.devBase = x.devDpn) && decide (e.pages = x.pages)
  let durable := match old with
    | some e => e.durable
    | none => s.image.regions.any fun r => r.region.isNone && decide (r.ld.val = ld) && decide (r.devDpn = x.devDpn) && decide (r.pages = x.pages)
  { ldBase := x.ldDpn, devBase := x.devDpn, pages := x.pages, valid := true, shared := x.shared, poisonUnw := x.poisonUnwritten, durable
    dc := false, region := 0, tag := 0 }

/-- The map of an LD as an allocation sets it: new static entries, the extents as they are. -/
def State.allocMap (s : State) (ld : Nat) (es : Option (List Extent)) : List MapEntry :=
  match es with
  | none => s.map ld
  | some l => l.map (s.staticEntry ld) ++ s.extents ld

/-- Entries that hold capacity for LDs without being in a map: adds, restored extents and allocations that wait. -/
def State.waitingEntries (s : State) : List (Nat × MapEntry) :=
  s.cmd.adds.map (fun a => (a.1.val, s.addedEntry a.2)) ++ (s.heldEntries.map fun r => (r.ld.val, offeredEntry r))
    ++ s.cmd.removals.flatMap fun r => r.follow.map fun p => (p.1.val, p.2)

/-- The maps with those of an allocation put in. -/
def newMaps (s : State) (news : List (Nat × List MapEntry)) : List (Nat × List MapEntry) :=
  (List.range s.nLds).map fun n => match news.find? fun p => decide (p.1 = n) with | some p => p | none => (n, s.map n)

/-- A new entry keeps clear of what waits for an LD (02 R27), but for the LD's own static partition set again. -/
def State.clearOfWaiting (s : State) (ld : Nat) (e : MapEntry) : Bool :=
  s.waitingEntries.all fun p => sharingOk e p.2 || (decide (p.1 = ld) && !e.dc && decide (p.2.devBase = e.devBase) && decide (p.2.pages = e.pages))

/-- Every rule of an allocation. -/
def State.allocOk (s : State) (news : List (Nat × List MapEntry)) : Bool :=
  let maps := newMaps s news
  news.all (fun p => decide (p.2.length ≤ 256) && mapOk p.2 &&
      p.2.all fun e => s.entryOk e && ((s.map p.1).contains e || (!s.leaving e && s.clearOfWaiting p.1 e)))
    && news.all fun p => maps.all fun q => decide (p.1 = q.1) || p.2.all fun e => q.2.all fun x => sharingOk e x

/-- An allocation that makes the non-DC capacity exceed the pool less the RESERVE threshold is refused (03 R68). -/
def State.poolHolds (s : State) (news : List (Nat × List MapEntry)) : Bool :=
  let after := nonDcPages ((newMaps s news).flatMap (·.2))
  decide (after ≤ s.tier.poolFrames - s.reserveFrames) || decide (after ≤ nonDcPages ((List.range s.nLds).flatMap s.map))

/-- The entries that an allocation takes from LDs. -/
def State.allocGone (s : State) (news : List (Nat × List MapEntry)) : List (Fin 32 × MapEntry) :=
  news.flatMap fun p => ((s.map p.1).filter fun e => !p.2.contains e).map fun e => (Fin.ofNat 32 p.1, e)

/-- The new entries that lie on capacity which another LD gives up in the same command: they wait for its return to UNWRITTEN (02 R27). -/
def State.allocWait (s : State) (news : List (Nat × List MapEntry)) : List (Fin 32 × MapEntry) :=
  news.flatMap fun p => (p.2.filter fun e => !(s.map p.1).contains e &&
    (s.allocGone news).any fun g => decide (g.1.val ≠ p.1) && devOverlap e g.2).map fun e => (Fin.ofNat 32 p.1, e)

/-- The maps of an allocation as far as they may stand at once. -/
def State.setMaps (s : State) (news : List (Nat × List MapEntry)) : State :=
  let wait := s.allocWait news
  news.foldl (fun s p => s.setMap p.1 (p.2.filter fun e => !wait.contains (Fin.ofNat 32 p.1, e))) s

/-- Allocations and bindings of the LDs named. -/
def State.allocate (s : State) (l : List (Nat × Nat)) : State :=
  l.foldl (fun s p =>
    let s := s.updFn p.1 fun f => { f with allocation := p.2 }
    (if p.2 = 0 then s else s.attach p.1).bind p.1) s

/-- SET_LD_ALLOCATIONS (12 R310, R311). -/
def execSetLdAllocations (m : Msg) (start : Byte) (allocs : List (Nat × Option (List Extent))) (s : State) : Out :=
  s.std 0x5402 onFmApi m fun s =>
    let l := allocs.zipIdx.map fun p => (start.toNat + p.2, p.1)
    let news := l.map fun p => (p.1, s.allocMap p.1 p.2.2)
    if l.any fun p => !s.hasLd p.1 then .done rcInvalidInput [] s
    else if !s.allocOk news then .done rcInvalidInput [] s
    else if !s.poolHolds news then .done rcNoResource [] s
    else
      let gone := s.allocGone news
      let wait := s.allocWait news
      .later (((s.setMaps news).allocate (l.map fun p => (p.1, p.2.1))).removeEntries m 0x5402 gone wait)

/-! ### QoS (11 R285, R286) -/

def execGetQosControl (m : Msg) (ld : Byte) (s : State) : Out :=
  s.std 0x5403 onFmApi m fun s =>
    if !s.hasLd ld.toNat then .done rcInvalidInput [] s else .done rcSuccess [(Tab.get (fun _ => (3 : Byte)) s.reg.telemetry ld.toNat).toNat] s

def execSetQosControl (m : Msg) (ld : Byte) (ctl : Byte) (s : State) : Out :=
  s.std 0x5404 onFmApi m fun s =>
    if !s.hasLd ld.toNat then .done rcInvalidInput [] s
    else .done rcSuccess [] (s.mapReg fun r => { r with telemetry := Tab.set (fun _ => (3 : Byte)) ld.toNat ctl r.telemetry })

/-- GET_QOS_STATUS: the average of the backpressure, which the spec does not give: a free value (log 84). -/
def execGetQosStatus (m : Msg) (ld : Byte) (s : State) : Out :=
  s.std 0x5405 onFmApi m fun s =>
    if !s.hasLd ld.toNat then .done rcInvalidInput [] s
    else let (n, s) := s.draw; .done rcSuccess [(Config.freeByte n).toNat] s

/-- Fractions of a range of LDs. -/
def State.fractions (s : State) (start number : Nat) (f : Master → Nat) : List Nat :=
  (((List.range s.nLds).drop start).take number).map fun n => f (s.configured n)

def State.qosGet (s : State) (op : Nat) (m : Msg) (start number : Byte) (f : Master → Nat) : Out :=
  s.std op onFmApi m fun s =>
    if start.toNat ≥ s.nLds then .done rcInvalidInput [] s
    else
      let l := s.fractions start.toNat number.toNat f
      .done rcSuccess ([l.length, start.toNat] ++ l) s

def execGetQosAllocatedBw (m : Msg) (start : Byte) (number : Byte) (s : State) : Out :=
  s.qosGet 0x5406 m start number fun x => qosFracRead x.minRead s.reg.usable

def execGetQosBwLimit (m : Msg) (start : Byte) (number : Byte) (s : State) : Out :=
  s.qosGet 0x5408 m start number fun x => qosFracBudget x.budget s.reg.usable

/-- Settings of consecutive LDs from fractions, admitted as one (R281). -/
def State.qosSet (s : State) (op : Nat) (m : Msg) (start : Byte) (fractions : List W16) (f : Nat → Master → Master) : Out :=
  s.std op onFmApi m fun s =>
    let news := fractions.zipIdx.map fun p => (start.toNat + p.2, f p.1.toNat (s.configured (start.toNat + p.2)))
    if (news.any fun p => !s.hasLd p.1 || !settingOk p.1 p.2) ∨ (fractions.any fun x => decide (x.toNat > 256)) then .done rcInvalidInput [] s
    else if !s.admits news then .done rcInvalidInput [] s.rejectAdmission
    else .done rcSuccess [] (s.setPending news)

def execSetQosAllocatedBw (m : Msg) (start : Byte) (fractions : List W16) (s : State) : Out :=
  s.qosSet 0x5407 m start fractions fun x c => { c with minRead := qosMinRead x s.reg.usable, minWrite := 0 }

def execSetQosBwLimit (m : Msg) (start : Byte) (fractions : List W16) (s : State) : Out :=
  s.qosSet 0x5409 m start fractions fun x c => { c with budget := qosBudget x s.reg.usable }

/-! ### Heads (12 R289, R291) -/

/-- GET_MULTI_HEADED_INFO: LDs, heads, and the head of each LD (0xFF: none). -/
def execGetMultiHeadedInfo (m : Msg) (s : State) : Out :=
  s.std 0x5500 onFmApi m fun s =>
    .done rcSuccess ([s.nLds, s.nHeads] ++ (List.range s.nLds).map fun n => match (s.fn n).head with | some h => h.val | none => 0xFF) s

/-- A head: port, widest width, width, highest rate, rate, link up. -/
def State.headInfo (s : State) (h : Nat) : List Nat :=
  let l := (s.headOf h).link
  [portOfHead h, s.fullWidth h, match l with | some x => x.width.val | none => 0, gts (Fin.ofNat 4 (s.headCap h))
   , match l with | some x => gts x.rate | none => 0, if (s.headOf h).up then 1 else 0]

def execGetHeadInfo (m : Msg) (start : Byte) (number : Byte) (s : State) : Out :=
  s.std 0x5501 onFmApi m fun s =>
    let l := ((List.range s.nHeads).drop start.toNat).take number.toNat
    if start.toNat ≥ s.nHeads then .done rcInvalidInput [] s else .done rcSuccess (l.length :: l.flatMap s.headInfo) s

/-! ### Dynamic capacity of the fabric manager (02 R25, R27; 03 R69; 09 R214; 10 R262) -/

/-- GET_DCD_INFO: hosts, regions, capacity in bytes, block size. -/
def execGetDcdInfo (m : Msg) (s : State) : Out :=
  s.std 0x5600 onFmApi m fun s => .done rcSuccess [s.nLds, 8, s.last.hostPages * 4096, block * 4096] s

def execGetHostDcRegionConfiguration (m : Msg) (ld : Byte) (start : Byte) (number : Byte) (s : State) : Out :=
  s.std 0x5601 onFmApi m fun s =>
    if !s.hasLd ld.toNat ∨ start.toNat > 7 then .done rcInvalidInput [] s
    else .done rcSuccess ([8, s.extentRoom ld.toNat] ++ s.regionInfo start.toNat number.toNat) s

/-- SET_DC_REGION_CONFIGURATION: the block size is 256 MiB (12 R291); a region that holds an extent keeps its configuration (PRESUMED,
log 81). -/
def execSetDcRegionConfiguration (m : Msg) (region : Byte) (blockSize : W64) (sanitizeOnRelease : Bool) (s : State) : Out :=
  s.std 0x5602 onFmApi m fun s =>
    let r := region.toNat
    if r > 7 ∨ blockSize.toNat ≠ block * 4096 ∨ s.regionHolds r then .done rcInvalidInput [] s
    else .done rcSuccess [] (s.updRegion r fun x => { x with blockSize, sanitize := sanitizeOnRelease })

def execGetDcRegionExtentLists (m : Msg) (ld : Byte) (start : W32) (count : W32) (s : State) : Out :=
  s.std 0x5603 onFmApi m fun s =>
    if !s.hasLd ld.toNat ∨ start.toNat > (s.extents ld.toNat).length then .done rcInvalidInput [] s
    else .done rcSuccess (s.extentList ld.toNat start.toNat count.toNat) s

/-- An add breaks no rule of the maps. -/
def State.addOk (s : State) (ld : Nat) (e : MapEntry) : Bool :=
  let all := ((List.range s.nLds).flatMap fun n => (s.map n).map fun x => (n, x)) ++ s.waitingEntries
  s.entryOk e && all.all fun p => sharingOk e p.2 && (decide (p.1 ≠ ld) || lookupOk e p.2)

/-- INITIATE_DYNAMIC_CAPACITY_ADD: the extent is offered to the LD. Refused under pool pressure (R69), durable capacity without an image
(R214). -/
def execInitiateDynamicCapacityAdd (m : Msg) (ld : Byte) (e : Extent) (s : State) : Out :=
  s.std 0x5604 onFmApi m fun s =>
    let n := ld.toNat
    let x := s.addedEntry e
    if !s.hasLd n then .done rcInvalidInput [] s
    else if s.tier.freeFrames ≤ s.pressureFrames ∨ (x.durable ∧ s.shadowState = 0)
        ∨ (s.map n).length + (s.cmd.adds.filter fun a => decide (a.1.val = n)).length ≥ 256 then .done rcNoResource [] s
    else if !s.addOk n x then .done rcInvalidInput [] s
    else if s.leaving x then .done rcBusy [] s
    else
      let l : Fin 32 := Fin.ofNat 32 n
      let s := s.mapCmd fun c => { c with adds := c.adds ++ [(l, e)] }
      .done rcSuccess [] (if s.offersReach n then s.emit (.offer l (e.ldDpn.toNat * 4096) (e.pages.toNat * 4096) e.tag e.region.val) else s)

/-- INITIATE_DYNAMIC_CAPACITY_RELEASE: an extent of a map, or one that waits for its LD (10 R263). -/
def execInitiateDynamicCapacityRelease (m : Msg) (ld : Byte) (tag : BitVec 128) (s : State) : Out :=
  s.std 0x5605 onFmApi m fun s =>
    let n := ld.toNat
    let mine (o : Fin 32 × RegionEntry) : Bool := decide (o.1.val = n) && decide (o.2.tag = tag)
    let es := (s.extents n).filter fun e => decide (e.tag = tag)
    let held := (s.cmd.offers ++ s.cmd.declined).filter mine
    let adds := s.cmd.adds.filter fun a => decide (a.1.val = n) && decide (a.2.tag = tag)
    if !s.hasLd n ∨ (es.isEmpty ∧ held.isEmpty ∧ adds.isEmpty) then .done rcInvalidInput [] s
    else
      let s := s.mapCmd fun c => { c with offers := c.offers.filter (fun o => !mine o), declined := c.declined.filter (fun o => !mine o)
                                          adds := c.adds.filter fun a => !adds.contains a }
      .later (s.removeEntries m 0x5605 ((es ++ held.map fun o => offeredEntry o.2).map fun e => (Fin.ofNat 32 n, e)))

/-! ### Tier commands -/

/-- TIER_POLICY, TIER_WATERMARK and TIER_RATE from their words; none breaks a limit. -/
def tierPolicyOf (w : W64) : Option TierPolicy :=
  let p : TierPolicy := { sampleShift := fld w 0 3, promoteThreshold := fld w 8 8, decayMs := fld w 16 16, demoteMaxHeat := fld w 32 8
                          demoteMinGain := fld w 40 6 }
  if 1 ≤ p.decayMs ∧ p.decayMs ≤ 60000 ∧ 1 ≤ p.demoteMinGain then some p else none

def tierWatermarkOf (pool : Nat) (w : W64) : Option TierWatermark :=
  let p : TierWatermark := { freeHigh := fld w 0 10, freeLow := fld w 10 10, pressure := fld w 20 10, reserve := fld w 30 10, pinLimit := fld w 40 10 }
  if watermarkOk pool p then some p else none

def tierRateOf (w : W64) : Option TierRate :=
  let p : TierRate := { sweepBw := fld w 0 16, releaseRetryMs := fld w 16 16 }
  if 1 ≤ p.sweepBw ∧ p.sweepBw ≤ 256 ∧ 10 ≤ p.releaseRetryMs ∧ p.releaseRetryMs ≤ 10000 then some p else none

/-- SET_TIER_POLICY: the registers that MASK names, as one. -/
def execSetTierPolicy (m : Msg) (mask : Byte) (policy : W64) (watermark : W64) (rate : W64) (s : State) : Out :=
  s.slafin { op := 0xC010, roles := rBmcOwn, sess := false, l0 := false, secure := false, inLen := 32, body := 0 } m fun s =>
    let p := if mask.getLsbD 0 then tierPolicyOf policy else some s.tier.policy
    let w := if mask.getLsbD 1 then tierWatermarkOf s.tier.poolFrames watermark else some s.tier.watermark
    let r := if mask.getLsbD 2 then tierRateOf rate else some s.tier.rate
    match p, w, r with
    | some p, some w, some r => .done stOk [] (s.mapTier fun t => { t with policy := p, watermark := w, rate := r }).afterFree.wake
    | _, _, _ => .done stInvalidRange [] s

/-- SET_RANGE_ATTR: whole capacity map entries. -/
def execSetRangeAttr (m : Msg) (ld : Byte) (poisonUnwritten : Byte) (devDpn : W32) (pages : W32) (s : State) : Out :=
  s.slafin { op := 0xC011, roles := rFm, sess := false, l0 := false, secure := false, inLen := 12, body := 0 } m fun s =>
    let n := ld.toNat
    let a := devDpn.toNat
    let inside (e : MapEntry) : Bool := e.valid && decide (a ≤ e.devBase.toNat) && decide (e.devBase.toNat + e.pages.toNat ≤ a + pages.toNat)
    let es := (s.map n).filter inside
    if !s.hasLd n ∨ poisonUnwritten.toNat > 1 ∨ pagesOf es ≠ pages.toNat ∨ es.isEmpty then .done stInvalidRange [] s
    else
      let s := s.setMap n ((s.map n).map fun e => if inside e then { e with poisonUnw := decide (poisonUnwritten = 1) } else e)
      .done stOk [] (s.mapShank fun k => { k with regionDirty := true })

/-- Every page of a range lies in one of some entries. -/
def coversRange (es : List MapEntry) (stop : Nat) : Nat → Nat → Bool
  | 0, pos => decide (pos ≥ stop)
  | fuel + 1, pos =>
    if pos ≥ stop then true
    else match es.find? fun e => e.holdsDev pos with
      | some e => coversRange es stop fuel (e.devBase.toNat + e.pages.toNat)
      | none => false

/-- A page's new OWNER, in its entry and in the record of a hot frame. A span that its page breaks is formed again when all follow. -/
def State.setOwner (s : State) (d : Dpn) (owner : BitVec 12) : State :=
  let s := s.breakSpan d
  let e := s.entry d
  let s := s.putEntry d { e with owner }
  let hot (s : State) (f : Nat) : State := if (s.frameRec f).kind = .hot then s.updFrameRec f fun r => { r with owner } else s
  let s := if e.hotForm then hot s e.frame.toNat else s
  let s := match s.trackerOf d with
    | some (_, t) => match t.dest with | some f => hot s f.toNat | none => s
    | none => s
  s.formSpan d

/-- SET_PAGE_OWNER: pages of the range that are not UNWRITTEN (an UNWRITTEN page has no owner). -/
def execSetPageOwner (m : Msg) (devDpn : W32) (pages : W32) (owner : W16) (s : State) : Out :=
  s.slafin { op := 0xC012, roles := rFmOwn, sess := false, l0 := false, secure := false, inLen := 10, body := 0 } m fun s =>
    let a := devDpn.toNat
    let b := a + pages.toNat
    let es := if owner = 0 then (List.range s.nLds).flatMap s.ldMap else s.ldMap (owner.toNat - 1)
    let mine := (s.last.table.keys.filter fun d => decide (a ≤ d) && decide (d < b)).map (BitVec.ofNat 32)
    if owner.toNat > s.nLds ∨ !coversRange es b (es.length + 1) a then .done stInvalidRange [] s
    else if mine.any fun d => decide ((s.entry d).state = .restoring) then .done stBusy [] s
    else .done stOk [] ((mine.filter fun d => decide ((s.entry d).state ≠ .unwritten)).foldl (fun s d => s.setOwner d (owner.setWidth 12)) s).wake

/-! ### SET_HOST_CAPACITY (02 R40, R461; 06 R152) -/

/-- G_spare for the policy in force. -/
def State.spareGroupsNow (s : State) : Nat := spareGroups s.w s.rawFrames s.welt.policy.sparePermille

/-- Groups of the pool for a host capacity and the SPARE_PERMILLE in force. -/
def State.poolFor (s : State) (pages : Nat) : Nat :=
  s.groups - (metaGroups s.w s.rawFrames pages + Config.queueGroups + s.spareGroupsNow)

/-- Moves what a frame holds to another frame, ciphertext and side bits as content; a span of its page is broken first (R48). -/
def State.moveFrame (s : State) (f g : Nat) : State :=
  let r := s.frameRec f
  let s := (List.range 64).foldl (fun s l =>
    match s.lineContent f l with
    | some x => if metaWritten (sideMeta x.side) then s.writeLine g l x.data (sideMeta x.side) else s
    | none => s.poisonLine g l (if r.kind = .bin then kindGranule else kindData)) s
  let s := s.setFrameRec g r
  let s := r.dpns.foldl (fun s d => let s := s.breakSpan d; s.putEntry d { s.entry d with frame := BitVec.ofNat 32 g }) s
  s.setFrameRec f frameReset

/-- FREE_FRAMES of the pool as it now is. -/
def State.recountFree (s : State) : State :=
  let g := min s.poolGroups s.resume.initGroups
  let used := (s.last.frames.filter fun p => decide (groupOf s.w p.1 < g) && decide (p.2.kind ≠ .free) && decide (s.place p.1 = .at p.1)).length
  let out := (s.welt.units.filterMap fun p => p.2.map fun u => s.freeOn u.scope).sum
  let all := g * (s.w - 1) - used - out
  let e := min s.tier.emergencyBins all
  s.mapTier fun t => { t with emergencyBins := e, freeFrames := all - e }

/-- The reconfiguration: metadata region and spare reserve take their places, and frames that leave the pool are emptied first. Groups
that join it are zero-filled within the command. -/
def State.reconfigure (s : State) (pages : Nat) : State :=
  let pool := s.poolFor pages
  let moving := (s.last.frames.filter fun p => decide (groupOf s.w p.1 ≥ pool) && (decide (p.2.kind = .hot) || decide (p.2.kind = .bin))).map (·.1)
  let s := (moving.flatMap fun f => (s.frameRec f).dpns).foldl State.abandon s
  let s := s.mapLast fun l => { l with hostPages := pages }
  let s := s.mapWelt fun w => { w with spareFrames := s.spareGroupsNow * (s.w - 1) }
  let s := moving.foldl (fun (s : State) f => match s.pickFree 0 with | some g => s.moveFrame f g | none => s) s
  let s := s.mapResume fun r => { r with initGroups := if r.initDone then s.poolGroups else min r.initGroups s.poolGroups }
  let s := s.mapTier fun t => { t with poolFrames := s.poolGroups * (s.w - 1) }
  s.recountFree.afterFree

/-- SET_HOST_CAPACITY. -/
def execSetHostCapacity (m : Msg) (pages : W32) (s : State) : Out :=
  s.slafin { op := 0xC013, roles := rFmBmcOwn, sess := false, l0 := false, secure := false, inLen := 4, body := 0 } m fun s =>
    -- 4,294,967,296 does not fit the field and is written as 0 (DEDUCED, log 85)
    let p := if pages = 0 then 4294967296 else pages.toNat
    let used := (s.last.frames.filter fun q => decide (q.2.kind = .hot) || decide (q.2.kind = .bin)).length
    if !s.boundLds.isEmpty ∨ (s.last.maps.any fun q => q.2.any (·.valid)) then .done stDenied [] s
    else if p % block ≠ 0 ∨ p > maxHostPages s.ev8820 ∨ s.poolFor p * (s.w - 1) ≤ used then .done stInvalidRange [] s
    else .done stOk [] (s.reconfigure p).wake

/-! ### The margin report (18 R435) -/

/-- 4 bytes of a head, module or drive port. -/
def linkBytes (rate width margin : Nat) : List Byte := leNat 1 rate ++ leNat 1 width ++ leNat 1 margin ++ zeros 1

def State.marginReport (s : State) : List Byte :=
  let q := s.power
  let head := leNat 2 1 ++ leNat 1 q.kind.val ++ zeros 1 ++ leBytes 4 q.hours ++ leNat 8 q.reportTime ++ leNat 2 q.vcoreMv ++ leNat 2 q.slackPs
    ++ leNat 2 q.roSlow ++ leNat 2 (if q.hubDerated then 1500 else 1600) ++ zeros 8
  let chans := (List.range 12).flatMap fun c =>
    let x := s.chan c
    let mg := Tab.get (fun _ => (0, 0)) q.margins c
    if s.hasChannel c ∧ x.dimm.isSome then
      leNat 2 x.rate ++ leNat 1 (Tab.get (fun _ => 0) q.derateCh c) ++ leNat 1 mg.1 ++ leNat 1 mg.2 ++ zeros 3
    else zeros 8
  let heads := (List.range 4).flatMap fun h => match (s.headOf h).link with
    | some l => linkBytes (gts l.rate) l.width.val l.margin
    | none => zeros 4
  let laces := (List.range 4).flatMap fun k =>
    let x := s.laceMod k
    if x.state = 2 then linkBytes (match x.rate with | 0 => 32 | 1 => 24 | 2 => 16) (if x.half then 32 else 64) x.margin else zeros 4
  let drives := (List.range 4).flatMap fun n =>
    let x := s.drive n
    if x.speed ≠ 0 then linkBytes (2 ^ x.speed.val) (if x.x8 then 8 else 4) x.margin else zeros 4
  head ++ chans ++ heads ++ laces ++ drives ++ zeros 16

/-- GET_MARGIN_REPORT. -/
def execGetMarginReport (m : Msg) (s : State) : Out :=
  s.slafin { op := 0xC0A0, roles := rAll, sess := false, l0 := false, secure := false, inLen := 0, body := 192 } m fun s =>
    .done stOk s.marginReport s

end Sys2Proof.Machine
end

