-- ==== Sys2Proof/Machine/Worlds.lean ====
section
/-! DEFINITION. The two worlds (15): firmware images, restarts, watchdogs, internal memory, gate requests; the SPDM responder, MCTP
control and the DOE of an LD (12 R301, R303; 14 R360). -/

namespace Sys2Proof.Machine

/-! ### Firmware images (R383) -/

/-- The package of a slot: A is slot 1, B slot 2. -/
def State.slotFw (s : State) (b : Bool) : Option FwPackage := if b then s.world.fwB else s.world.fwA

def slotNo (b : Bool) : Nat := if b then 2 else 1

/-- Both images carry an SVN that the fuses accept. -/
def State.svnOk (s : State) (p : FwPackage) : Bool :=
  decide (p.secureSvn.toNat ≥ s.world.svnSecure.toNat) && decide (p.normalSvn.toNat ≥ s.world.svnNormal.toNat)

/-- An image is accepted when its signature verifies and its SVN is at least the fused one. -/
def State.fwOk (s : State) (p : FwPackage) : Bool :=
  Config.ecdsaOk p.secureDigest p.secureSignature && Config.ecdsaOk p.normalDigest p.normalSignature && s.svnOk p

/-- Digest of the secure image of a slot. -/
def State.secureDigest (s : State) (b : Bool) : BitVec 384 := match s.slotFw b with | some p => p.secureDigest | none => 0

/-- A firmware command runs in the normal world; with no acceptable package the boot ROM takes it on two paths only (R383). -/
def State.fwTaken (s : State) (m : Msg) (op : Nat) : Bool :=
  if s.world.noFirmware then
    match m.path with
    | .mailbox ld false => decide (s.boundLds.head? = some ld.val)
    | .mctpBmc => true
    | _ => false
  else s.arrives m op

/-- A firmware command: not taken, unsupported on its path, or run. -/
def State.fwRun (s : State) (op : Nat) (m : Msg) (act : State → StdResult) : Out :=
  if !s.fwTaken m op then .next s
  else if !s.world.noFirmware ∧ !onMailbox m.path then .next (s.respStd m op rcUnsupported [])
  else match act s with
    | .done code body s => .next (s.respStd m op code body)
    | .later s => .next s

/-- GET_FW_INFO: slots, the active slot, the slot of the next reset, online activation. -/
def execGetFwInfo (m : Msg) (s : State) : Out :=
  s.std 0x0200 onMailbox m fun s => .done rcSuccess [2, slotNo s.world.activeB, slotNo s.world.nextB, 1] s

/-- The secure world judges an image; it may be away (R376, R380). The boot ROM judges it where there is no firmware. -/
def State.judgeAway (s : State) : Option W16 :=
  if s.world.noFirmware then none
  else match s.world.secure with | .up => none | .restarting => some rcBusy | .down => some rcNoResource

/-- TRANSFER_FW: one whole package into the slot that is not active; with no firmware either slot is not active. -/
def execTransferFw (m : Msg) (slot : Byte) (p : FwPackage) (s : State) : Out :=
  s.fwRun 0x0201 m fun s =>
    match s.judgeAway with
    | some code => .done code [] s
    | none =>
      let b := decide (slot = 2)
      if (slot ≠ 1 ∧ slot ≠ 2) ∨ (!s.world.noFirmware ∧ b = s.world.activeB) ∨ s.world.staged.isSome then .done rcInvalidSlot [] s
      else if !s.fwOk p then .done rcVerifyFailed [] s
      else .done rcSuccess [] (s.mapWorld fun w => if b then { w with fwB := some p } else { w with fwA := some p })

/-- A command of the channel service group is running. -/
def State.channelService (s : State) : Bool :=
  (s.ddr.chans.any fun p => p.2.quiesceWait.isSome || p.2.rejoinWait.isSome || p.2.rateDeferred.isSome) || s.lace.mods.any fun p => p.2.pointWait.isSome

/-- What keeps an online activation out (R381). -/
def State.activationBusy (s : State) : Bool :=
  s.inSave || s.inResume || s.channelService || ((List.range 37).any s.backgroundRuns) || s.world.activatedBy.isSome

/-- ACTIVATE_FW: offline for the next reset, or online: the secure image first when it changes, then the normal one. The answer of an
online activation leaves when the new normal image runs. -/
def execActivateFw (m : Msg) (online : Bool) (slot : Byte) (s : State) : Out :=
  s.fwRun 0x0202 m fun s =>
    let b := decide (slot = 2)
    if slot ≠ 1 ∧ slot ≠ 2 then .done rcInvalidSlot [] s
    else match s.slotFw b with
      | none => .done rcInvalidSlot [] s
      | some p =>
        if !online then .done rcSuccess [] (s.mapWorld fun w => { w with nextB := b })
        else if s.world.noFirmware then .done rcUnsupported [] s
        else match s.judgeAway with
          | some code => .done code [] s
          | none =>
            if s.activationBusy then .done rcBusy [] s
            else if !s.fwOk p then .done rcVerifyFailed [] s
            else if p.manifest ≠ s.world.manifest then .done rcInvalidInput [] s
            else
              let s := s.mapWorld fun w => { w with staged := some b, activatedBy := some m }
              if p.secureDigest ≠ s.secureDigest s.world.secureB then .later (s.secureRestart 4)
              else .later (s.l2NormalOut.mapWorld fun w => { w with normal := .restarting }).supplyHeartbeat

/-! ### Restarts (R376 to R382) -/

/-- M := SHA-384(M ‖ D ‖ C ‖ N), with the restart count that it makes (R377). -/
def State.extendM (s : State) (b : Bool) : State :=
  let n := s.world.restarts + 1
  let bytes := leBytes 48 s.world.m ++ leBytes 48 (s.secureDigest b) ++ leNat 1 s.world.cause ++ leBytes 4 n
  s.mapWorld fun w => { w with restarts := n, m := Config.sha384 bytes }

/-- Step 5: commands that the secure world had taken and not completed end with BUSY_SECURE_RESTART. -/
def State.endSecureCommands (s : State) : State :=
  (s.keys.slots.map (·.1)).foldl (fun (s : State) k =>
    let x := s.slot k
    let s := s.updSlot k fun y => { y with waiters := [], tspWaiters := [] }
    let s := x.waiters.foldl (fun s m => s.reply m 0xC091 stBusySecure []) s
    x.tspWaiters.foldl (fun s ld => s.emit (.tsp ld "busy" [stBusySecure.toNat])) s) s

/-- An activation ends without its effect. -/
def State.failActivation (s : State) : State :=
  let by_ := s.world.activatedBy
  let s := s.mapWorld fun w => { w with staged := none, activatedBy := none }
  match by_ with | some m => s.respStd m 0x0202 rcActivationFailed [] | none => s

/-- The slot that the boot ROM loads: the first choice, else the other one; an image below its fused SVN fails too (R380, R383). -/
def State.chosenSlot (s : State) (first : Bool) (firstOk otherOk : Bool) : Option Bool :=
  let ok (b : Bool) (v : Bool) : Bool := v && match s.slotFw b with | some p => s.svnOk p | none => false
  if ok first firstOk then some first else if ok (!first) otherOk then some (!first) else none

/-- The secure world at bring-up: the package is chosen and the assignment locked (18 R430 steps 3, R367). With no acceptable package the
device has no firmware (R383): configuration space answers, and no pool comes up. -/
def State.secureBringup (s : State) (activeOk otherOk inTime : Bool) : State :=
  match s.chosenSlot s.world.activeB activeOk otherOk with
  | none =>
    let s := s.mapWorld fun w => { w with noFirmware := true, secure := .down, normal := .down }
    (s.mapPower fun p => { p with bringup := 6 }).mapResume fun r => { r with tableZeroed := false }
  | some b =>
    let s := s.mapWorld fun w =>
      { w with activeB := b, secureB := b, noFirmware := false, assignLock := true, imageStart := s.time, secureStart := s.time
               manifest := match s.slotFw b with | some p => p.manifest | none => 0 }
    let s := s.mapPower fun p => { p with bringup := 3 }
    if s.world.secure = .down then s
    else if inTime then s.mapWorld fun w => { w with secure := .up } else s.secureDown

/-- The secure world after a restart. `activeOk` is the image tried first: the staged one where an activation changes it. -/
def State.secureRestarted (s : State) (activeOk otherOk inTime : Bool) : State :=
  let staged := if s.world.cause = 4 then s.world.staged else none
  let first := staged.getD s.world.secureB
  let s := s.endSecureCommands
  match s.chosenSlot first activeOk otherOk with
  | none => s.failActivation.secureDown
  | some b =>
    let s := (s.extendM b).mapWorld fun w => { w with secureB := b, secureStart := s.time }
    if !inTime then s.failActivation.secureDown
    else
      let s := (s.mapWorld fun w => { w with secure := .up }).supplyHeartbeat
      match s.world.staged with
      | none => s
      | some t =>
        if s.secureDigest b ≠ s.secureDigest t then s.failActivation
        else if s.world.normal ≠ .up then s
        else (s.l2NormalOut.mapWorld fun w => { w with normal := .restarting }).supplyHeartbeat

/-- SECURE_WORLD_READY. -/
def execSecureWorldReady (activeOk otherOk inTime : Bool) (s : State) : Out :=
  if s.power.bringup = 2 then .next (s.secureBringup activeOk otherOk inTime).wake
  else if s.world.secure = .restarting ∧ s.power.bringup ≥ 3 then .next (s.secureRestarted activeOk otherOk inTime).wake
  else .next s

/-- After a recovery restart the commands that the normal world had taken end with BUSY; what they started goes on (R382). -/
def State.endNormalCommands (s : State) : State :=
  let s := (List.range 12).foldl (fun (s : State) c =>
    let x := s.chan c
    let s := s.updChan c fun y => { y with rateDeferred := none, quiesceWait := none, rejoinWait := none }
    let s := x.rateDeferred.toList.foldl (fun s m => s.reply m.1 0xC083 stBusy []) s
    let s := x.quiesceWait.toList.foldl (fun s m => s.reply m 0xC081 stBusy []) s
    x.rejoinWait.toList.foldl (fun s m => s.reply m 0xC082 stBusy []) s) s
  let s := (List.range 4).foldl (fun (s : State) k =>
    let x := (s.laceMod k).pointWait
    let y := (s.headOf k).rateWait
    let s := (s.updLaceMod k fun z => { z with pointWait := none }).updHeadOf k fun z => { z with rateWait := none }
    let s := x.toList.foldl (fun s m => s.reply m.1 0xC084 stBusy []) s
    y.toList.foldl (fun s m => s.reply m.2 0xC0A1 stBusy []) s) s
  let s := (s.keys.slots.map (·.1)).foldl (fun (s : State) k =>
    let x := (s.slot k).waiters
    x.foldl (fun s m => s.reply m 0xC091 stBusy []) (s.updSlot k fun y => { y with waiters := [] })) s
  let s := (s.poq.ctxs.map (·.1)).foldl (fun (s : State) k =>
    match s.ctx k with
    | some c => c.destroyer.toList.foldl (fun s m => s.reply m 0xC041 stBusy []) (s.setCtx k (some { c with destroyer := none }))
    | none => s) s
  let removals := s.cmd.removals
  let lines := s.cmd.lineJobs
  let s := s.mapCmd fun c => { c with removals := c.removals.map fun r => { r with m := none }, lineJobs := [] }
  let s := removals.foldl (fun s r => r.m.toList.foldl (fun s m => s.respStd m r.op rcBusy []) s) s
  let s := lines.foldl (fun s j => s.respStd j.m j.op rcBusy []) s
  (List.range 512).foldl (fun (s : State) k =>
    (s.eye k).running.foldl (fun s r =>
      let (b, a, p) := r
      let slafin := decide (b.opcode.toNat ≥ 0xC000)
      s.eyeletDone (Fin.ofNat 32 (k / 16)) (Fin.ofNat 16 k) b a p (if slafin then stBusy.toNat else 0xFFFF) (if slafin then 4 else rcBusy.toNat)
        (if slafin then leNat 2 stBusy.toNat ++ zeros 2 else [])) s) s

/-- An online activation is complete: the new images are active and the command is answered (R381). -/
def State.activated (s : State) (b : Bool) : State :=
  let by_ := s.world.activatedBy
  let s := s.mapWorld fun w => { w with activeB := b, secureB := b, nextB := b, staged := none, activatedBy := none, imageStart := s.time }
  match by_ with | some m => s.respStd m 0x0202 rcSuccess [] | none => s

/-- An online activation completes the commands in execution before the new image runs (R381 step 3). -/
def State.activationWaits (s : State) : Bool :=
  s.world.staged.isSome && !s.world.recovery && s.openMsgs.any fun m => decide (s.world.activatedBy ≠ some m)

/-- NORMAL_WORLD_READY: after bring-up, an online activation or a recovery restart. The heartbeat is the normal world's again. -/
def execNormalWorldReady (s : State) : Out :=
  if s.world.normal ≠ .restarting ∨ s.power.bringup < 3 ∨ s.activationWaits then .next s
  else
    let boot := decide (s.power.bringup = 3)
    let s := s.mapWorld fun w => { w with normal := .up }
    let s := s.mapFault fun f => { f with heartbeat := true, aliveSeen := true }
    let s := if boot then s.mapPower fun p => { p with bringup := 6 } else s
    let s := if s.world.recovery then (s.mapWorld fun w => { w with recovery := false }).endNormalCommands else s
    let s := match s.world.staged, s.world.secure with
      | some b, .up => s.activated b
      | _, _ => s
    .next s.wake

/-- SECURE_WATCHDOG_EXPIRY (R375). -/
def execSecureWatchdogExpiry (s : State) : Out := if s.world.secure = .up then .next (s.secureRestart 1) else .next s

/-- NORMAL_WATCHDOG_EXPIRY: the watchdog is the secure world's. -/
def execNormalWatchdogExpiry (s : State) : Out :=
  if s.world.secure = .up ∧ s.world.normal = .up then .next s.normalRestart else .next s

/-- CORE_EXCEPTION: an exception that the core's firmware does not recover (R376 cause 2, R382). -/
def execCoreException (core : Fin 8) (s : State) : Out :=
  if (s.core core.val).1 then .next s
  else if core.val ≥ 6 then (if s.world.secure = .up then .next (s.secureRestart 2) else .next s)
  else if s.world.normal = .up then .next s.normalRestart
  else .next s

/-- SVN_RAISE: 24 h without a restart of causes 1 to 3 (R383). -/
def execSvnRaise (w : World) (s : State) : Out :=
  let fault := s.world.faultTimes.head?.getD 0
  let since (start : Nat) : Bool := decide (s.time ≥ max start fault + Config.nsDay)
  let higher (a b : W32) : W32 := if a.toNat < b.toNat then b else a
  if s.world.secure ≠ .up then .next s
  else match w with
    | .secure => match s.slotFw s.world.secureB with
      | some p => if since s.world.secureStart then .next (s.mapWorld fun x => { x with svnSecure := higher x.svnSecure p.secureSvn }) else .next s
      | none => .next s
    | .normal => match s.slotFw s.world.activeB with
      | some p => if since s.world.imageStart then .next (s.mapWorld fun x => { x with svnNormal := higher x.svnNormal p.normalSvn }) else .next s
      | none => .next s

/-! ### Internal memory and gates (R367 to R374) -/

/-- SECURE pages of the SRAM and of the DRAM region. -/
def State.securePages (s : State) (dram : Bool) : Nat :=
  (s.world.pages.filter fun p => decide (p.2 = .secure) && (decide (p.1 ≥ 4096) == dram)).length

/-- OWNER_TABLE_CHANGE: by the secure world alone, within the limits of SECURE pages; the page's lines leave the L2 first (R369). What internal memory
holds is not in the state (log 87). -/
def execOwnerTableChange (page : BitVec 21) (o : PageOwner) (s : State) : Out :=
  let n := page.toNat
  let limit := if n ≥ 4096 then 131072 else 2048
  if s.world.secure ≠ .up ∨ n ≥ internalPages then .next s
  else if o = .secure ∧ s.pageOwner n ≠ .secure ∧ s.securePages (decide (n ≥ 4096)) ≥ limit then .next s
  else .next ((s.l2Page page).setPageOwner n o)

/-- The world of a block; the always-on island is none (R367). -/
def blockWorld : HubBlock → Option World
  | .keyStore => some .secure
  | .fuses => some .secure
  | .pageOwnerTable => some .secure
  | .xspi => some .secure
  | .normalWatchdog => some .secure
  | .secureWatchdog => none
  | .mailboxes => some .normal
  | .engines => some .normal
  | .observers => some .normal
  | .powerManager => some .normal
  | .alwaysOn => none

def blockNo : HubBlock → Nat
  | .keyStore => 0
  | .fuses => 1
  | .pageOwnerTable => 2
  | .xspi => 3
  | .normalWatchdog => 4
  | .secureWatchdog => 5
  | .mailboxes => 6
  | .engines => 7
  | .observers => 8
  | .powerManager => 9
  | .alwaysOn => 10

def coreWorld (n : Nat) : World := if n ≥ 6 then .secure else .normal
def worldNo : World → Nat | .normal => 0 | .secure => 1

/-- A SECURITY record: requester, world, block, page, requested state (16 R404). -/
def securityRecord (requester world blk page state : Nat) (s : State) : State :=
  insoleOther .security [requester, world, blk, page, state] none s

/-- GATE_REQUEST (R372). -/
def execGateRequest (core : Fin 8) (b : HubBlock) (gated : Bool) (s : State) : Out :=
  if (s.core core.val).1 then .next s
  else if blockWorld b = some (coreWorld core.val) then .next (s.setGate (blockNo b) gated)
  else .next (fire 1 (securityRecord core.val (worldNo (coreWorld core.val)) (blockNo b) 0 (if gated then 1 else 0) s))

/-- Table — Page access; on an address that a normal-world message names, a secure core has normal-world rights (R374). -/
def pageAllows (r : Requester) (o : PageOwner) (write : Bool) : Bool :=
  match r, o with
  | .secureCore _, _ => true
  | .normalCore _, .secure | .secureFor _, .secure => false
  | .normalCore _, .engine | .secureFor _, .engine => !write
  | .normalCore _, _ | .secureFor _, _ => true
  | .engine, .engine => true
  | .engine, _ => false

def requesterNo : Requester → Nat
  | .normalCore n => n.val
  | .secureCore n => 6 + n.val
  | .secureFor n => 6 + n.val
  | .engine => 0xFF

/-- OWNER_VIOLATION: an access to internal memory. An allowed one of a core goes through the L2 (R371); a refused one does not reach memory and is recorded
(R368). -/
def execOwnerViolation (r : Requester) (page : BitVec 21) (write : Bool) (s : State) (line : Fin 64 := 0) : Out :=
  if page.toNat ≥ internalPages then .next s
  else if pageAllows r (s.pageOwner page.toNat) write then (if r = .engine then .next s else .next (s.l2Access page line write))
  else
    let world := match r with | .secureCore _ | .secureFor _ => 1 | _ => 0
    .next (fire 2 (securityRecord (requesterNo r) world 0 page.toNat (if write then 1 else 0) s))

/-! ### SPDM (R384, R385) -/

/-- The LD of the DOE on which a session runs; an MCTP session has none. -/
def spdmPath : Path → Bool
  | .doe _ => true
  | .mctpFm => true
  | .mctpBmc => true
  | _ => false

/-- An SPDM request: not transported, answered by an error, or run (R376, R380). -/
def State.spdmRun (s : State) (m : Msg) (act : State → State) : Out :=
  if !spdmPath m.path ∨ !s.pathHere m.path ∨ s.world.normal ≠ .up then .next s
  else match s.world.secure with
    | .restarting => .next (s.emit (.spdm m.path "error busy" []))
    | .down => .next (s.emit (.spdm m.path "error unavailable" []))
    | .up => .next (act s)

/-- After the algorithms are negotiated on the path (the order is SPDM's; PRESUMED, log 88). -/
def State.spdmReady (s : State) (m : Msg) (act : State → State) : Out :=
  s.spdmRun m fun s =>
    if s.world.negotiated.contains m.path then act s else s.emit (.spdm m.path "error unexpected request" [])

/-- Inside the session named. -/
def State.spdmIn (s : State) (m : Msg) (sid : Fin 8) (act : Session → State → State) : Out :=
  s.spdmReady m fun s => match s.msgSession m with
    | some x => if m.session = some sid then act x s else s.emit (.spdm m.path "error unexpected request" [])
    | none => s.emit (.spdm m.path "error unexpected request" [])

/-- GET_VERSION: 1.2 and 1.3; it begins the negotiation again. -/
def execGetVersion (m : Msg) (s : State) : Out :=
  s.spdmRun m fun s =>
    (s.mapWorld fun w => { w with negotiated := w.negotiated.filter (· ≠ m.path) }).emit (.spdm m.path "versions" [0x12, 0x13])

def execGetCapabilities (m : Msg) (s : State) : Out := s.spdmRun m fun s => s.emit (.spdm m.path "capabilities" [])

/-- NEGOTIATE_ALGORITHMS: the requester offers the algorithms of R385 or not. -/
def execNegotiateAlgorithms (m : Msg) (algsOk : Bool) (s : State) : Out :=
  s.spdmRun m fun s =>
    if algsOk then
      (s.mapWorld fun w => { w with negotiated := m.path :: w.negotiated.filter (· ≠ m.path) }).emit (.spdm m.path "algorithms" [])
    else s.emit (.spdm m.path "error invalid request" [])

/-- GET_DIGESTS: certificate slot 0 alone. -/
def execGetDigests (m : Msg) (s : State) : Out := s.spdmReady m fun s => s.emit (.spdm m.path "digests" [0])

def execGetCertificate (m : Msg) (slot : Byte) (s : State) : Out :=
  s.spdmReady m fun s => s.emit (.spdm m.path (if slot = 0 then "certificate" else "error invalid request") [slot.toNat])

def execChallenge (m : Msg) (slot : Byte) (nonce : BitVec 256) (s : State) : Out :=
  s.spdmReady m fun s => s.emit (.spdm m.path (if slot = 0 then "challenge authenticated" else "error invalid request") [slot.toNat, nonce.toNat])

/-- MANUFACTURE 0, PRODUCTION 1, RMA 2 (R386; the numbers are a DESIGN CHOICE, log 89). -/
def LifeCycle.code (l : LifeCycle) : Nat := if l.rma then 2 else if l.manufacture then 0 else 1

/-- Secure restarts of causes 1 to 3 in the last 24 h. -/
def State.faultRestarts (s : State) : Nat := (s.world.faultTimes.filter fun t => decide (s.time < t + Config.nsDay)).length

/-- The value of a measurement block (R384), in the order of its table. -/
def State.measurement (s : State) (i : Nat) : List Nat :=
  let active := s.slotFw s.world.activeB
  match i with
  | 1 => [Config.bootRomDigest.toNat]
  | 2 => [(Config.fuseDigest s.world.svnSecure s.world.svnNormal s.world.life.code).toNat]
  | 3 => match s.slotFw s.world.secureB with | some p => [p.secureDigest.toNat, p.secureSvn.toNat] | none => [0, 0]
  | 4 => match active with | some p => [p.normalDigest.toNat, p.normalSvn.toNat] | none => [0, 0]
  | 5 => [s.world.manifest.toNat]
  | 6 => [(Config.boardDigest s.power.board).toNat]
  | 7 => [s.world.m.toNat]
  | 8 => [s.world.restarts.toNat, s.world.normalRestarts.toNat, s.faultRestarts]
  | 9 => [s.world.life.code, if s.world.life.code = 1 then 0 else 1]
  | _ => []

/-- GET_MEASUREMENTS: index 0 asks for their number, 0xFF for all. -/
def execGetMeasurements (m : Msg) (index : Byte) (signed : Bool) (s : State) : Out :=
  s.spdmReady m fun s =>
    let sign := if signed then 1 else 0
    let i := index.toNat
    if i = 0 then s.emit (.spdm m.path "measurements" [sign, 9])
    else if i = 0xFF then s.emit (.spdm m.path "measurements" (sign :: 9 :: (List.range 9).flatMap fun k => (k + 1) :: s.measurement (k + 1)))
    else if i ≤ 9 then s.emit (.spdm m.path "measurements" (sign :: 1 :: i :: s.measurement i))
    else s.emit (.spdm m.path "error invalid request" [])

/-- KEY_EXCHANGE: at most 8 sessions; which free number is taken is the responder's (DESIGN CHOICE, log 88: the lowest). -/
def execKeyExchange (m : Msg) (keyHash : BitVec 384) (s : State) : Out :=
  s.spdmReady m fun s =>
    match (List.range 8).find? fun k => (s.sessionOf k).isNone with
    | none => s.emit (.spdm m.path "error busy" [])
    | some k =>
      (s.setSessionOf k (some { ld := pathLd m.path, owner := false, keyHash, finished := false, keys := 0 })).emit (.spdm m.path "key exchange" [k])

/-- FINISH: the session is established; its requester has authenticated with its key or not. -/
def execFinish (m : Msg) (sid : Fin 8) (authenticated : Bool) (s : State) : Out :=
  s.spdmReady m fun s => match s.sessionOf sid.val with
    | some x =>
      if x.finished ∨ x.ld ≠ pathLd m.path then s.emit (.spdm m.path "error unexpected request" [])
      else (s.setSessionOf sid.val (some { x with finished := true, owner := authenticated })).emit (.spdm m.path "finish" [sid.val])
    | none => s.emit (.spdm m.path "error unexpected request" [])

def execKeyUpdate (m : Msg) (sid : Fin 8) (s : State) : Out :=
  s.spdmIn m sid fun x s => (s.setSessionOf sid.val (some { x with keys := x.keys + 1 })).emit (.spdm m.path "key update" [sid.val])

def execHeartbeat (m : Msg) (sid : Fin 8) (s : State) : Out := s.spdmIn m sid fun _ s => s.emit (.spdm m.path "heartbeat" [sid.val])

def execEndSession (m : Msg) (sid : Fin 8) (s : State) : Out :=
  s.spdmIn m sid fun _ s => (s.setSessionOf sid.val none).emit (.spdm m.path "end session" [sid.val])

/-! ### MCTP and DOE -/

/-- MCTP_CONTROL_MESSAGE: the bus owner assigns the endpoint ID; a reset of the endpoint releases the BMC's locks and its Slafin version
(14 R357, R359, R360). -/
def execMctpControlMessage (setEid : Option Byte) (reset : Bool) (s : State) : Out :=
  let s := match setEid with | some e => s.mapCmd fun c => { c with eid := e } | none => s
  let s := if reset then
      (List.range 8).foldl (fun (s : State) k => if (s.lock k).holder.map (·.val) = some 32 then s.freeLock k else s)
        (s.mapCmd fun c => { c with bmcVersion := 1 })
    else s
  .next (s.emit (.mctp [s.cmd.eid.toNat]))

/-- The DOE protocols: vendor and type (R301; the numbers are PCIe's and CXL's, PRESUMED, log 88). -/
def doeProtocols : List (Nat × Nat) := [(1, 0), (1, 1), (1, 2), (0x1E98, 2)]

/-- DOE_DISCOVERY: vendor, type and the next index. -/
def execDoeDiscovery (ld : Fin 32) (index : Byte) (s : State) : Out :=
  if !s.hasLd ld.val ∨ s.world.normal ≠ .up then .next s
  else match doeProtocols[index.toNat]? with
    | some (v, t) => .next (s.emit (.doe ld [v, t, if index.toNat + 1 < doeProtocols.length then index.toNat + 1 else 0]))
    | none => .next (s.emit (.doe ld [0xFFFF, 0, 0]))

/-- One memory range of the CDAT: handle, base, length, and whether it is durable. -/
def State.cdatRanges (s : State) (ld : Fin 32) : List (Nat × Nat × Bool) :=
  let fixed := ((s.ldMap ld.val).filter fun e => e.valid && !e.dc).map fun e => (e.ldBase.toNat * 4096, e.pages.toNat * 4096, e.durable)
  let dc := if s.exposesDc ld.val then (List.range 8).map fun r => (r, 0, (s.region r).durable) else []
  fixed ++ dc

/-- The CDAT of an LD (12 R303): a DSMAS entry for each range, then its read latency, write latency, read and write bandwidth. -/
def State.cdat (s : State) (ld : Fin 32) : List (List Nat) :=
  let bw : Nat × Nat := match (s.fn ld.val).head with
    | some h => match (s.headOf h.val).link with | some l => linkBandwidth l | none => (0, 0)
    | none => (0, 0)
  (s.cdatRanges ld).zipIdx.flatMap fun p =>
    [[0, p.2, p.1.1, p.1.2.1, if p.1.2.2 then 1 else 0], [1, p.2, 190, 90, bw.1, bw.2]]

/-- CDAT_TABLE_ACCESS: one entry and the handle of the next. -/
def execCdatTableAccess (ld : Fin 32) (entry : W16) (s : State) : Out :=
  if !s.hasLd ld.val ∨ s.world.normal ≠ .up then .next s
  else
    let t := s.cdat ld
    let next := if entry.toNat + 1 < t.length then entry.toNat + 1 else 0xFFFF
    .next (s.emit (.doe ld (next :: (s.fn ld.val).cdatSeq :: t.getD entry.toNat [])))

end Sys2Proof.Machine
end

