-- ==== Sys2Proof/WellFormed.lean ====
section
/-! DEFINITION. Which commands hardware can carry. A field that software fills is not checked here: its limits are checked by the
command itself, as the spec says. A wrong operand of a hardware event is ill-formed. -/

namespace Sys2Proof

/-- No element stands twice. -/
def distinct {α : Type} [DecidableEq α] : List α → Bool
  | [] => true
  | x :: r => !r.contains x && distinct r

/-- What bring-up meets: one module a slot, at most 8 GPIO entries, the slack at each of the 17 core targets 900, 905 … 980 mV
(18 R433). -/
def BringUp.wf (b : BringUp) : Bool :=
  distinct (b.dimms.map fun d => (d.1, d.2.1)) && decide (b.board.gpio.length ≤ 8) && decide (b.slackPs.length = 17)

/-- Codes of the test access port that name an instruction of their own (19 R455). -/
def tapCodes : List Byte := [0x00, 0x01, 0x02, 0x04, 0x05]

/-- A rebuild reads a channel once. -/
def readsOk (l : List MemberRead) : Bool := distinct (l.map (·.channel))

/-- The checks, for the rows whose operands come from hardware. -/
def Instr.wf : Instr → Bool
  | .weltDeltaWrite _ _ _ reads => readsOk reads
  | .rebuildComplete _ _ reads => readsOk reads
  | .onchipParityError _ reads => readsOk reads
  | .scrubLine _ reads => readsOk reads
  | .unitRebuildStep _ reads => readsOk reads
  | .unitMapResolve _ reads => readsOk reads
  | .coldReset b => b.wf
  | .resetNRelease b => b.wf
  | .moduleTempRead _ temps _ => distinct (temps.map (·.1))
  | .slotSupplySettled _ dimms => distinct (dimms.map (·.1))
  | .lockRegisterRead _ readers => distinct readers && !readers.isEmpty
  | .bypass code => !tapCodes.contains code
  | _ => true

end Sys2Proof
end

