-- ==== Sys2Proof/Machine/Power.lean ====
section
/-! DEFINITION. Power, clocks, reset and ageing (18): what each reset loses and keeps, bring-up, the core re-plan, AVSBus, thermal and
clock events, GPIO; the entry into RMA (15 R387), which ends in a cold reset. -/

namespace Sys2Proof.Machine

/-! ### What a reset loses and keeps (R426, R459) -/

/-- The pins of drive n stay as they are; the drive answers again on its link. -/
def State.drivePins (s : State) : Tab Drive :=
  (List.range 4).foldl (fun t n => Tab.set (fun _ => driveReset) n { driveReset with prsnt := (s.drive n).prsnt } t) []

/-- What the flash and the board keep of a channel: its training record (07 R170) and the presence pin. A warm reset also keeps its settings, its counts
(07 R185) and the power of its slots, which R182 takes away at cold reset alone. -/
def State.chansKept (s : State) (warm : Bool) : Tab Chan :=
  (List.range 12).foldl (fun t c =>
    let x := s.chan c
    Tab.set (fun _ => chanReset) c
      { chanReset with record := x.record, present := x.present, control := if warm then x.control else chanReset.control
                       counts := if warm then x.counts else [], pwrEn := warm && x.pwrEn } t) []

/-- SLOT_PWR_EN of every powered channel falls. -/
def State.slotPinsFall (s : State) : State :=
  (s.ddr.chans.filter fun p => p.2.pwrEn).foldl (fun s p => s.slotPin p.1 false) s

/-- The world state at a reset: flash, fuses and the test access port stay. -/
def State.worldKept (s : State) (warm : Bool) : WorldsSt :=
  let w := s.world
  { State.resetWorld with fwA := w.fwA, fwB := w.fwB, activeB := w.nextB, nextB := w.nextB, svnSecure := w.svnSecure, svnNormal := w.svnNormal
                          life := w.life, tap := w.tap, boundary := w.boundary
                          restarts := if warm then w.restarts else 0, normalRestarts := if warm then w.normalRestarts else 0
                          faultTimes := if warm then w.faultTimes else [], m := if warm then w.m else 0 }

/-- Insole lies in the always-on island. -/
def State.insoleKept (s : State) : FaultSt :=
  let f := s.fault
  { State.resetFault with insole := f.insole, insoleLost := f.insoleLost, frozen := f.frozen, nextSeq := f.nextSeq }

/-- What power keeps over a cold reset: what the flash holds, and the pins. -/
def State.powerKept (s : State) : Power :=
  let p := s.power
  { State.resetPower with storedTarget := p.storedTarget, hours := p.hours, derateCh := p.derateCh, derateHead := p.derateHead
                          derateLace := p.derateLace, derateDrive := p.derateDrive, pwrgood := p.pwrgood, resetNLow := p.resetNLow
                          gpioThermLow := p.gpioThermLow }

/-- The loss of all volatile state (cold reset, power loss). The KEK comes back from the device root secret, which RMA blocks (05 R111,
15 R386). -/
def State.coldLoss (s : State) : State :=
  let s := s.slotPinsFall
  { State.reset with
      ev8820 := s.ev8820
      keys := { State.resetKeys with dke := s.keys.dke, kekValid := !s.world.life.rma }
      welt := { State.resetWelt with records := s.welt.records }
      ddr := { State.resetDdr with chans := s.chansKept false }
      shank := { State.resetShank s.ev8820 with storedCapMf := s.shank.storedCapMf, pwrfailLow := s.shank.pwrfailLow, drives := s.drivePins }
      image := s.image
      port := { State.resetPort with perstLow := s.port.perstLow }
      world := s.worldKept false
      fault := s.insoleKept
      power := s.powerKept
      free := s.free
      out := s.out
      pending := s.pending }

/-- Source registers at a warm reset (16 R394). -/
def Source.warm (n : Nat) (x : Source) : Source := { x with winCount := 0, winStart := 0, cls := baseOf n }

/-- Settings of a master, those set and not in force yet among them, and its charge, which only a cold reset clears, through a warm reset (R459; 11 R287). -/
def Master.warm (ev8820 : Bool) (n : Nat) (m : Master) : Master :=
  { masterReset ev8820 n with outstanding := m.outstanding, priority := m.priority, rt := m.rt, minRead := m.minRead, minWrite := m.minWrite
                              budget := m.budget, pending := m.pending, charge := m.charge }

/-- The key store through a warm reset: slots and grants (05 R104). The Last table comes up empty, so no page names a slot; a
destruction under way has not taken place (DEDUCED, log 90). -/
def KeySlot.warm (k : Nat) (image : Bool) (x : KeySlot) : KeySlot :=
  if x.state = .destroyed ∧ !image then { slotReset k with grant := x.grant }
  else
    { x with pages := 0, destroying := false, waiters := [], tspWaiters := [], zeroSerial := none, zeroEpoch := none
             resumed := if x.state = .destroyed then some 0 else none }

/-- An image exists on the drives (09 R246 step 4). -/
def State.imageOnDrives (s : State) : Bool := s.image.supA.isSome || s.image.supB.isSome

def tabMap {β γ : Type} [DecidableEq γ] (d : Nat → γ) (f : Nat → β → γ) (t : Tab β) : Tab γ := t.foldl (fun r p => Tab.set d p.1 (f p.1 p.2) r) []

/-- The loss of a warm reset: hub and memory-die state except what R459, the always-on island and the counters that only a cold reset clears keep. ALIVE is low
again at step 2 of the bring-up (Table — Bring-up; DEDUCED, log 158). -/
def State.warmLoss (s : State) : State :=
  let recovery := s.fault.fatal || decide (s.world.secure = .down) || s.power.railFault
  let p := s.power
  let s' : State :=
    { State.reset with
        ev8820 := s.ev8820
        last := { State.resetLast with hostPages := s.last.hostPages, maps := tabMap (fun _ => []) (fun _ es => es.filter fun e => !e.dc) s.last.maps }
        tier := { State.resetTier with policy := s.tier.policy, watermark := s.tier.watermark, rate := s.tier.rate, poolFrames := s.tier.poolFrames,
                                         counts := s.tier.counts }
        codec := { State.resetCodec with fenced := s.codec.fenced, counts := s.codec.counts }
        keys := { State.resetKeys with dke := s.keys.dke, kekValid := s.keys.kekValid, slots := tabMap slotReset (fun k x => x.warm k s.imageOnDrives) s.keys.slots, quota := s.keys.quota }
        welt := { State.resetWelt with records := s.welt.records, policy := s.welt.policy, spareFrames := s.welt.spareFrames, counts := s.welt.counts }
        ddr := { State.resetDdr with chans := s.chansKept true, populationOk := s.ddr.populationOk }
        lace := { State.resetLace with lost := s.lace.lost, mods := tabMap (fun _ => laceReset) (fun _ x => { laceReset with counts := x.counts }) s.lace.mods }
        shank :=
          { State.resetShank s.ev8820 with policy := s.shank.policy, storedCapMf := s.shank.storedCapMf, pwrfailLow := s.shank.pwrfailLow
                                           drives := s.drivePins, window := s.shank.window, rFlush := s.shank.rFlush
                                           rFlushLog := s.shank.rFlushLog, capMf := s.shank.capMf, vbankMv := s.shank.vbankMv
                                           eUsableMj := s.shank.eUsableMj, probed := s.shank.probed, probeFail := s.shank.probeFail
                                           probeT40 := s.shank.probeT40, probeDone := s.shank.probeDone, lastSample := s.shank.lastSample
                                           vSamples := s.shank.vSamples, short := s.shank.short, counts := s.shank.counts }
        image := s.image
        resume := { State.resetResume with restorePct := s.resume.restorePct, upspeedDelayS := s.resume.upspeedDelayS }
        reg :=
          { State.resetReg with masters := tabMap (masterReset s.ev8820) (fun n m => m.warm s.ev8820 n) s.reg.masters
                                optimalPct := s.reg.optimalPct, moderatePct := s.reg.moderatePct, ageUs := s.reg.ageUs, counts := s.reg.counts }
        port :=
          { State.resetPort with perstLow := s.port.perstLow
                                 funcs := tabMap (fun _ => funcReset) (fun _ f => { funcReset with allocation := f.allocation }) s.port.funcs }
        poq := { State.resetPoq with lds := tabMap (fun _ => poqLdReset) (fun _ x => { poqLdReset with quota := x.quota, weight := x.weight, counts := x.counts }) s.poq.lds }
        cmd :=
          { State.resetCmd with regions := s.cmd.regions
                                lds := tabMap (fun _ => cmdLdReset) (fun _ x => { cmdLdReset with eyeCounts := x.eyeCounts }) s.cmd.lds }
        world := s.worldKept true
        fault := { s.insoleKept with sources := tabMap sourceReset Source.warm s.fault.sources, first := s.fault.first }
        power := { s.powerKept with vcoreMv := p.vcoreMv, kind := p.kind, floorMiss := p.floorMiss, hubDerated := p.hubDerated, slackPs := p.slackPs
                                    roSlow := p.roSlow, reportTime := p.reportTime, margins := p.margins, board := p.board, boardOk := p.boardOk
                                    gpio := p.gpio, xtalFallback := p.xtalFallback, recovery }
        time := s.time
        free := s.free
        out := s.out
        pending := s.pending }
  (List.range 36).foldl (fun (s : State) n => s.clearPerf n) s'

/-! ### The board configuration block and GPIO (R437 to R439) -/

/-- A block whose MAGIC, VERSION or CRC is wrong is used as if it held zeros (R438). -/
def State.flagBit (s : State) (i : Nat) : Bool :=
  match s.power.board with | some b => s.power.boardOk && b.flags.getLsbD i | none => false

/-- Takes the GPIO entries in order: FUNCTION 0 is skipped, a pin already given is refused and recorded. -/
def State.assignGpio (s : State) (es : List (Byte × Byte)) : State :=
  es.foldl (fun s e =>
    let pin := fld e.2 0 3
    if e.1 = 0 then s
    else if (Tab.get (fun _ => (0, 0)) s.power.gpio pin).1 ≠ 0 then insoleOther .config [] none (fire 903 s)
    else s.mapPower fun p => { p with gpio := Tab.set (fun _ => (0, 0)) pin (e.1, BitVec.ofNat 8 (fld e.2 4 2)) p.gpio }) s

/-- Step 2 of bring-up reads the board configuration block. -/
def State.readBoard (s : State) (b : Board) : State :=
  let s := s.mapPower fun p => { p with board := some b, boardOk := b.valid }
  if b.valid then s.assignGpio b.gpio else fire 902 s

/-- The pin of a GPIO function. -/
def State.pinOf (s : State) (fn : Nat) : Option Nat := (s.power.gpio.find? fun p => decide (p.2.1.toNat = fn)).map (·.1)

/-- The level that the device drives on a GPIO pin; none where the pin is an input. BMC_ALERT_N is low while a standard log holds a
record that the BMC has not cleared (DEDUCED, log 91). -/
def State.gpioLevel (s : State) (pin : Nat) : Option Bool :=
  let f := (Tab.get (fun _ => (0, 0)) s.power.gpio pin).1
  if f = 1 then some (!s.fault.sources.any fun p => decide (p.2.cls.code ≥ 2))
  else if f = 2 then some (s.inSave && !s.shank.saveDone)
  else if f = 5 then some (s.cmd.logs.all fun p => p.2.isEmpty)
  else none

/-! ### The core re-plan (R432, R433) -/

/-- What kind of re-plan this bring-up runs, if any: 0 start-up, 1 test, 2 recovery. -/
def State.replanKind (s : State) (cold : Bool) : Option (Fin 3) :=
  if s.world.life.manufacture ∨ s.flagBit 5 then some 1 else if cold then some 0 else if s.power.recovery then some 2 else none

/-- The readings that a re-plan from a stored target meets: those from 900 mV on that lie below the target are not taken. -/
def slacksFrom (v : Nat) (l : List Nat) : List Nat := l.drop ((v - 900) / 5)

/-- procedure replan_core. In test the derates of heads, Lace modules and drives are cleared (R434). -/
def State.replan (s : State) (b : BringUp) (kind : Fin 3) : State :=
  let v0 := max s.power.storedTarget 900
  let (v, slack, miss) := replanCore v0 (slacksFrom v0 b.slackPs)
  let s := s.mapPower fun p =>
    { p with vcoreMv := v, storedTarget := v, slackPs := slack, floorMiss := miss, hubDerated := miss, kind, reportTime := s.time
             roSlow := b.roSlow, avsFail := false, avsTries := 0, railFault := false, railBad := false, recovery := false }
  let s := if kind = 1 then s.mapPower fun p => { p with derateHead := [], derateLace := [], derateDrive := [] } else s
  let s := if miss then fire 929 (fire 928 s) else s
  if v ≥ 970 then fire 930 s else s

/-! ### The population (07 R163; 06 R460) -/

/-- Modules that bring-up finds on a channel. -/
def foundOn (b : BringUp) (c : Nat) : List (Fin 2 × Dimm) := (b.dimms.filter fun d => decide (d.1.val = c)).map (·.2)

def slotDimm (l : List (Fin 2 × Dimm)) (k : Nat) : Option Dimm := (l.find? fun d => decide (d.1.val = k)).map (·.2)

def foundId (b : BringUp) (c k : Nat) : W64 := match slotDimm (foundOn b c) k with | some d => d.id | none => 0

/-- What must be alike in all modules. -/
def dimmKind (d : Dimm) : Bool × Bool × Fin 4 × Bool × Fin 4 := (d.threeDS, d.x8, d.density, d.ranks2, d.height)

/-- The element that stands most often, the first of those on a tie. -/
def mostCommon {α : Type} [DecidableEq α] (l : List α) : Option α :=
  l.foldl (fun b x => match b with
    | none => some x
    | some y => if l.count x > l.count y then some x else b) none

/-- How a recorded unit is treated (R460): a failed unit with its modules, or a channel out for service whose slots are empty, stays out. -/
def staysOut (b : BringUp) (r : UnitRecord) : Bool :=
  let c := r.channel.val
  (decide (r.cause = 0) && decide (foundId b c 0 = r.dimm0) && decide (foundId b c 1 = r.dimm1))
    || (decide (r.cause = 1) && r.wholeChannel && (foundOn b c).isEmpty)

/-- Channels that the comparison leaves out: those kept out of service as a whole. -/
def State.keptOut (s : State) (b : BringUp) (c : Nat) : Bool :=
  s.welt.records.any fun r => decide (r.channel.val = c) && r.wholeChannel && staysOut b r

/-- Slots at fault, in order; a module outside Table — Supported modules is one, and sets no standard for the others (DEDUCED, log 151). -/
def State.slotFaults (s : State) (b : BringUp) : List (Nat × Nat) :=
  let cs := (List.range s.channels).filter fun c => !s.keptOut b c
  let n := (mostCommon (cs.map fun c => (foundOn b c).length)).getD 0
  let kinds := cs.flatMap fun c => [0, 1].filterMap fun k => ((slotDimm (foundOn b c) k).filter dimmSupported).map dimmKind
  let kind := mostCommon kinds
  cs.flatMap fun c =>
    let l := foundOn b c
    let m (k : Nat) : Option Dimm := slotDimm l k
    ([0, 1].filter fun k =>
      (match m k with | some d => decide (some (dimmKind d) ≠ kind) || !dimmSupported d | none => false)
        || (decide (k = 1) && (m 1).isSome && (m 0).isNone)
        || (decide (l.length < n) && decide (k < n) && (m k).isNone)
        || (decide (l.length > n) && decide (k ≥ n) && (m k).isSome)).map fun k => (c, k)

/-- R163 at cold reset: each slot at fault is named. -/
def State.checkPopulation (s : State) (b : BringUp) : State :=
  let bad := s.slotFaults b
  let s := s.mapDdr fun d => { d with populationOk := bad.isEmpty }
  bad.foldl (fun s f => raise { Ev.of (srcChan f.1 11) with detail := [f.1, f.2, 0, (foundId b f.1 f.2).toNat] } s) s

/-- A channel that holds a module is powered, and one whose modules answer is in training (R182). `records` says whose training cache record the flash holds
whole (07 R170). A channel derate goes when its modules have changed (R434). -/
def State.fillChannel (s : State) (b : BringUp) (c : Nat) : State :=
  let l := foundOn b c
  let same := match (s.chan c).record with
    | some r => decide (r.dimm0 = foundId b c 0) && decide (r.dimm1 = foundId b c 1)
    | none => true
  let s := if same then s else s.mapPower fun p => { p with derateCh := Tab.set (fun _ => 0) c 0 p.derateCh }
  let tab := [0, 1].foldl (fun t k => Tab.set (fun _ => none) k (slotDimm l k) t) ([] : Tab (Option Dimm))
  let s := s.updChan c fun x =>
    { x with dimms := tab, frames := framesOf l, present := b.present.getLsbD c, pwrEn := b.present.getLsbD c, state := if l.isEmpty then 4 else 2
             slotStep := if b.present.getLsbD c then .powered else .off
             record := x.record.map fun r => { r with sound := b.records.getLsbD c } }
  let s := s.updChan c fun x => { x with rate := s.chosenRate c }
  if (s.chan c).pwrEn then s.slotPin c true else s

/-- A recorded unit that stays out takes its slot with every entry WITHDRAWN; any other is forgotten and trains (R460). -/
def State.treatRecord (s : State) (b : BringUp) (r : UnitRecord) : State :=
  let x : Scope := { channel := r.channel.val, whole := r.wholeChannel, ranksel := r.ranksel }
  if !staysOut b r then s.forgetUnit x
  else
    let s := s.unitWithdrawn x
    let s := match s.unitFor x with
      | some (n, u) => s.setUnit n (some { u with cause := r.cause, state := if (foundOn b x.channel).isEmpty then 3 else u.state })
      | none => s
    let s := s.mapWelt fun w => { w with records := w.records.map fun q =>
      if q.channel = r.channel ∧ q.ranksel = r.ranksel then r else q }
    if x.whole then s
    else s.updChan x.channel fun c =>
      { c with unusable := (List.range (s.logicalRanks x.channel)).foldl (fun m lr =>
          if s.rankOfLr x.channel lr = x.ranksel then m ||| (1#32 <<< lr) else m) c.unusable }

/-! ### Bring-up (R430) -/

/-- Cores that fail their self-test are fenced (15 R366); a fenced codec engine rejoins when it passes its own (04 R94). -/
def State.selfTest (s : State) (ok : BitVec 8) : State :=
  (List.range 8).foldl (fun (s : State) n =>
    if ok.getLsbD n then s
    else
      let secure := decide (n ≥ 6)
      let s := s.setCore n (true, 0, none)
      let left := s.coresUp secure
      let s := raise { Ev.of 7 with cls := some (if left ≤ 1 then .severe else .degrade) } s
      if left ≠ 0 then s
      else if secure then s.secureDown
      else s.mapWorld fun w => { w with normal := .down }) s

/-- The metadata region of the first configuration (02 R40, R461) and the spare reserve. -/
def State.firstConfiguration (s : State) : State :=
  let s := s.mapLast fun l => { l with hostPages := defaultHostPages s.ev8820 s.rawFrames }
  let s := s.mapWelt fun w => { w with spareFrames := s.spareGroupsNow * (s.w - 1) }
  s.mapTier fun t => { t with poolFrames := s.poolGroups * (s.w - 1) }

/-- Links of the ports train at step 2 where PERSTp_N is high (R429). -/
def State.trainPorts (s : State) : State :=
  ((List.range s.nHeads).filter fun h => s.headHere h && !s.port.perstLow.getLsbD (portOfHead h)).foldl (fun (s : State) h =>
    s.emit (.port (Fin.ofNat 4 h) "train" 0)) s

/-- Bring-up from its first step to the start of the trainings. -/
def State.bringUp (s : State) (b : BringUp) (cold : Bool) : State :=
  let s := s.mapPower fun p => { p with bringup := 2, state := 3 }
  let s := s.mapFault fun f => { f with insole := if b.insoleCrcOk then f.insole else [], insoleLost := f.insoleLost || !b.insoleCrcOk }
  let s := if s.fault.insoleLost then s else insoleOther .reset [] none s
  let s := if cold then s.readBoard b.board else s
  let s := s.trainPorts
  let s := match s.replanKind cold with | some k => s.replan b k | none => s
  let s := (s.selfTest b.coreOk).mapCodec fun c => { c with fenced := c.fenced &&& ~~~b.engineOk }
  let s := (List.range s.nModules).foldl (fun (s : State) m => (s.updLaceMod m fun x => { x with state := 1 }).beginTraining m) s
  let s := if cold then s.checkPopulation b else s
  let s := (List.range s.channels).foldl (fun (s : State) c => s.fillChannel b c) s
  let s := s.welt.records.foldl (fun s r => s.treatRecord b r) s
  let s := if cold then s.firstConfiguration else s
  let s := s.mapResume fun r => { r with tableZeroed := true }
  (s.mapShank fun k => { k with vbankMv := b.vbankMv }).recomputeUsable

/-- COLD_RESET: PWRGOOD rises. -/
def execColdReset (b : BringUp) (s : State) : Out :=
  if !b.wf then .fault .illFormed
  else
    let s := s.coldLoss
    let s := s.mapPower fun p => { p with pwrgood := true, resetNLow := false }
    .next (s.bringUp b true)

/-- PWRGOOD_FALL: power is lost; what the next power-up finds is what the flash, the drives and the always-on island hold. -/
def execPwrgoodFall (s : State) : Out :=
  let s := s.coldLoss
  .next (s.mapPower fun p => { p with pwrgood := false })

/-- WARM_RESET: RESET_N is low while PWRGOOD is high. -/
def execWarmReset (s : State) : Out :=
  if !s.power.pwrgood ∨ s.power.resetNLow then .next s
  else
    let s := if s.shank.saveDone then s.emit (.pin "SAVE_DONE" false) else s
    let s := s.warmLoss
    .next (s.mapPower fun p => { p with resetNLow := true })

/-- RESET_N_RELEASE: bring-up starts. -/
def execResetNRelease (b : BringUp) (s : State) : Out :=
  if !b.wf then .fault .illFormed
  else if !s.power.pwrgood ∨ !s.power.resetNLow then .next s
  else .next ((s.mapPower fun p => { p with resetNLow := false }).bringUp b false)

/-- AON_SUPPLY_LOSS: the key store is zeroized (05 R118), Insole and the rest of the always-on island are lost (16 R404). -/
def execAonSupplyLoss (s : State) : Out :=
  let s := s.coldLoss
  .next ({ s with fault := { State.resetFault with insoleLost := true }, keys := { s.keys with kekValid := false, drbg := none } }.mapPower fun p => { p with pwrgood := false })

/-! ### AVSBus, temperature, clocks (R421, R423, R425, R439) -/

/-- AVS_POLL: a reading, or no acknowledgement; three tries without one are SRC_PWR_AVS_FAIL, and the regulator's present output is the
target. A reading more than 2.5 % from the target is SRC_PWR_RAIL_FAULT when it begins. -/
def execAvsPoll (ack : Bool) (mv : W16) (icore : W16) (s : State) : Out :=
  if !s.power.pwrgood then .next s
  else if !ack then
    let n := s.power.avsTries + 1
    if n < 3 then .next (s.mapPower fun p => { p with avsTries := n })
    else .next (fire 896 (s.mapPower fun p => { p with avsTries := 0, avsFail := true, vcoreMv := if p.vcoreReadMv = 0 then p.vcoreMv else p.vcoreReadMv }))
  else
    let target := s.power.vcoreMv
    let bad := decide (40 * (mv.toNat - target + (target - mv.toNat)) > target)
    let was := s.power.railBad
    let s := s.mapPower fun p => { p with avsTries := 0, vcoreReadMv := mv.toNat, icore := icore.toNat, railBad := bad, railFault := p.railFault || bad }
    .next (if bad && !was then fire 897 s else s)

/-- THERMAL_SENSOR_READ: the highest junction reading. -/
def execThermalSensorRead (tj : Int) (s : State) : Out :=
  if !s.power.pwrgood then .next s
  else
    let s := s.mapPower fun p => { p with tj }
    let s := if tj ≥ 100 ∧ !s.power.throttle then fire 898 (s.mapPower fun p => { p with throttle := true })
      else if tj < 95 then s.mapPower fun p => { p with throttle := false }
      else s
    if tj < 110 then .next (s.mapPower fun p => { p with tjCritSince := none })
    else match s.power.tjCritSince with
      | none => .next (s.mapPower fun p => { p with tjCritSince := some (s.time, false) })
      | some (t, fired) =>
        if fired ∨ s.time < t + Config.nsMs then .next s
        else .next (fire 899 (s.mapPower fun p => { p with tjCritSince := some (t, true) }))

/-- tFAW of a channel is doubled by its modules' heat (07 R178) or by the thermal measures (R425). -/
def State.tfawDoubledNow (s : State) (c : Nat) : Bool := (s.chan c).tfawDoubled || s.power.throttle

/-- XTAL_LOSS: the always-on island and device time run from the internal oscillator; the FATAL event starts the emergency save. -/
def execXtalLoss (s : State) : Out :=
  if s.power.xtalFallback ∨ !s.power.pwrgood then .next s else .next (fire 900 (s.mapPower fun p => { p with xtalFallback := true }))

/-- PLL_UNLOCK: FATAL; the save runs from the internal oscillator. -/
def execPllUnlock (s : State) : Out := if s.power.pwrgood then .next (fire 901 s) else .next s

/-- CHANNEL_PLL_UNLOCK: both channels of the pair leave service (06 R150). -/
def execChannelPllUnlock (pair : Fin 6) (s : State) : Out :=
  let cs := [2 * pair.val, 2 * pair.val + 1]
  if !s.power.pwrgood ∨ !s.hasChannel (2 * pair.val) then .next s
  else
    let s := raise { Ev.of 907 with detail := cs } s
    .next ((cs.foldl (fun (s : State) c => s.unitOut { channel := c, whole := true, ranksel := 0 } 0 none) s).wake)

/-- THERM_ALERT: the pin of function 3 is low for 1 ms. -/
def execThermAlert (s : State) : Out := if (s.pinOf 3).isSome ∧ s.power.pwrgood then .next (fire 904 s) else .next s

/-! ### Entry into RMA (15 R387) -/

/-- The token: this device's serial number, the nonce of the previous response, the vendor's signature over both. -/
def State.tokenOk (s : State) (serial : BitVec 512) (nonce : BitVec 256) (signature : List Byte) : Bool :=
  decide (serial = Config.serial) && decide (s.world.nonce = some nonce) && !s.world.life.rma && !s.world.life.manufacture
    && Config.ecdsaOk (Config.sha384 (leBytes 64 serial ++ leBytes 32 nonce)) signature

/-- VENDOR_DEFINED_REQUEST. A valid token zeroizes the key store, counts DKE on, writes RMA into the fuses and takes a cold reset, whose
bring-up is COLD_RESET's. Anything else is recorded and changes nothing; inside an owner's session the answer carries the next nonce. -/
def execVendorDefinedRequest (m : Msg) (serial : BitVec 512) (nonce : BitVec 256) (signature : List Byte) (s : State) : Out :=
  s.spdmReady m fun s =>
    let own : Bool := match s.msgSession m with | some x => s.ownerSession x | none => false
    if own ∧ s.tokenOk serial nonce signature then
      let s := s.zeroizeAll.mapKeys fun k => { k with dke := k.dke + 1 }
      ((s.mapWorld fun w => { w with life := { w.life with rma := true } }).emit (.spdm m.path "RMA" [])).coldLoss
    else
      let who := match pathLd m.path with | some ld => ld.val | none => 0xFF
      let s := securityRecord who 0 0xFE 0 0 s
      if own then
        let (n, s) := s.draw
        let x := Config.nonce n
        (s.mapWorld fun w => { w with nonce := some x }).emit (.spdm m.path "nonce" [x.toNat])
      else s.emit (.spdm m.path "error unexpected request" [])

end Sys2Proof.Machine
end

