-- ==== Sys2Proof/Machine/Tap.lean ====
section
/-! DEFINITION. The test access port (15 R388, 19 R455). EXTEST, CLAMP and HIGHZ take effect only while RESET_N is low. -/

namespace Sys2Proof.Machine

/-- The identification register. -/
def State.idcode (s : State) : Nat := if s.ev8820 then 0x1882054F else 0x1884054F

/-- Selects an instruction; the bypass register is one bit of zero. -/
def State.selectTap (s : State) (code : Byte) (shifted : Nat) : State := (s.mapWorld fun w => { w with tap := code }).emit (.tap shifted)

/-- An instruction that acts as BYPASS while RESET_N is high. -/
def State.boundaryTap (s : State) (code : Byte) (act : State → State) : State :=
  if s.power.resetNLow then act (s.mapWorld fun w => { w with tap := code }) else s.selectTap 0xFF 0

/-- EXTEST drives the pins from the boundary register. -/
def execExtest (boundary : BitVec 64) (s : State) : Out :=
  .next (s.boundaryTap 0x00 fun s => (s.mapWorld fun w => { w with boundary }).emit (.pin "boundary driven" true))

def execIdcode (s : State) : Out := .next (s.selectTap 0x01 s.idcode)

/-- SAMPLE/PRELOAD: the pins as they are leave the device (a free value), the preload enters. -/
def execSamplePreload (boundary : BitVec 64) (s : State) : Out :=
  let (n, s) := s.draw
  .next ((s.mapWorld fun w => { w with boundary }).selectTap 0x02 (Config.freeWord n).toNat)

/-- CLAMP holds the pins at the preloaded levels behind the bypass register. -/
def execClamp (s : State) : Out := .next (s.boundaryTap 0x04 fun s => s.emit (.pin "boundary held" true))

/-- HIGHZ switches the outputs off behind the bypass register. -/
def execHighz (s : State) : Out := .next (s.boundaryTap 0x05 fun s => s.emit (.pin "outputs off" true))

/-- BYPASS: its own code, or any code that names no instruction. -/
def execBypass (code : Byte) (s : State) : Out :=
  if tapCodes.contains code then .fault .illFormed else .next (s.selectTap 0xFF 0)

end Sys2Proof.Machine
end

