-- ==== Sys2Proof/Machine/Dispatch.lean ====
section
/-! DEFINITION. The meaning of each command: one direct call per constructor. -/

namespace Sys2Proof.Machine

def exec (i : Instr) (s : State) : Host.Outcome State Fault Refusal :=
  match i with
  | .cxlMemRead a => Sys2Proof.Machine.execCxlMemRead a s
  | .cxlMemWrite a data poison => Sys2Proof.Machine.execCxlMemWrite a data poison s
  | .partialLineWrite a data be => Sys2Proof.Machine.execPartialLineWrite a data be s
  | .mergeOldLineArrived dpn line upset => Sys2Proof.Machine.execMergeOldLineArrived dpn line upset s
  | .lastEntryReturned dpn => Sys2Proof.Machine.execLastEntryReturned dpn s
  | .lastCacheClean => Sys2Proof.Machine.execLastCacheClean s
  | .weltDeltaWrite dpn line old reads => Sys2Proof.Machine.execWeltDeltaWrite dpn line old reads s
  | .rebuildComplete frame line reads => Sys2Proof.Machine.execRebuildComplete frame line reads s
  | .verifyReadResult frame line upset => Sys2Proof.Machine.execVerifyReadResult frame line upset s
  | .chunkDecodeDone tag decomp bad retryBad rereads => Sys2Proof.Machine.execChunkDecodeDone tag decomp bad retryBad rereads s
  | .shadowRepairRecordRead dpn chunk ok hint => Sys2Proof.Machine.execShadowRepairRecordRead dpn chunk ok hint s
  | .migrationStart dpn kind hint => Sys2Proof.Machine.execMigrationStart dpn kind hint s
  | .migrationCopyRoundDone t => Sys2Proof.Machine.execMigrationCopyRoundDone t s
  | .migrationSourceRelease t => Sys2Proof.Machine.execMigrationSourceRelease t s
  | .decaySweepVisit => Sys2Proof.Machine.execDecaySweepVisit s
  | .queuedPromotionStart hint => Sys2Proof.Machine.execQueuedPromotionStart hint s
  | .backgroundDemotionStart hint => Sys2Proof.Machine.execBackgroundDemotionStart hint s
  | .binCompaction bin hint => Sys2Proof.Machine.execBinCompaction bin hint s
  | .releaseReevaluation => Sys2Proof.Machine.execReleaseReevaluation s
  | .chunkCoded t chunk engine mismatch => Sys2Proof.Machine.execChunkCoded t chunk engine mismatch s
  | .onchipParityError b reads => Sys2Proof.Machine.execOnchipParityError b reads s
  | .parityCacheClean => Sys2Proof.Machine.execParityCacheClean s
  | .candidateExpiry ch idx => Sys2Proof.Machine.execCandidateExpiry ch idx s
  | .rowRepairStart ch idx => Sys2Proof.Machine.execRowRepairStart ch idx s
  | .repairWaitExpiry ch idx => Sys2Proof.Machine.execRepairWaitExpiry ch idx s
  | .postPackageRepairDone ch idx ok => Sys2Proof.Machine.execPostPackageRepairDone ch idx ok s
  | .rowRetired ch idx => Sys2Proof.Machine.execRowRetired ch idx s
  | .scrubLine upset reads => Sys2Proof.Machine.execScrubLine upset reads s
  | .ecsRead ch ranksel device count bank row => Sys2Proof.Machine.execEcsRead ch ranksel device count bank row s
  | .unitRebuildStep slot reads => Sys2Proof.Machine.execUnitRebuildStep slot reads s
  | .unitMapResolve slot reads => Sys2Proof.Machine.execUnitMapResolve slot reads s
  | .rebalance dpn hint => Sys2Proof.Machine.execRebalance dpn hint s
  | .refreshDue ch rank => Sys2Proof.Machine.execRefreshDue ch rank s
  | .owedRefreshDrain ch rank => Sys2Proof.Machine.execOwedRefreshDrain ch rank s
  | .periodicTracking ch lr => Sys2Proof.Machine.execPeriodicTracking ch lr s
  | .moduleTempRead ch temps mr4Hot => Sys2Proof.Machine.execModuleTempRead ch temps mr4Hot s
  | .activationWindowStart ch => Sys2Proof.Machine.execActivationWindowStart ch s
  | .requestAgePromote ch tag => Sys2Proof.Machine.execRequestAgePromote ch tag s
  | .trainingComplete ch r => Sys2Proof.Machine.execTrainingComplete ch r s
  | .slotPresenceChange ch high => Sys2Proof.Machine.execSlotPresenceChange ch high s
  | .pmicPowerGoodTimeout ch => Sys2Proof.Machine.execPmicPowerGoodTimeout ch s
  | .caParityAlert ch rank => Sys2Proof.Machine.execCaParityAlert ch rank s
  | .writeCrcAlert ch rank => Sys2Proof.Machine.execWriteCrcAlert ch rank s
  | .pmicFault ch => Sys2Proof.Machine.execPmicFault ch s
  | .trainMcuWatchdog die => Sys2Proof.Machine.execTrainMcuWatchdog die s
  | .dataFlitReceived m e f => Sys2Proof.Machine.execDataFlitReceived m e f s
  | .creditFlit m e f => Sys2Proof.Machine.execCreditFlit m e f s
  | .retrainRequest m e f => Sys2Proof.Machine.execRetrainRequest m e f s
  | .handover m e f => Sys2Proof.Machine.execHandover m e f s
  | .returnFlit m e f => Sys2Proof.Machine.execReturnFlit m e f s
  | .trainPattern m e f => Sys2Proof.Machine.execTrainPattern m e f s
  | .trainParameters m e f => Sys2Proof.Machine.execTrainParameters m e f s
  | .trainDone m e f margin repaired => Sys2Proof.Machine.execTrainDone m e f margin repaired s
  | .dieRead m r => Sys2Proof.Machine.execDieRead m r s
  | .dieWrite m r data side => Sys2Proof.Machine.execDieWrite m r data side s
  | .channelCommand m ch k tag => Sys2Proof.Machine.execChannelCommand m ch k tag s
  | .dieEvent m num source => Sys2Proof.Machine.execDieEvent m num source s
  | .lineData m entries => Sys2Proof.Machine.execLineData m entries s
  | .writeDone m tags => Sys2Proof.Machine.execWriteDone m tags s
  | .commandDone m tag ok => Sys2Proof.Machine.execCommandDone m tag ok s
  | .eventTaken m nums => Sys2Proof.Machine.execEventTaken m nums s
  | .ackDue m e => Sys2Proof.Machine.execAckDue m e s
  | .ctrlFlitDue m e => Sys2Proof.Machine.execCtrlFlitDue m e s
  | .replayTimerExpiry m e => Sys2Proof.Machine.execReplayTimerExpiry m e s
  | .creditLeakDetected m e => Sys2Proof.Machine.execCreditLeakDetected m e s
  | .leakRetrainStart m => Sys2Proof.Machine.execLeakRetrainStart m s
  | .silenceTimeout m => Sys2Proof.Machine.execSilenceTimeout m s
  | .retrainTimeout m => Sys2Proof.Machine.execRetrainTimeout m s
  | .handoverTimeout die => Sys2Proof.Machine.execHandoverTimeout die s
  | .returnAttempt m trained => Sys2Proof.Machine.execReturnAttempt m trained s
  | .returnSoakEnd m clean => Sys2Proof.Machine.execReturnSoakEnd m clean s
  | .shadowRecord v => Sys2Proof.Machine.execShadowRecord s v
  | .driveCommandComplete n id => Sys2Proof.Machine.execDriveCommandComplete n id s
  | .epochEnd => Sys2Proof.Machine.execEpochEnd s
  | .epochClose => Sys2Proof.Machine.execEpochClose s
  | .refreshLapStep => Sys2Proof.Machine.execRefreshLapStep s
  | .windowRecompute saturatedRate => Sys2Proof.Machine.execWindowRecompute saturatedRate s
  | .holdupSample senseMv => Sys2Proof.Machine.execHoldupSample senseMv s
  | .gpfPhase1 head => Sys2Proof.Machine.execGpfPhase1 head s
  | .gpfPhase2 head => Sys2Proof.Machine.execGpfPhase2 head s
  | .saveStart => Sys2Proof.Machine.execSaveStart s
  | .gpfTimeout => Sys2Proof.Machine.execGpfTimeout s
  | .saveQueueEmpty => Sys2Proof.Machine.execSaveQueueEmpty s
  | .saveFlushComplete => Sys2Proof.Machine.execSaveFlushComplete s
  | .parityWritebackDone => Sys2Proof.Machine.execParityWritebackDone s
  | .pwrfailReturn => Sys2Proof.Machine.execPwrfailReturn s
  | .resumeInPlace => Sys2Proof.Machine.execResumeInPlace s
  | .driveSaveTimeout n => Sys2Proof.Machine.execDriveSaveTimeout n s
  | .driveFail n timeout => Sys2Proof.Machine.execDriveFail n timeout s
  | .driveRebuildStep n blocks => Sys2Proof.Machine.execDriveRebuildStep n blocks s
  | .imageCreate calibrationRate => Sys2Proof.Machine.execImageCreate calibrationRate s
  | .coldReset b => Sys2Proof.Machine.execColdReset b s
  | .pwrgoodFall => Sys2Proof.Machine.execPwrgoodFall s
  | .warmReset => Sys2Proof.Machine.execWarmReset s
  | .portReset p => Sys2Proof.Machine.execPortReset p s
  | .perstRelease p => Sys2Proof.Machine.execPerstRelease p s
  | .poolInitGroup => Sys2Proof.Machine.execPoolInitGroup s
  | .imageRead f => Sys2Proof.Machine.execImageRead f s
  | .restoreIndexBuilt => Sys2Proof.Machine.execRestoreIndexBuilt s
  | .voidOverwriteStep blocks => Sys2Proof.Machine.execVoidOverwriteStep blocks s
  | .restoreRecordRead ok hint => Sys2Proof.Machine.execRestoreRecordRead ok hint s
  | .restoreExtentDone => Sys2Proof.Machine.execRestoreExtentDone s
  | .upspeedRetry head success => Sys2Proof.Machine.execUpspeedRetry head success s
  | .accountingInterval => Sys2Proof.Machine.execAccountingInterval s
  | .linkTrained head l => Sys2Proof.Machine.execLinkTrained head l s
  | .linkDown head => Sys2Proof.Machine.execLinkDown head s
  | .l0pRequest head width => Sys2Proof.Machine.execL0pRequest head width s
  | .ldReset fn => Sys2Proof.Machine.execLdReset fn s
  | .configRequest head fn offset => Sys2Proof.Machine.execConfigRequest head fn offset s
  | .mmioBadAccess fn offset read => Sys2Proof.Machine.execMmioBadAccess fn offset read s
  | .registerWrite fn offset value four => Sys2Proof.Machine.execRegisterWrite fn offset value four s
  | .doorbell ld page value pasid => Sys2Proof.Machine.execDoorbell ld page value pasid s
  | .descriptorFetch q ds => Sys2Proof.Machine.execDescriptorFetch q ds s
  | .zeroRange q id => Sys2Proof.Machine.execZeroRange q id s
  | .copyRange q id hint => Sys2Proof.Machine.execCopyRange q id hint s
  | .pinHot q id hint => Sys2Proof.Machine.execPinHot q id hint s
  | .unpin q id => Sys2Proof.Machine.execUnpin q id s
  | .promote q id hint => Sys2Proof.Machine.execPromote q id hint s
  | .demote q id hint => Sys2Proof.Machine.execDemote q id hint s
  | .hardenRange q id => Sys2Proof.Machine.execHardenRange q id s
  | .compressOut q id dmaOk => Sys2Proof.Machine.execCompressOut q id dmaOk s
  | .decompressIn q id buf hint => Sys2Proof.Machine.execDecompressIn q id buf hint s
  | .heatReport q id dmaOk => Sys2Proof.Machine.execHeatReport q id dmaOk s
  | .fence q id => Sys2Proof.Machine.execFence q id s
  | .poqCompletion q id dmaOk => Sys2Proof.Machine.execPoqCompletion q id dmaOk s
  | .coalesceTimer q => Sys2Proof.Machine.execCoalesceTimer q s
  | .queueDrained q => Sys2Proof.Machine.execQueueDrained q s
  | .eyeletNotice ld ch value pasid => Sys2Proof.Machine.execEyeletNotice ld ch value pasid s
  | .eyeletDequeue ld ch => Sys2Proof.Machine.execEyeletDequeue ld ch s
  | .commandBlockRead ld ch b => Sys2Proof.Machine.execCommandBlockRead ld ch b s
  | .eyeletConfigWrite ld ch value => Sys2Proof.Machine.execEyeletConfigWrite ld ch value s
  | .eventRingEnable ld value => Sys2Proof.Machine.execEventRingEnable ld value s
  | .lockRegisterRead lock readers => Sys2Proof.Machine.execLockRegisterRead lock readers s
  | .lockReleaseWrite lock p value => Sys2Proof.Machine.execLockReleaseWrite lock p value s
  | .lockLeaseExpiry lock => Sys2Proof.Machine.execLockLeaseExpiry lock s
  | .identifyMemoryDevice m => Sys2Proof.Machine.execIdentifyMemoryDevice m s
  | .getHealthInfo m => Sys2Proof.Machine.execGetHealthInfo m s
  | .getAlertConfiguration m => Sys2Proof.Machine.execGetAlertConfiguration m s
  | .setAlertConfiguration m cfg => Sys2Proof.Machine.execSetAlertConfiguration m cfg s
  | .getShutdownState m => Sys2Proof.Machine.execGetShutdownState m s
  | .setShutdownState m st => Sys2Proof.Machine.execSetShutdownState m st s
  | .getTimestamp m => Sys2Proof.Machine.execGetTimestamp m s
  | .setTimestamp m t => Sys2Proof.Machine.execSetTimestamp m t s
  | .getEventRecords m log => Sys2Proof.Machine.execGetEventRecords m log s
  | .clearEventRecords m log all handles => Sys2Proof.Machine.execClearEventRecords m log all handles s
  | .getEventInterruptPolicy m => Sys2Proof.Machine.execGetEventInterruptPolicy m s
  | .setEventInterruptPolicy m p => Sys2Proof.Machine.execSetEventInterruptPolicy m p s
  | .getSupportedLogs m => Sys2Proof.Machine.execGetSupportedLogs m s
  | .getLog m cel offset length => Sys2Proof.Machine.execGetLog m cel offset length s
  | .getFwInfo m => Sys2Proof.Machine.execGetFwInfo m s
  | .transferFw m slot p => Sys2Proof.Machine.execTransferFw m slot p s
  | .activateFw m online slot => Sys2Proof.Machine.execActivateFw m online slot s
  | .getPartitionInfo m => Sys2Proof.Machine.execGetPartitionInfo m s
  | .setPartitionInfo m volatile => Sys2Proof.Machine.execSetPartitionInfo m volatile s
  | .getDynamicCapacityConfiguration m => Sys2Proof.Machine.execGetDynamicCapacityConfiguration m s
  | .getDynamicCapacityExtentList m start count => Sys2Proof.Machine.execGetDynamicCapacityExtentList m start count s
  | .addDynamicCapacityResponse m tag accept => Sys2Proof.Machine.execAddDynamicCapacityResponse m tag accept s
  | .releaseDynamicCapacity m dpa length more => Sys2Proof.Machine.execReleaseDynamicCapacity m dpa length s more
  | .getPoisonList m dpa length => Sys2Proof.Machine.execGetPoisonList m dpa length s
  | .injectPoison m dpa => Sys2Proof.Machine.execInjectPoison m dpa s
  | .clearPoison m dpa data => Sys2Proof.Machine.execClearPoison m dpa data s
  | .sanitize m => Sys2Proof.Machine.execSanitize m s
  | .secureErase m => Sys2Proof.Machine.execSecureErase m s
  | .backgroundOperationStatus m => Sys2Proof.Machine.execBackgroundOperationStatus m s
  | .unsupportedCommand m opcode => Sys2Proof.Machine.execUnsupportedCommand m opcode s
  | .getLdInfo m => Sys2Proof.Machine.execGetLdInfo m s
  | .getLdAllocations m start limit => Sys2Proof.Machine.execGetLdAllocations m start limit s
  | .setLdAllocations m start allocs => Sys2Proof.Machine.execSetLdAllocations m start allocs s
  | .getQosControl m ld => Sys2Proof.Machine.execGetQosControl m ld s
  | .setQosControl m ld ctl => Sys2Proof.Machine.execSetQosControl m ld ctl s
  | .getQosStatus m ld => Sys2Proof.Machine.execGetQosStatus m ld s
  | .getQosAllocatedBw m start number => Sys2Proof.Machine.execGetQosAllocatedBw m start number s
  | .setQosAllocatedBw m start fractions => Sys2Proof.Machine.execSetQosAllocatedBw m start fractions s
  | .getQosBwLimit m start number => Sys2Proof.Machine.execGetQosBwLimit m start number s
  | .setQosBwLimit m start fractions => Sys2Proof.Machine.execSetQosBwLimit m start fractions s
  | .getMultiHeadedInfo m => Sys2Proof.Machine.execGetMultiHeadedInfo m s
  | .getHeadInfo m start number => Sys2Proof.Machine.execGetHeadInfo m start number s
  | .getDcdInfo m => Sys2Proof.Machine.execGetDcdInfo m s
  | .getHostDcRegionConfiguration m ld start number => Sys2Proof.Machine.execGetHostDcRegionConfiguration m ld start number s
  | .setDcRegionConfiguration m region blockSize sanitizeOnRelease => Sys2Proof.Machine.execSetDcRegionConfiguration m region blockSize sanitizeOnRelease s
  | .getDcRegionExtentLists m ld start count => Sys2Proof.Machine.execGetDcRegionExtentLists m ld start count s
  | .initiateDynamicCapacityAdd m ld e => Sys2Proof.Machine.execInitiateDynamicCapacityAdd m ld e s
  | .initiateDynamicCapacityRelease m ld tag => Sys2Proof.Machine.execInitiateDynamicCapacityRelease m ld tag s
  | .slafinUndefinedOpcode m opcode => Sys2Proof.Machine.execSlafinUndefinedOpcode m opcode s
  | .getSlafinInfo m => Sys2Proof.Machine.execGetSlafinInfo m s
  | .setSlafinVersion m version => Sys2Proof.Machine.execSetSlafinVersion m version s
  | .setOwnerKey m hash => Sys2Proof.Machine.execSetOwnerKey m hash s
  | .readRegisters m capId ld offset length => Sys2Proof.Machine.execReadRegisters m capId ld offset length s
  | .lockCommand m lock op => Sys2Proof.Machine.execLockCommand m lock op s
  | .setTierPolicy m mask policy watermark rate => Sys2Proof.Machine.execSetTierPolicy m mask policy watermark rate s
  | .setRangeAttr m ld poisonUnwritten devDpn pages => Sys2Proof.Machine.execSetRangeAttr m ld poisonUnwritten devDpn pages s
  | .setPageOwner m devDpn pages owner => Sys2Proof.Machine.execSetPageOwner m devDpn pages owner s
  | .setHostCapacity m pages => Sys2Proof.Machine.execSetHostCapacity m pages s
  | .setShadowPolicy m policy => Sys2Proof.Machine.execSetShadowPolicy m policy s
  | .setRegionDurable m region durable => Sys2Proof.Machine.execSetRegionDurable m region durable s
  | .restorePriority m req => Sys2Proof.Machine.execRestorePriority m req s
  | .getLossList m cursor max => Sys2Proof.Machine.execGetLossList m cursor max s
  | .reofferExtent m ld tag => Sys2Proof.Machine.execReofferExtent m ld tag s
  | .setRestorePolicy m policy => Sys2Proof.Machine.execSetRestorePolicy m policy s
  | .retryRestore m f => Sys2Proof.Machine.execRetryRestore m f s
  | .createQueue m sqBase cqBase pasid log2 vector coalCount coalTime index => Sys2Proof.Machine.execCreateQueue m sqBase cqBase pasid log2 vector coalCount coalTime index s
  | .destroyQueue m q => Sys2Proof.Machine.execDestroyQueue m q s
  | .setCoalesce m q vector coalCount coalTime => Sys2Proof.Machine.execSetCoalesce m q vector coalCount coalTime s
  | .bindDoorbell m page mode pasid => Sys2Proof.Machine.execBindDoorbell m page mode pasid s
  | .setPoqShare m ld weight quota => Sys2Proof.Machine.execSetPoqShare m ld weight quota s
  | .setMasters m entries => Sys2Proof.Machine.execSetMasters m entries s
  | .setRegPolicy m policy => Sys2Proof.Machine.execSetRegPolicy m policy s
  | .setSource m source config => Sys2Proof.Machine.execSetSource m source config s
  | .clearSource m source count => Sys2Proof.Machine.execClearSource m source count s
  | .getSources m first max => Sys2Proof.Machine.execGetSources m first max s
  | .awlArm m d => Sys2Proof.Machine.execAwlArm m d s
  | .awlDisarm m injection => Sys2Proof.Machine.execAwlDisarm m injection s
  | .readInsole m cursor max => Sys2Proof.Machine.execReadInsole m cursor max s
  | .unfreezeInsole m => Sys2Proof.Machine.execUnfreezeInsole m s
  | .setWeltPolicy m policy => Sys2Proof.Machine.execSetWeltPolicy m policy s
  | .quiesceChannel m channel => Sys2Proof.Machine.execQuiesceChannel m channel s
  | .rejoinChannel m channel => Sys2Proof.Machine.execRejoinChannel m channel s
  | .setChannelControl m channel control => Sys2Proof.Machine.execSetChannelControl m channel control s
  | .setLacePoint m module rate half => Sys2Proof.Machine.execSetLacePoint m module rate half s
  | .getRepairTable m channel cursor max => Sys2Proof.Machine.execGetRepairTable m channel cursor max s
  | .programKey m keyId flags ldMask ckid ld key => Sys2Proof.Machine.execProgramKey m keyId flags ldMask ckid ld key s
  | .destroyKey m keyId => Sys2Proof.Machine.execDestroyKey m keyId s
  | .slotDestructionComplete keyId => Sys2Proof.Machine.execSlotDestructionComplete keyId s
  | .queryKey m keyId => Sys2Proof.Machine.execQueryKey m keyId s
  | .setDefaultKey m ld keyId => Sys2Proof.Machine.execSetDefaultKey m ld keyId s
  | .setKeyQuota m ld quota => Sys2Proof.Machine.execSetKeyQuota m ld quota s
  | .grantShare m keyId ldMask => Sys2Proof.Machine.execGrantShare m keyId ldMask s
  | .getMarginReport m => Sys2Proof.Machine.execGetMarginReport m s
  | .setPortRate m head maxRate => Sys2Proof.Machine.execSetPortRate m head maxRate s
  | .compatRemap m dpa => Sys2Proof.Machine.execCompatRemap m dpa s
  | .compatClear m entry => Sys2Proof.Machine.execCompatClear m entry s
  | .compatList m => Sys2Proof.Machine.execCompatList m s
  | .driveRelease m drive confirm => Sys2Proof.Machine.execDriveRelease m drive confirm s
  | .driveRemove m drive => Sys2Proof.Machine.execDriveRemove m drive s
  | .getTargetTspVersion ld session => Sys2Proof.Machine.execGetTargetTspVersion ld session s
  | .getTargetCapabilities ld session => Sys2Proof.Machine.execGetTargetCapabilities ld session s
  | .setTargetConfiguration ld session ckidEnable => Sys2Proof.Machine.execSetTargetConfiguration ld session ckidEnable s
  | .getTargetConfiguration ld session => Sys2Proof.Machine.execGetTargetConfiguration ld session s
  | .getTargetConfigurationReport ld session => Sys2Proof.Machine.execGetTargetConfigurationReport ld session s
  | .lockTargetConfiguration ld session => Sys2Proof.Machine.execLockTargetConfiguration ld session s
  | .setTargetCkidSpecificKey ld session ckid slot key => Sys2Proof.Machine.execSetTargetCkidSpecificKey ld session ckid slot key s
  | .setTargetCkidRandomKey ld session ckid slot => Sys2Proof.Machine.execSetTargetCkidRandomKey ld session ckid slot s
  | .clearTargetCkidKey ld session ckid => Sys2Proof.Machine.execClearTargetCkidKey ld session ckid s
  | .tspUnsupportedRequest ld session opcode => Sys2Proof.Machine.execTspUnsupportedRequest ld session opcode s
  | .ideKmMessage p session stream set km => Sys2Proof.Machine.execIdeKmMessage p session stream set km s
  | .getVersion m => Sys2Proof.Machine.execGetVersion m s
  | .getCapabilities m => Sys2Proof.Machine.execGetCapabilities m s
  | .negotiateAlgorithms m algsOk => Sys2Proof.Machine.execNegotiateAlgorithms m algsOk s
  | .getDigests m => Sys2Proof.Machine.execGetDigests m s
  | .getCertificate m slot => Sys2Proof.Machine.execGetCertificate m slot s
  | .challenge m slot nonce => Sys2Proof.Machine.execChallenge m slot nonce s
  | .getMeasurements m index signed => Sys2Proof.Machine.execGetMeasurements m index signed s
  | .keyExchange m keyHash => Sys2Proof.Machine.execKeyExchange m keyHash s
  | .finish m sid authenticated => Sys2Proof.Machine.execFinish m sid authenticated s
  | .keyUpdate m sid => Sys2Proof.Machine.execKeyUpdate m sid s
  | .heartbeat m sid => Sys2Proof.Machine.execHeartbeat m sid s
  | .endSession m sid => Sys2Proof.Machine.execEndSession m sid s
  | .vendorDefinedRequest m serial nonce signature => Sys2Proof.Machine.execVendorDefinedRequest m serial nonce signature s
  | .mctpControlMessage setEid reset => Sys2Proof.Machine.execMctpControlMessage setEid reset s
  | .doeDiscovery ld index => Sys2Proof.Machine.execDoeDiscovery ld index s
  | .cdatTableAccess ld entry => Sys2Proof.Machine.execCdatTableAccess ld entry s
  | .secureWatchdogExpiry => Sys2Proof.Machine.execSecureWatchdogExpiry s
  | .normalWatchdogExpiry => Sys2Proof.Machine.execNormalWatchdogExpiry s
  | .coreException core => Sys2Proof.Machine.execCoreException core s
  | .secureWorldReady activeOk otherOk inTime => Sys2Proof.Machine.execSecureWorldReady activeOk otherOk inTime s
  | .svnRaise w => Sys2Proof.Machine.execSvnRaise w s
  | .ownerTableChange page o => Sys2Proof.Machine.execOwnerTableChange page o s
  | .gateRequest core b gated => Sys2Proof.Machine.execGateRequest core b gated s
  | .ownerViolation r page write line => Sys2Proof.Machine.execOwnerViolation r page write s line
  | .extest boundary => Sys2Proof.Machine.execExtest boundary s
  | .idcode => Sys2Proof.Machine.execIdcode s
  | .samplePreload boundary => Sys2Proof.Machine.execSamplePreload boundary s
  | .clamp => Sys2Proof.Machine.execClamp s
  | .highz => Sys2Proof.Machine.execHighz s
  | .bypass code => Sys2Proof.Machine.execBypass code s
  | .eventArrival events => Sys2Proof.Machine.execEventArrival events s
  | .insoleExportWrite => Sys2Proof.Machine.execInsoleExportWrite s
  | .classReturn => Sys2Proof.Machine.execClassReturn s
  | .aliveToggle => Sys2Proof.Machine.execAliveToggle s
  | .heartbeatLost => Sys2Proof.Machine.execHeartbeatLost s
  | .awlInjection slot => Sys2Proof.Machine.execAwlInjection slot s
  | .insoleExportEnable head value => Sys2Proof.Machine.execInsoleExportEnable head value s
  | .freezeAll fn value => Sys2Proof.Machine.execFreezeAll fn value s
  | .cpmuConfigWrite fn unit counter cfg => Sys2Proof.Machine.execCpmuConfigWrite fn unit counter cfg s
  | .sampleCfgWrite fn p value => Sys2Proof.Machine.execSampleCfgWrite fn p value s
  | .dumpRingEnable fn value => Sys2Proof.Machine.execDumpRingEnable fn value s
  | .periodicDump fn => Sys2Proof.Machine.execPeriodicDump fn s
  | .avsPoll ack mv icore => Sys2Proof.Machine.execAvsPoll ack mv icore s
  | .thermalSensorRead tj => Sys2Proof.Machine.execThermalSensorRead tj s
  | .xtalLoss => Sys2Proof.Machine.execXtalLoss s
  | .pllUnlock => Sys2Proof.Machine.execPllUnlock s
  | .channelPllUnlock pair => Sys2Proof.Machine.execChannelPllUnlock pair s
  | .thermAlert => Sys2Proof.Machine.execThermAlert s
  | .drivePresenceChange n present => Sys2Proof.Machine.execDrivePresenceChange n present s
  | .priorityHoldEnd master rowHold => Sys2Proof.Machine.execPriorityHoldEnd master rowHold s
  | .arbiterWaitAge tag => Sys2Proof.Machine.execArbiterWaitAge tag s
  | .pmicPowerGood ch => Sys2Proof.Machine.execPmicPowerGood ch s
  | .slotSupplySettled ch dimms => Sys2Proof.Machine.execSlotSupplySettled ch dimms s
  | .slotSupplyOff ch => Sys2Proof.Machine.execSlotSupplyOff ch s
  | .driveLinkUp n d => Sys2Proof.Machine.execDriveLinkUp n d s
  | .backgroundOperationDone fn => Sys2Proof.Machine.execBackgroundOperationDone fn s
  | .normalWorldReady => Sys2Proof.Machine.execNormalWorldReady s
  | .aonSupplyLoss => Sys2Proof.Machine.execAonSupplyLoss s
  | .resetNRelease b => Sys2Proof.Machine.execResetNRelease b s
  | .changeDeferralTimeout target => Sys2Proof.Machine.execChangeDeferralTimeout target s
  | .msixVectorUnmask fn vector => Sys2Proof.Machine.execMsixVectorUnmask fn vector s
  | .hdmDecoderCommit ld n base size ways gran => Sys2Proof.Machine.execHdmDecoderCommit ld n base size ways gran s

end Sys2Proof.Machine
end

