-- ==== Sys2Proof/Safety.lean ====
section
/-! DEFINITION. What a good state is, in the terms that claims use: the tables that hold memory have one form for one content, and the
settings that commands may change stay inside the limits that the spec gives them. -/

namespace Sys2Proof.Machine

/-- Memory has one form for one content: the bytes and the side bits of DRAM (06 R123). -/
def State.memOk (s : State) : Bool := Memory.wf s.dram.data && Tab.wf (sideDefault s.w) s.dram.side

/-- What no operation changes but the commands meant to: the part, the waiting commands, and what the spec calls settings, the policy registers of the
blocks and the key quotas. -/
structure Settings where
  ev8820 : Bool
  pending : List Instr
  tierPolicy : TierPolicy
  watermark : TierWatermark
  tierRate : TierRate
  weltPolicy : WeltPolicy
  shadowPolicy : ShadowPolicy
  restorePct : Nat
  upspeedDelayS : Nat
  optimalPct : Nat
  moderatePct : Nat
  ageUs : Nat
  quota : Tab Nat
  deriving DecidableEq, Repr

def State.settings (s : State) : Settings where
  ev8820 := s.ev8820
  pending := s.pending
  tierPolicy := s.tier.policy
  watermark := s.tier.watermark
  tierRate := s.tier.rate
  weltPolicy := s.welt.policy
  shadowPolicy := s.shank.policy
  restorePct := s.resume.restorePct
  upspeedDelayS := s.resume.upspeedDelayS
  optimalPct := s.reg.optimalPct
  moderatePct := s.reg.moderatePct
  ageUs := s.reg.ageUs
  quota := s.keys.quota

/-- Every setting lies inside its limits: the limits of TIER_POLICY, of the order of the watermarks and of TIER_RATE (03 R61 and its register
table), of WELT_POLICY (06 R161), of SHADOW_POLICY (09), of RESTORE_POLICY (10), of REG_POLICY (11 R287) and of a key quota (05). -/
def Settings.ok (x : Settings) : Prop :=
  (1 ≤ x.tierPolicy.decayMs ∧ x.tierPolicy.decayMs ≤ 60000 ∧ 1 ≤ x.tierPolicy.demoteMinGain ∧ x.tierPolicy.demoteMinGain ≤ 63)
    ∧ (x.watermark.freeHigh ≤ 1000 ∧ x.watermark.freeLow < x.watermark.freeHigh ∧ x.watermark.pressure < x.watermark.freeLow
      ∧ x.watermark.reserve < x.watermark.pressure ∧ 1 ≤ x.watermark.reserve)
    ∧ (1 ≤ x.tierRate.sweepBw ∧ x.tierRate.sweepBw ≤ 256 ∧ 10 ≤ x.tierRate.releaseRetryMs ∧ x.tierRate.releaseRetryMs ≤ 10000)
    ∧ (1 ≤ x.weltPolicy.scrubDays ∧ x.weltPolicy.scrubDays ≤ 30 ∧ 10 ≤ x.weltPolicy.sparePermille ∧ x.weltPolicy.sparePermille ≤ 100
      ∧ 1 ≤ x.weltPolicy.rebuildBw ∧ x.weltPolicy.rebuildBw ≤ 1024)
    ∧ (10 ≤ x.shadowPolicy.epochMs ∧ x.shadowPolicy.epochMs ≤ 10000 ∧ x.shadowPolicy.gpfTimeoutMs ≤ 10 ∧ 50 ≤ x.shadowPolicy.softPct
      ∧ x.shadowPolicy.softPct ≤ 95 ∧ 1 ≤ x.shadowPolicy.lapHours ∧ x.shadowPolicy.lapHours ≤ 168 ∧ 1 ≤ x.shadowPolicy.rebuildBw
      ∧ x.shadowPolicy.rebuildBw ≤ 64)
    ∧ (10 ≤ x.restorePct ∧ x.restorePct ≤ 50 ∧ 1 ≤ x.upspeedDelayS)
    ∧ (1 ≤ x.optimalPct ∧ x.optimalPct ≤ 126 ∧ x.optimalPct < x.moderatePct ∧ 1 ≤ x.ageUs)
    ∧ ∀ p ∈ x.quota, p.2 ≤ 4095

/-- A SLAFIN message reaches the device and passes the checks of its command. -/
def State.runs (s : State) (m : Msg) (g : Gate) : Prop := s.arrives m g.op = true ∧ s.turnAway g m = none

/-- A SLAFIN message reaches the device, and a check of its command turns it away with a status. -/
def State.turned (s : State) (m : Msg) (g : Gate) (st : W16) : Prop := s.arrives m g.op = true ∧ s.turnAway g m = some st

/-- A standard command reaches the device on a path that takes it; an FM-API command finds no removal of another one under way. -/
def State.taken (s : State) (m : Msg) (op : Nat) (ok : Path → Bool) : Prop :=
  s.arrives m op = true ∧ ok m.path = true ∧ (op < 0x5400 ∨ (s.cmd.removals.any fun r => decide (r.op ≥ 0x5400)) = false)

end Sys2Proof.Machine
end

