-- ==== Sys2Proof/Certificates/Slice0/Obligations.lean ====
section
/-! DEFINITION. The statements. The first forty-two say, family by family of the table, that each command completes: on hypotheses about the state and the
operands alone, the exact state it answers. The others are the rules of the whole machine. -/

open Sys2Proof Sys2Proof.Machine

/-- A read, a write and a partial write of a line each answer the state in which the request path has taken the access, with the notice of the window.
A full-line write is the partial write that names every byte. (R12, R18, R138) -/
def Obligations.HostRequestsEnter : Prop := ∀ (a : Access) (d : Line) (be : W64) (poison : Bool) (s : State),
  exec (.cxlMemRead a) s = .next (s.accept a none (BitVec.allOnes 64) false).windowNotice
    ∧ exec (.cxlMemWrite a d poison) s = .next (s.accept a (some d) (BitVec.allOnes 64) poison).windowNotice
    ∧ exec (.partialLineWrite a d be) s = .next (s.accept a (some d) be false).windowNotice
    ∧ exec (.partialLineWrite a d (BitVec.allOnes 64)) s = exec (.cxlMemWrite a d false) s

/-- What happens in the Last cache and the write path on its own time: a Last entry that was waited for lets its requests go on; the cache writes back
the modified entries above an eighth of its ways; a buffered line drains by a delta write when no older read of it is open; a rebuild that ends
delivers its line to the request that waits and is written back after that; a verify read that finds the stored line good, by its data check or by the
members of its group, only ends the verification; a merge entry takes the bytes its mask does not name from the old line that arrives, or from the
line that stands in the write buffer, and the writes that wait for it complete. (R46, R45, R133, R142, R141, R138) -/
def Obligations.PathEvents : Prop :=
  (∀ (s : State),
  (∀ dpn, s.last.missq.contains dpn = true → (s.pageWay dpn).isSome = true →
    exec (.lastEntryReturned dpn) s =
      .next ((((s.path.reqs.filter fun r => decide (r.dpn = dpn) && decide (r.phase = .miss)).map (·.tag)).foldl (fun s t => s.dispatch true t)
        (s.mapLast fun l => { l with missq := l.missq.erase dpn })).fillMissQueue.wake))
  ∧ exec .lastCacheClean s = .next ((s.modifiedWays.take (s.last.modified - Config.lastSets * Config.lastWays / 8)).foldl State.cleanWay s)
  ∧ (∀ dpn line old reads w, s.buffered dpn line.val = some w → s.olderRead dpn line.val = false → (s.entry dpn).hotForm = true →
    exec (.weltDeltaWrite dpn line old reads) s = .next (s.drainLine w old reads).wake)
  ∧ (∀ (frame : Frame) (line : Fin 64) (reads : List MemberRead) (j : Rebuild) (tag : BitVec 13),
    (s.welt.rebuilds.find? fun j => decide (j.frame = frame) && decide (j.line = line)) = some j → j.forWhom = .request tag →
    s.place frame.toNat = .missing →
    exec (.rebuildComplete frame line reads) s =
      .next ((((s.mapWelt fun w => { w with rebuilds := w.rebuilds.erase j }).finishRebuild frame.toNat line.val none reads none (some tag)).2.deliver
        tag frame.toNat line.val
        ((s.mapWelt fun w => { w with rebuilds := w.rebuilds.erase j }).finishRebuild frame.toNat line.val none reads none (some tag)).1).flushBacks).wake)
  ∧ (∀ frame line u v p, (s.welt.verifies.find? fun v => decide (v.1 = frame) && decide (v.2.1 = line)) = some v → s.place frame.toNat = .at p →
    u.err = false → (if isParity s.w frame.toNat
      then checkParity ((s.lineAt frame.toNat p line.val).flip u) (s.parityAx (groupOf s.w frame.toNat) line.val)
      else checkData ((s.lineAt frame.toNat p line.val).flip u) (pla p line.val)) = true →
    exec (.verifyReadResult frame line u) s = .next (s.mapWelt fun w => { w with verifies := w.verifies.erase v })))
  ∧ (∀ (dpn : Dpn) (line : Fin 64) (u : Upset) (s t : State) (m : MergeEntry) (x : Line) (poison : Bool),
  s.mergeOf dpn line.val = some m → m.filled = false → (s.entry dpn).hotForm = true →
  ((∃ w, s.buffered dpn line.val = some w ∧ x = w.data ∧ poison = w.poison ∧ t = s)
    ∨ (∃ r, s.buffered dpn line.val = none
      ∧ (s.chargeRebuild m.ld.val (s.entry dpn).frame.toNat line.val u).oldLine (s.entry dpn).frame.toNat line.val u = (some r, t)
      ∧ x = t.decHot (s.entry dpn).key.toNat dpn.toNat line.val r ∧ poison = metaPoison (sideMeta r.side))) →
  exec (.mergeOldLineArrived dpn line u) s =
    .next (((t.bufferLine dpn line (mergeBytes x m.data m.be) poison (some m.ld)).completeMerge m).mapPath fun p =>
      { p with
        merge := replaceFirst (fun q => decide (q.dpn = dpn) && decide (q.line = line)) (fun q => { q with
            data := mergeBytes x m.data m.be, filled := true, entered := true, tags := [] }) p.merge }).wake)

/-- The end of a decode of a plain line, on the engine that runs it, finishes its read; a shadow-repair record rewrites the chunk of a page that is
hot; a chunk that its engine has coded is kept at its tracker; and a result that an engine out of service delivers late is dropped. (R82, R91, R83,
R94) -/
def Obligations.CodecEvents : Prop := ∀ (s : State),
  (∀ tag (decomp : Fin 16) retryBad rereads r ls t, s.req tag = some r → r.phase = .decode →
    s.lateOn (8 + decomp.val) (fun j => decide (j.user = .hostRead tag)) = none → s.jobOn (8 + decomp.val) (fun j => decide (j.user = .hostRead tag)) = true →
    t = s.endJobs (fun j => decide (j.user = .hostRead tag)) →
    (t.injs.find? fun p => decide (p.2.d.kind = 8) && p.2.due && decide (p.2.d.target.toNat = decomp.val)) = none → t.reqPlain r r.got = some ls →
    exec (.chunkDecodeDone tag decomp false retryBad rereads) s =
      .next (((t.chunkDecoded r).finishRead r (lineOf ls r.line.val) false).flushBacks).wake)
  ∧ (∀ tag (decomp : Fin 16) bad retryBad rereads j, s.lateOn (8 + decomp.val) (fun j => decide (j.user = .hostRead tag)) = some j →
    exec (.chunkDecodeDone tag decomp bad retryBad rereads) s = .next (s.dropLate j))
  ∧ (∀ dpn chunk hint j rec ls, (s.codec.repair.find? fun j => decide (j.dpn = dpn) && decide (j.chunk = chunk)) = some j →
    (s.charge mScrub (chargeRead 1)).recordOf dpn = some rec → rec.bad = false →
    (s.charge mScrub (chargeRead 1)).recordChunk rec chunk.val = some ls → (s.entry dpn).hotForm = true →
    exec (.shadowRepairRecordRead dpn chunk true hint) s =
      .next ((((s.charge mScrub (chargeRead 1)).mapCodec fun c => { c with repair := c.repair.erase j }).countCodec 5).patchLines dpn chunk.val ls
        j.granule).wake)
  ∧ (∀ n chunk engine t mine, s.tracker n.val = some t → t.flipped = false → t.recode.getLsbD chunk.val = true →
    Tab.get (fun _ => none) t.coded chunk.val = none → s.lateOn engine.val (fun j => decide (j.chunk = chunk.val)) = none →
    mine = (fun j : CodecJob => decide (j.dpn = t.dpn) && decide (j.chunk = chunk.val) && decide (j.user.kind = 0)) → s.jobOn engine.val mine = true →
    ∃ c, c = codeChunk 0 (chunkLines (s.pageLines t.dpn) chunk.val)
      ∧ exec (.chunkCoded n chunk engine false) s =
        .next ((((if c.cnt = 16 then ((s.pmCrypto 0 16).pmCodec 1).countCodec 1 else (s.pmCrypto 0 16).pmCodec 1).countCodec 0).setTracker n.val
          (some { t with coded := Tab.set (fun _ => none) chunk.val (some c) t.coded })).endJobs mine))

/-- The tier manager: a migration whose condition holds and that can start does; a copy round of a promotion that no write holds open closes when the
decodes it needs have ended; a source is released where it can be; a queued promotion and a background demotion start; a sparse bin is compacted, the
pages that find no tracker waiting for one; a release is asked of the hosts under pressure; and the sweep shifts the HEAT of the page it visits right
by the amount of its pass, at most 8, gives it to the heat map, and moves on, its reads and its write-backs charged. (R50, R54, R52, R59, R62, R64,
R69, R56, R71) -/
def Obligations.TierEvents : Prop :=
  (∀ (s : State),
  (∀ dpn kind hint t, s.migrationDue kind dpn = true → s.startMigration kind dpn hint = some t →
    exec (.migrationStart dpn kind hint) s = .next (t.migrationTaken kind dpn).wake)
  ∧ (∀ n t, s.tracker n.val = some t → t.flipped = false → s.writesOpen t.dpn = false → t.kind = .readPromotion →
    (s.endDecodes t.dpn).decodesWait t.dpn = false →
    exec (.migrationCopyRoundDone n) s = .next ((s.endDecodes t.dpn).closeCopyRound n.val t).wake)
  ∧ (∀ n, exec (.migrationSourceRelease n) s = .next (s.tryRelease n.val).wake)
  ∧ (∀ hint d r t, s.tier.promoQueue = d :: r → s.tier.freeFrames > s.lowFrames → (s.entry d).state = .warm →
    s.startMigration .readPromotion d hint = some t →
    exec (.queuedPromotionStart hint) s = .next (t.mapTier fun x => { x with promoQueue := r }).wake)
  ∧ (∀ hint d u t, s.tier.demoting = true → s.path.fenced = false → s.allFenced 0 = false → (s.freeTracker .demotion).isSome = true →
    s.takeCandidate (8 * Config.bucketMax) = (some d, u) → u.startMigration .demotion d hint = some t →
    exec (.backgroundDemotionStart hint) s = .next t)
  ∧ (∀ bin hint, (s.frameRec bin.toNat).kind = .bin → granulesUsed (s.frameRec bin.toNat).map < 32 → s.tier.freeFrames ≤ s.lowFrames →
    exec (.binCompaction bin hint) s = .next ((s.frameRec bin.toNat).dpns.foldl (fun s d => s.startOrWait .compaction d hint) s))
  ∧ (∀ t req, s.tier.release = [] → t = s.mapTier (fun t => { t with release := [], releasePending := false }) → s.tier.poolFrames ≠ 0 →
    s.tier.freeFrames ≤ s.pressureFrames →
    req = (t.chooseRelease ((t.highFrames - t.tier.freeFrames) * 64)).flatMap (fun p => p.2.map fun n => (n, p.1.tag, p.1.devBase)) →
    exec .releaseReevaluation s =
      .next (((t.emits (req.map fun r => .releaseRequest r.1 r.2.1)).mapTier fun x => { x with release := req, releasePending := !req.isEmpty }).countTier 7
        (t.chooseRelease ((t.highFrames - t.tier.freeFrames) * 64)).length)))
  ∧ (∀ (s : State) (d : Dpn) (h : Byte), d = BitVec.ofNat 32 s.tier.sweepPos →
  h = (s.entry d).heat >>> (min 8 s.tier.passShift) → s.resume.level ≠ 0 → s.path.fenced = false → s.tier.sweepPos + 1 < s.last.hostPages →
  (s.entry d).state ≠ .hot → h ≠ (s.entry d).heat → s.pageWay d = none →
  exec .decaySweepVisit s =
    .next (((s.putTable d { s.tableEntry s.tier.sweepPos with heat := h }).chargeSweep s.tier.sweepPos true).mapTier fun t => { t with
      heatMapWork := Tab.set (fun _ => 0) (s.tier.sweepPos / 512)
        (if h > Tab.get (fun _ => 0) t.heatMapWork (s.tier.sweepPos / 512) then h else Tab.get (fun _ => 0) t.heatMapWork (s.tier.sweepPos / 512))
        t.heatMapWork
      sweepPos := s.tier.sweepPos + 1 }))

/-- A parity error of a memory whose content can be had again costs its record alone, a clean parity line is dropped, a codec engine in service is
treated as failed; the parity cache is cleaned to three quarters; a candidate row expires; a hard row goes to package repair with its rank out of
service; a row that waited too long is relocated; a repaired row brings its rank back; a relocated row whose frames are all retired is retired. (R129,
R135, R144, R145, R181, R146) -/
def Obligations.RowEvents : Prop :=
  (∀ (s : State) (ch : Fin 12) (idx : Fin 256),
  (s.inSave = false →
    exec .parityCacheClean s = .next ((s.dirtyParity.take (s.dirtyParity.length - Config.parityLines * 3 / 4)).foldl State.writeBackParity s))
  ∧ ((s.row (rowKey ch.val idx.val)).state = .candidate →
    exec (.candidateExpiry ch idx) s = .next (s.setRow (rowKey ch.val idx.val) rowReset))
  ∧ (∀ e n u, e = s.row (rowKey ch.val idx.val) → e.state = .hard → s.rowRepairable ch.val e = true → s.unitsOut = [] →
    s.inSave = false → s.inResume = false → (s.unitOut (e.scope ch.val) 2 none).unitFor (e.scope ch.val) = some (n, u) →
    exec (.rowRepairStart ch idx) s =
      .next (((s.unitOut (e.scope ch.val) 2 none).setUnit n (some { u with repair := some (rowKey ch.val idx.val) })).emits
        (e.devices.map fun d => .ddr ch "hard post-package repair" d)))
  ∧ ((s.row (rowKey ch.val idx.val)).state = .hard → exec (.repairWaitExpiry ch idx) s = .next (s.relocateRow ch.val idx.val))
  ∧ (∀ e n u t, e = s.row (rowKey ch.val idx.val) → s.unitFor (e.scope ch.val) = some (n, u) → e.state = .hard → u.cause = 2 → u.state = 0 →
    u.wholeChannel = false → u.repair = some (rowKey ch.val idx.val) →
    t = s.emits (e.devices.flatMap fun d => [.ddr ch "write repaired row" d, .ddr ch "read repaired row" d]) →
    exec (.postPackageRepairDone ch idx true) s =
      .next (((t.setRow (rowKey ch.val idx.val) { e with state := .repaired }).countWelt 4).rejoinStale n (s.rowFrames ch.val e)))
  ∧ (∀ e t, e = s.row (rowKey ch.val idx.val) → e.state = .relocating → t = (s.rowFrames ch.val e).foldl State.retireFrame s →
    (s.rowFrames ch.val e).all t.frameRetired = true →
    exec (.rowRetired ch idx) s = .next (t.setRow (rowKey ch.val idx.val) { e with state := .retired })))
  ∧ (∀ (s : State) (reads : List MemberRead),
  exec (.onchipParityError .other reads) s = .next (hubParity none s)
  ∧ (∀ dpn line w, s.buffered dpn line.val = some w →
    exec (.onchipParityError (.writeBuffer dpn line false) reads) s = .next (hubParity none s))
  ∧ (∀ (group : BitVec 28) (line : Fin 64) (p : ParityLine), s.cachedParity group.toNat line.val = some p → p.dirty = false →
    exec (.onchipParityError (.parityCache group line) reads) s =
      .next (hubParity (s.takeOnchip 0).1 ((s.takeOnchip 0).2.mapWelt fun w => { w with pcache := w.pcache.erase p })))
  ∧ (∀ n : Fin 26, s.engineFenced n.val = false →
    exec (.onchipParityError (.codecEngine n) reads) s = .next ((s.takeOnchip (2 + n.val)).2.engineParity n.val (s.takeOnchip (2 + n.val)).1)))

/-- The scrub reads the next line and lets a good one stand; an ECS count above ECS_LIMIT of a new row makes it a candidate; a rebuild step spares the
next stale frame; a map walk that has reached the end returns the unit to service; after a rejoin a page moves off a channel that holds more than its
share, to a free frame of the channel that rejoined. (R148, R149, R153, R158, R160) -/
def Obligations.UnitEvents : Prop := ∀ (s : State),
  (∀ u reads m r, s.groups ≠ 0 → s.inSave = false → s.resume.level ≠ 0 → s.scrubTarget (s.welt.scrubPos / 64) = some m →
    (s.scrubOn.charge mScrub (chargeRead 1)).scrubRead m (s.welt.scrubPos % 64) u = some (r, true) →
    exec (.scrubLine u reads) s = .next (s.scrubOn.charge mScrub (chargeRead 1)))
  ∧ (∀ (ch : Fin 12) ranksel (device : Fin 20) (count : W16) bank row i t, s.hasChannel ch.val = true → count.toNat > s.welt.policy.ecsLimit →
    (List.range 256).all (fun i => let e := (raise { Ev.of 71 with detail := [0, 0, 0, ch.val, ranksel.toNat, bank.toNat, row.toNat, 2 ^ device.val] } s).row (rowKey ch.val i)
      !(decide (e.state ≠ .free) && decide (e.row = row) && decide (e.ranksel = ranksel) && decide (e.bank = bank))) = true →
    (raise { Ev.of 71 with detail := [0, 0, 0, ch.val, ranksel.toNat, bank.toNat, row.toNat, 2 ^ device.val] } s).newRow ch.val = some (i, t) →
    exec (.ecsRead ch ranksel device count bank row) s =
      .next (t.setRow (rowKey ch.val i) { firstTime := BitVec.ofNat 64 t.time, lastTime := BitVec.ofNat 64 t.time, row, ranksel, bank
                                          state := .candidate, count := 0, mask := 1#20 <<< device.val }))
  ∧ (∀ slot reads u f t, s.unit slot.val = some u → u.cause ≠ 2 → u.state = 1 → u.base ≠ .withdrawn → s.inSave = false →
    u.progress ≥ s.rebuildPrelude → s.spareToMove u = none → s.nextStale u.scope = some f → s.spareOne f reads = some t →
    exec (.unitRebuildStep slot reads) s = .next (t.rebuildOn slot.val false))
  ∧ (∀ slot reads u, s.unit slot.val = some u → u.state = 5 → s.inSave = false → u.progress ≥ s.groups →
    exec (.unitMapResolve slot reads) s = .next (s.unitIn slot.val u))
  ∧ (∀ dpn (hint : Frame) t used c f, (∀ c, used c = (s.last.frames.filter fun p =>
      decide (channelOf s.w p.1 = c) && (decide (p.2.kind = .hot) || decide (p.2.kind = .bin))).length) →
    used (channelOf s.w (s.entry dpn).frame.toNat) * s.w * 100 > ((List.range s.w).map used).sum * 101 →
    channelOf s.w (s.entry dpn).frame.toNat < s.w → s.welt.rebalance = some c →
    s.nextFree (fun f => decide (channelOf s.w f = c.val)) (s.poolGroups * s.w) hint.toNat = some f →
    s.startMigration .rebalance dpn (BitVec.ofNat 32 f) = some t → exec (.rebalance dpn hint) s = .next t)

/-- A rank with no queued access is refreshed at once; with one, and below the limit, the refresh is owed; owed refreshes drain when nothing is
queued; a rank that can be used is tracked; an activation window starts empty; an aged request takes priority 7. (R173, R169, R176, R177) -/
def Obligations.ChannelTimers : Prop := ∀ (s : State) (ch : Fin 12),
  (∀ rank, s.hasChannel ch.val = true → (s.chan ch.val).live = true → s.rankThere ch.val rank.val = true → s.queuedFor ch.val rank.val = false →
    exec (.refreshDue ch rank) s = .next (s.refreshRank ch.val rank.val 1))
  ∧ (∀ rank, s.hasChannel ch.val = true → (s.chan ch.val).live = true → s.rankThere ch.val rank.val = true → s.queuedFor ch.val rank.val = true →
    (s.chan ch.val).owedOf rank.val < (s.chan ch.val).owedLimit →
    exec (.refreshDue ch rank) s = .next (s.updChan ch.val fun c => c.setOwed rank.val (c.owedOf rank.val + 1)))
  ∧ (∀ rank, (s.chan ch.val).owedOf rank.val ≠ 0 → s.queuedFor ch.val rank.val = false →
    exec (.owedRefreshDrain ch rank) s =
      .next ((s.updChan ch.val fun c => c.setOwed rank.val 0).refreshRank ch.val rank.val ((s.chan ch.val).owedOf rank.val)))
  ∧ (∀ lr, lr.val < s.logicalRanks ch.val → (s.chan ch.val).state = 0 → (s.chan ch.val).unusable.getLsbD lr.val = false →
    s.unitFor { channel := ch.val, whole := false, ranksel := s.rankOfLr ch.val lr.val } = none → s.ddr.mcuDown.getLsbD (ch.val / 6) = false →
    exec (.periodicTracking ch lr) s = .next (s.emit (.ddr ch "tracking" lr.val)))
  ∧ exec (.activationWindowStart ch) s = .next (s.updChan ch.val fun c => { c with hotRows := [] })
  ∧ (∀ tag, exec (.requestAgePromote ch tag) s = .next (s.updChan ch.val fun c =>
      { c with queue := c.queue.map fun r => if r.tag = tag then { r with priority := 7, aged := true } else r }))

/-- A training that ends with both margins at 20 or more brings its rank set to use; a slot whose pin falls holds a module; a supply that does not
come up ends the wait with NO_RESOURCE; parity and write CRC alerts are followed up; a PMIC fault takes the slots and the channel down; a
microcontroller that stops is restarted and counted. Module temperature has hysteresis: the doubled refresh rate starts at 85 degrees, or where a
device reports itself hot, and ends below 82; the doubled activation window, where the module is below 95, ends below 90 and else stays. (R169, R182,
R184, R428, R165) -/
def Obligations.ChannelTrouble : Prop :=
  (∀ (s : State) (ch : Fin 12),
  (∀ r t, s.hasChannel ch.val = true → s.training ch.val = true → (s.chan ch.val).pendingRate = none → (s.chan ch.val).full = false →
    t = s.updChan ch.val (fun c => { c with dimms := r.spd.foldl (fun t d => Tab.set (fun _ => none) d.1.val (some d.2) t) c.dimms }) →
    t.recordOk ch.val r.temp = true → r.cachedCheckOk = true → r.rdMargin ≥ 20 → r.wrMargin ≥ 20 →
    exec (.trainingComplete ch r) s =
      .next (((t.mapPower fun p => { p with margins := Tab.set (fun _ => (0, 0)) ch.val (r.rdMargin, r.wrMargin) p.margins }).trained ch.val false r).startDeferred
        ch.val).wake)
  ∧ (s.hasChannel ch.val = true → exec (.slotPresenceChange ch false) s = .next (s.updChan ch.val fun c => { c with present := true }))
  ∧ ((s.chan ch.val).slotStep = .powering → exec (.pmicPowerGoodTimeout ch) s = .next (s.rejoinEnds ch.val stNoResource))
  ∧ (∀ rank, exec (.caParityAlert ch rank) s = .next (s.channelAlert ch.val rank 0 none).wake
    ∧ exec (.writeCrcAlert ch rank) s = .next (s.channelAlert ch.val rank 1 none).wake)
  ∧ (s.hasChannel ch.val = true → exec (.pmicFault ch) s =
      .next (((raise { Ev.of (srcChan ch.val 4) with detail := [ch.val] } s).slotsOff ch.val).channelFails ch.val none).wake)
  ∧ (∀ die : Fin 2, s.ev8820 = false ∨ die.val = 0 →
    exec (.trainMcuWatchdog die) s = .next (raise { Ev.of 906 with detail := [die.val] } (s.mapDdr fun d =>
      { d with mcuRestarts := d.mcuRestarts + 1, mcuDown := d.mcuDown ||| (1#2 <<< die.val) }))))
  ∧ (∀ (s : State) (ch : Fin 12) (temps : List (Fin 2 × Option Byte)) (hot : Bool) (b : Byte),
  (Tab.get (fun _ => none) (s.chan ch.val).dimms 0).isSome = true → temps = [(0, some b)] →
  ∃ t, exec (.moduleTempRead ch temps hot) s = .next t
    ∧ (b.toNat < 95 → (t.chan ch.val).hotRefresh =
        (if hot = true ∨ b.toNat ≥ 85 then true else if b.toNat < 82 then false else (s.chan ch.val).hotRefresh)
      ∧ (t.chan ch.val).tfawDoubled = (if b.toNat < 90 then false else (s.chan ch.val).tfawDoubled)
      ∧ (t.chan ch.val).temp = b))

/-- The eight flit commands take one path. A flit with a good CRC and an acknowledgement that is valid is taken by its type: request, response,
control, training; any other type is a protocol error; what waits to be sent, and for the link to be free of old messages, then goes on. A flit whose
CRC fails is acted on in nothing but the count of the failure and its answer.
(R194, R200, R202, R206, R207, R209) -/
def Obligations.FlitsJudged : Prop :=
  (∀ (s : State) (m : Fin 4) (e : LaceEnd) (f : Flit) (margin : Nat) (rep : Byte),
  exec (.dataFlitReceived m e f) s = exec (.creditFlit m e f) s ∧ exec (.creditFlit m e f) s = exec (.retrainRequest m e f) s
    ∧ exec (.retrainRequest m e f) s = exec (.handover m e f) s ∧ exec (.handover m e f) s = exec (.returnFlit m e f) s
    ∧ exec (.returnFlit m e f) s = exec (.trainPattern m e f) s ∧ exec (.trainPattern m e f) s = exec (.trainParameters m e f) s
    ∧ exec (.trainParameters m e f) s = exec (.trainDone m e f 100 0) s
    ∧ (s.hasModule m.val = true → (s.laceMod m.val).state ≠ 0 → (s.laceMod m.val).state ≠ 4 → s.laceInj 5 m.val e = none →
      s.laceInj 6 m.val e = none → s.laceInj 7 m.val e = none → f.crcOk = true → (s.side m.val e).ackValid f.acknak f.ackSeq = true →
      exec (.trainDone m e f margin rep) s = .next (State.afterFlit (
        if f.type = 1 then (s.takeAck m.val e f.acknak f.ackSeq).takeData m.val e f .req
        else if f.type = 2 then (s.takeAck m.val e f.acknak f.ackSeq).takeData m.val e f .rsp
        else if f.type = 8 then (s.takeAck m.val e f.acknak f.ackSeq).takeCtrl m.val e f f.acknak
        else if f.type = 12 then (s.takeAck m.val e f.acknak f.ackSeq).takeTrain m.val e f margin rep
        else (s.takeAck m.val e f.acknak f.ackSeq).protocolError m.val) m.val)))
  ∧ (∀ (s : State) (m : Fin 4) (e : LaceEnd) (f : Flit), s.hasModule m.val = true →
  (s.laceMod m.val).state ≠ 0 → s.laceInj 5 m.val e = none → s.laceInj 6 m.val e = none → f.crcOk = false →
  ∃ t, exec (.dataFlitReceived m e f) s = .next t ∧ t.settings = s.settings ∧ t = (s.crcFails m.val e f.type f.seq none).afterFlit m.val)

/-- Reads and writes of a die join the queue of their channel, and a write stores its line; a channel command is sent on and answered; an event of the
die is raised and waits to be taken; line entries complete the reads of their tags, and write entries the writes. (R192, R396) -/
def Obligations.DieMessages : Prop := ∀ (s : State) (m : Fin 4),
  (∀ r : ReqSlot, s.carries m.val r.channel.val = true →
    exec (.dieRead m r) s = .next (s.enqueue r.channel.val
      { tag := r.tag, master := r.master, priority := r.priority, rt := r.rt, write := false, frame := r.frame, line := r.line
        count := r.countM1.val + 1, aged := false }))
  ∧ (∀ (r : ReqSlot) data side, s.carries m.val r.channel.val = true → channelOf s.w r.frame.toNat = r.channel.val →
    exec (.dieWrite m r data side) s = .next (((s.enqueue r.channel.val
      { tag := r.tag, master := r.master, priority := r.priority, rt := r.rt, write := true, frame := r.frame, line := r.line
        count := 1, aged := false }).setRaw r.frame.toNat r.line.val { data, side }).pmChan r.channel.val 2))
  ∧ (∀ ch k tag, s.carries m.val ch.val = true →
    exec (.channelCommand m ch k tag) s =
      .next ((s.updLaceMod m.val fun x => { x with commands := x.commands ++ [(tag, ch, k)] }).emit (.ddr ch (chanCmdName k) 0)))
  ∧ (∀ num (source : BitVec 11), s.hasModule m.val = true → 1024 + 512 * (m.val / 2) ≤ source.toNat →
    source.toNat < 1024 + 512 * (m.val / 2) + 384 → (s.laceMod m.val).events.contains num = false →
    exec (.dieEvent m num source) s =
      .next ((fire source.toNat (s.updLaceMod m.val fun x => { x with events := x.events ++ [num] })).post m.val .hub (eventTakenMsg num)))
  ∧ (∀ entries : List LineEntry, s.hasModule m.val = true → countOk entries.length = true →
    exec (.lineData m entries) s =
      .next ((entries.filter (·.last)).foldl (fun s x => s.dequeue x.tag false) (entries.foldl State.takeLine s)).wake)
  ∧ (∀ tags : List (BitVec 13), s.hasModule m.val = true → countOk tags.length = true →
    exec (.writeDone m tags) s = .next (tags.foldl (fun s t => s.dequeue t true) s))
  ∧ (∀ tag ok, s.hasModule m.val = true →
    exec (.commandDone m tag ok) s =
      .next ((s.updLaceMod m.val fun x => { x with commands := x.commands.filter fun c => decide (c.1 ≠ tag) }).emits
        (((s.laceMod m.val).commands.filter fun c => decide (c.1 = tag)).map fun c =>
          .ddr c.2.1 (if ok then "command done" else "command failed") 0)))
  ∧ (∀ nums : List W16, s.hasModule m.val = true → countOk nums.length = true →
    exec (.eventTaken m nums) s = .next (s.updLaceMod m.val fun x => { x with events := x.events.filter fun n => !nums.contains n }))

/-- An acknowledgement or a control flit is sent when it is due; a replay that is not acknowledged is sent again, and from the fourth time on the
module retrains; a credit leak schedules a retraining, and the schedule is carried out; silence retrains; a retraining that does not end fails; a die
whose partner module does not take over goes down; a failed module tries to come back at most 16 times, and a clean soak hands its traffic back.
(R195, R198, R196, R200, R201, R203, R206, R207) -/
def Obligations.LaceTimers : Prop := ∀ (s : State) (m : Fin 4) (e : LaceEnd),
  (s.laceUp m.val = true → (s.side m.val e).sinceAck > 0 → exec (.ackDue m e) s = .next (s.sendCtrl m.val e 0 1 0))
  ∧ (s.laceUp m.val = true →
    exec (.ctrlFlitDue m e) s =
      .next ((s.updSide m.val e fun d => { d with incReq := d.incReq + d.occReq, incRsp := d.incRsp + d.occRsp, occReq := 0, occRsp := 0 }).sendCtrl
        m.val e 0 1 0))
  ∧ (∀ t, s.laceUp m.val = true → (s.side m.val e).replay ≠ [] →
    t = raiseFencing { Ev.of (srcLace m.val 1) with detail := [m.val, if e = .hub then 0 else 1, (s.side m.val e).oldest] } (.module m.val)
      ((s.replayFrom m.val e (s.side m.val e).oldest).updSide m.val e fun d => { d with timeouts := d.timeouts + 1 }) →
    exec (.replayTimerExpiry m e) s = .next (if (s.side m.val e).timeouts ≥ 3 then t.startRetrain m.val else t))
  ∧ (s.laceUp m.val = true → (s.side m.val e).leakRun = true → (s.laceMod m.val).leakScheduled = false →
    exec (.creditLeakDetected m e) s =
      .next (raise { Ev.of (srcLace m.val 2) with detail := [m.val, 0, 0, (s.side m.val e).leak] }
        (s.updLaceMod m.val fun x => { x with leakScheduled := true })))
  ∧ (s.laceUp m.val = true → (s.laceMod m.val).leakScheduled = true →
    exec (.leakRetrainStart m) s = .next ((s.countLace m.val 5).startRetrain m.val))
  ∧ (s.laceUp m.val = true → exec (.silenceTimeout m) s = .next (s.startRetrain m.val))
  ∧ (s.hasModule m.val = true → (s.laceMod m.val).state = 3 → exec (.retrainTimeout m) s = .next (s.retrainFails m.val).wake)
  ∧ (∀ die : Fin 2, s.hasModule (2 * die.val) = true → (s.laceMod (2 * die.val)).state = 4 → (s.laceMod (partner (2 * die.val))).state ≠ 4 →
    (s.laceMod (partner (2 * die.val))).state ≠ 0 → (s.laceMod (partner (2 * die.val))).carryAll = false →
    exec (.handoverTimeout die) s = .next (s.dieDown die.val).wake)
  ∧ (∀ trained, s.hasModule m.val = true → (s.laceMod m.val).state = 4 → (s.laceMod (partner m.val)).carryAll = true →
    (s.laceMod m.val).returnAttempts < 16 → (s.laceMod m.val).soaking = false → (s.laceMod m.val).returning = false →
    exec (.returnAttempt m trained) s =
      .next (s.updLaceMod m.val fun x => { x with returnAttempts := x.returnAttempts + 1, soaking := trained }))
  ∧ ((s.laceMod m.val).soaking = true →
    exec (.returnSoakEnd m true) s =
      .next ((s.updLaceMod m.val fun x => { x with soaking := false, returning := true, returnSent := false, returnSeen := 0 }).tryReturn m.val))

/-- The oldest queued change of a hot page is recorded, when no write of it is pending and a compressor is free or none is in service, and the page is no longer DIRTY; a record that every drive has is done; an epoch ends, and
closes when nothing of it is open; the lap records the next durable page; the window follows the lowest saturated rate of its log of 60; a hold-up
sample gives the voltage, its mean over the samples kept and the usable energy. (R216, R234, R217, R218, R220, R225) -/
def Obligations.ShadowEvents : Prop := ∀ (s : State),
  (∀ v q rest, s.canRecord = true → s.shank.queue = q :: rest → s.repairWaits q.dpn = false → (s.slot (s.entry q.dpn).key.toNat).state = .loaded →
    (s.slot (s.entry q.dpn).key.toNat).persistent = false → s.shank.emergency = false → (s.entry q.dpn).state = .hot → (s.entry q.dpn).dirty = true →
    q.kind = .changed →
    s.writePending q.dpn = false → ((s.idleEngine 0).isSome = true ∨ s.allFenced 0 = true) →
    exec (.shadowRecord v) s =
      .next ((((s.mapShank fun k => { k with queue := rest }).touchEntry q.dpn fun e => { e with dirty := false }).recordPage q.dpn
        (queueAmount (s.entry q.dpn) .changed) 0 id (v := v)).slotQueuePassed.wake))
  ∧ (∀ n id w, (s.drive n.val).commands.contains id = true → (s.shank.writes.find? fun w => decide (w.page.lsn = id)) = some w →
    (s.updDrive n.val fun x => { x with commands := x.commands.erase id, written := x.written + 64 * (1 + w.page.granules.length) }).driveWaits id = false →
    exec (.driveCommandComplete n id) s =
      .next ((s.updDrive n.val fun x => { x with commands := x.commands.erase id, written := x.written + 64 * (1 + w.page.granules.length) }).recordDone
        id).wake)
  ∧ (s.shank.imageExists = true → s.shank.saveStep = 0 → s.shank.saveDone = false → exec .epochEnd s = .next s.endEpoch)
  ∧ (∀ e rest, s.shank.epochEnded = e :: rest → s.epochOpen e = false → s.shank.imageExists = true → s.shank.saveFailed = false → s.shank.harden = [] →
    exec .epochClose s = .next ((s.closeEpoch e .close).hardenDone e).freeSlots.wake)
  ∧ (∀ d t, s.canRecord = true → s.inSave = false → s.nextDurable s.shank.lapPos = some d → t = s.mapShank (fun k => { k with lapPos := d.toNat + 1 }) →
    (s.slot (s.entry d).key.toNat).state = .loaded → (s.slot (s.entry d).key.toNat).persistent = false → t.repairWaits d = false →
    (s.entry d).state ≠ .restoring →
    exec .refreshLapStep s = .next (t.recordPage d 0 0 fun r => { r with lap := true }).wake)
  ∧ (∀ sat t, t = (List.range 4).foldl (fun (s : State) n => s.updDrive n fun d => { d with rate := d.written / 100000000, written := 0 })
      (s.mapShank fun k =>
        { k with rFlushLog := (sat :: k.rFlushLog).take 60
                 rFlush := match (((sat :: k.rFlushLog).take 60).filterMap id).foldl (fun m x => match m with | none => some x | some y => some (min x y))
                     none with | some x => x | none => k.rFlush }) →
    exec (.windowRecompute sat) s = .next t.computeWindow.wake)
  ∧ (∀ mv b, s.holdup = some b → ∃ t u, exec (.holdupSample mv) s = .next t ∧ u = s.probeSample b (mv * b.vsenseRatio.toNat / 100)
    ∧ t.shank.lastSample = mv * b.vsenseRatio.toNat / 100
    ∧ t.shank.vSamples = (mv * b.vsenseRatio.toNat / 100 :: u.shank.vSamples).take 1000
    ∧ t.shank.vbankMv = t.shank.vSamples.sum / t.shank.vSamples.length
    ∧ t.shank.eUsableMj = usableEnergy u.shank.capMf t.shank.vbankMv b.vMinMv.toNat b.effPct.toNat)

/-- A save starts once, with the flush of the heads or without it where no LD is bound; the heads answer the two phases of the global flush, and when
all have, or time is over, the hosts are fenced; the image closes when nothing is queued or written; SAVE_DONE rises; the dirty parity lines are
written back; power that returns early ends the wait for the flush; and with power back the device goes on in place, without an image where the save lost too many
drives. (R212, R227, R228, R230, R137, R231, R237) -/
def Obligations.SaveSteps : Prop := ∀ (s : State),
  (∀ head, (s.headOf head.val).up = true → exec (.gpfPhase1 head) s = .next (s.emit (.port head "gpf phase 1 complete" 0)))
  ∧ (∀ head t, (s.headOf head.val).up = true → s.shank.saveStep = 1 → s.shank.emergency = false →
    t = (s.emit (.port head "gpf phase 2 complete" 0)).mapShank (fun k => { k with gpfHeads := k.gpfHeads ||| (1#4 <<< head.val) }) →
    exec (.gpfPhase2 head) s = .next (if t.gpfComplete then t.saveFence else t))
  ∧ (∀ t, s.shank.saveDone = false → s.shank.saveStep = 0 → s.inResume = false →
    t = ((s.countShank 4).mapShank fun k => { k with saveStep := 1, pwrfailLow := true, gpfHeads := 0 }).mapPower (fun p => { p with state := 1 }) →
    exec .saveStart s = .next (if (List.range t.nLds).any (fun n => (t.fn n).bound) then t else t.saveFence))
  ∧ (s.shank.saveStep = 1 → s.shank.emergency = false → exec .gpfTimeout s = .next s.saveFence)
  ∧ (s.shank.saveStep = 2 → s.imageUntouched = false → s.shank.queue = [] → s.shank.writes = [] →
    exec .saveQueueEmpty s = .next (s.closeSave.flushDrives.mapShank fun k => { k with saveStep := 3 }))
  ∧ (∀ t, s.shank.saveStep = 3 → t = ((if s.saveClean then s.countShank 5 else s).mapShank fun k => { k with saveStep := 4, saveDone := true }) →
    exec .saveFlushComplete s =
      .next ((insoleOther .reset [1, if s.saveClean then 1 else 0, if t.shank.saveFailed then 1 else 0] none t).emit (.pin "SAVE_DONE" true)))
  ∧ (∀ t, s.shank.saveDone = true → s.shank.savedParity = false → t = (s.welt.pcache.filter (·.dirty)).foldl (fun s p => s.writeBackParity p) s →
    exec .parityWritebackDone s =
      .next ((((List.range t.channels).foldl (fun (s : State) c => s.setSelfRefresh c true) t).mapShank fun k =>
        { k with savedParity := true }).mapPower fun p => { p with state := 2 }))
  ∧ (∀ t, s.shank.pwrfailLow = true → s.shank.saveStep = 1 → s.shank.emergency = false →
    t = ((s.mapShank fun k => { k with pwrfailLow := false }).mapShank fun k => { k with saveStep := 0, gpfHeads := 0 }) →
    exec .pwrfailReturn s =
      .next (fire 768 (t.mapPower fun p =>
        { p with state := (s.mapShank fun k => { k with pwrfailLow := false }).servicePower })).wake)
  ∧ (∀ r t u, s.shank.saveDone = true → s.shank.savedParity = true → s.shank.pwrfailLow = false → s.power.pwrgood = true →
    r = s.mapShank (fun k => { k with saveStep := 0, saveDone := false, savedParity := false, emergency := false, gpfHeads := 0 }) →
    t = (if s.shank.saveFailed then r.loseImage else r.refreshSupers false) →
    u = (List.range t.channels).foldl (fun (s : State) c => s.setSelfRefresh c false) t →
    exec .resumeInPlace s = .next (((List.range u.nHeads).foldl (fun (s : State) h => s.emit (.port (Fin.ofNat 4 h) "train" 0))
      ((u.mapPath fun p => { p with fenced := false }).mapPower fun p => { p with state := u.servicePower })).emit (.pin "SAVE_DONE" false)).wake)

/-- A drive that does not end its save in time, or fails, leaves its set; a rebuild step that reaches the end makes the set whole; an image is created
where there is none and the drives are fit. (R232, R237, R246) -/
def Obligations.DriveEvents : Prop := ∀ (s : State),
  (∀ n, s.inSave = true → s.shank.saveDone = false → s.driveWrites n.val = true →
    exec (.driveSaveTimeout n) s = .next ((s.countShank 6).failDrive n 2))
  ∧ (∀ n, s.driveWrites n.val = true → s.inSave = false →
    exec (.driveFail n false) s = .next ((raise { Ev.of 773 with detail := [n.val] } s).failDrive n 2).wake)
  ∧ (∀ n blocks t, s.shank.failedMember = some n → (s.drive n.val).state = 3 → s.inSave = false → s.inResume = false →
    t = s.updDrive n.val (fun d => { d with rebuilt := min s.driveBlocks (d.rebuilt + blocks) }) → (t.drive n.val).rebuilt ≥ t.driveBlocks →
    exec (.driveRebuildStep n blocks) s =
      .next (((t.updDrive n.val fun d => { d with state := 1 }).mapShank fun k => { k with failedMember := none }).refreshSupers false))
  ∧ (∀ rate, s.shank.imageExists = false → s.inSave = false → s.holdup.isSome = true → s.fitDrives ≠ [] → s.resume.image = 0 →
    exec (.imageCreate rate) s = .next (s.createImage rate).wake)

/-- A cold reset loses what is not kept and brings the device up; PWRGOOD falling loses the same; a warm reset keeps what a warm reset keeps and waits
for the release of RESET_N; the release of PERST trains the heads of the port, and a port reset takes them down and resets their functions. (R426,
R420, R427, R429) -/
def Obligations.Resets : Prop := ∀ (s : State),
  (∀ b : BringUp, b.wf = true →
    exec (.coldReset b) s = .next ((s.coldLoss.mapPower fun p => { p with pwrgood := true, resetNLow := false }).bringUp b true))
  ∧ exec .pwrgoodFall s = .next (s.coldLoss.mapPower fun p => { p with pwrgood := false })
  ∧ (s.power.pwrgood = true → s.power.resetNLow = false → s.shank.saveDone = false →
    exec .warmReset s = .next (s.warmLoss.mapPower fun p => { p with resetNLow := true }))
  ∧ (∀ p : Fin 2, s.hasHead (2 * p.val) = true → s.port.perstLow.getLsbD p.val = true →
    exec (.perstRelease p) s =
      .next (([2 * p.val, 2 * p.val + 1].filter (s.mapPort fun x => { x with perstLow := x.perstLow &&& ~~~(1#2 <<< p.val) }).headHere).foldl
        (fun (s : State) h => s.emit (.port (Fin.ofNat 4 h) "train" 0)) (s.mapPort fun x => { x with perstLow := x.perstLow &&& ~~~(1#2 <<< p.val) })))
  ∧ (∀ (p : Fin 2) a b, s.hasHead (2 * p.val) = true → s.port.perstLow.getLsbD p.val = false →
    a = [2 * p.val, 2 * p.val + 1].foldl (fun (s : State) h =>
      if (s.headOf h).up then (raise { Ev.of (srcPort p.val 0) with detail := [h] } s).headDown h else s)
      (s.mapPort fun x => { x with perstLow := x.perstLow ||| (1#2 <<< p.val) }) →
    b = [2 * p.val, 2 * p.val + 1].foldl (fun (s : State) h => s.updHeadOf h fun x => { headReset with maxRate := x.maxRate, rateWait := x.rateWait }) a →
    exec (.portReset p) s =
      .next ([2 * p.val, 2 * p.val + 1].foldl (fun (s : State) h => s.resetFn (32 + h))
        (((List.range b.nLds).filter fun n => portOfLd n == p.val).foldl State.resetFn b)).wake)

/-- A group of the pool is zeroed and its frames become free; the image is read; its index is built; voids are overwritten block by block and
forgotten at their end; a record of a zero page is restored; an extent with nothing left is done. (R251, R252, R256, R255, R257, R258) -/
def Obligations.ResumeEvents : Prop := ∀ (s : State),
  (∀ t u fresh, s.resume.initGroups + 1 < s.poolGroups → s.resume.tableZeroed = true → s.inSave = false → s.power.bringup = 6 → s.capacityUp = true →
    (List.range s.channels).all (fun c => !decide ((s.chan c).state = 2 ∧ (s.chanUnit c).isNone)) = true →
    fresh = ((s.dataMembers s.resume.initGroups).filter fun f => decide ((s.frameRec f).kind = .free) && decide (s.place f = .at f)).length →
    t = (s.charge mRestore (chargeRead (64 * s.w))).mapResume (fun r =>
      { r with initGroups := s.resume.initGroups + 1, initDone := decide (s.resume.initGroups + 1 = s.poolGroups) }) →
    u = t.mapTier (fun x => { x with freeFrames := x.freeFrames + fresh }) →
    exec .poolInitGroup s = .next u.enterS1.afterFree.wake)
  ∧ (∀ f, s.resume.imageStep = 0 → s.shank.imageExists = false → s.inSave = false → s.inResume = true → exec (.imageRead f) s = .next (s.readImage f))
  ∧ (s.resume.imageStep = 1 → s.inSave = false → s.image.log = [] →
    exec .restoreIndexBuilt s =
      .next (((s.mapShank fun k => { k with headLsn := roundUp s.resume.lsnEnd segUnits, segRecords := 0, lapStart := roundUp s.resume.lsnEnd segUnits
                                            prevLapStart := k.tailLsn }).mapResume fun r =>
        { r with imageStep := 2, extents := extentsOf s.image.regions }).startExtent.checkLog).raiseLevel.wake)
  ∧ (∀ v rest blocks, s.shank.voids = v :: rest → s.inSave = false → s.resume.imageStep = 2 → (s.shank.voidBlocks + blocks) * 64 < v.2 - v.1 →
    exec (.voidOverwriteStep blocks) s =
      .next ((s.writeImage (.clear (16384 + v.1 % s.logUnits / 64 + s.shank.voidBlocks) blocks)).mapShank fun k =>
        { k with voidBlocks := s.shank.voidBlocks + blocks }))
  ∧ (∀ v rest blocks, s.shank.voids = v :: rest → s.inSave = false → s.resume.imageStep = 2 → v.2 - v.1 ≤ (s.shank.voidBlocks + blocks) * 64 →
    exec (.voidOverwriteStep blocks) s =
      .next (((s.writeImage (.clear (16384 + v.1 % s.logUnits / 64 + s.shank.voidBlocks) blocks)).mapImage fun i =>
        { i with log := i.log.filter fun r => !inVoid [v] r.lsn }).mapShank fun k => { k with voids := rest, voidBlocks := 0 }))
  ∧ (∀ hint x d r, s.inSave = false → s.resume.imageStep = 2 → (s.resume.extents.find? fun x => decide (x.state = .running)) = some x →
    (s.resume.index.find? fun p => x.has p.1) = some (d, r) → r.form = .zero → r.bad = false →
    exec (.restoreRecordRead true hint) s = .next ((s.putEntry r.dpn { s.restoredEntry r with state := .zero, heat := 0 }).restored r).wake)
  ∧ (∀ x, s.inSave = false → s.resume.level ≠ 0 → (s.resume.extents.find? fun x => decide (x.state = .running)) = some x → s.extentLeft x = false →
    exec .restoreExtentDone s = .next (s.extentDone x).startExtent.raiseLevel.wake)

/-- A link that trains at its full width is set up and its port bound; one that goes down takes its head down; a link below its rate is asked for the
full rate again, at most three times after a resume. (R293, R299, R269) -/
def Obligations.LinkEvents : Prop := ∀ (s : State) (head : Fin 4),
  (∀ (l : LinkState) k t, s.mayTrain head.val = true → l.width ≠ 0 → (s.headOf head.val).up = false → k = s.reached head.val l → k.mld = false →
    k.width.val = (s.setLink head.val k).fullWidth head.val →
    t = (((s.setLink head.val k).checkHeadMargin head.val k).rateWaitEnds head.val).mapResume (fun r =>
      { r with upspeed := Tab.set (fun _ => 0) head.val 0 r.upspeed }) →
    exec (.linkTrained head l) s = .next ((t.attachSld head.val).bindPort (portOfHead head.val)))
  ∧ ((s.headOf head.val).up = true →
    (raise { Ev.of (srcPort (portOfHead head.val) 0) with detail := [head.val] } s).headOf head.val = { s.headOf head.val with rateWait := none } →
    exec (.linkDown head) s =
      .next ((raise { Ev.of (srcPort (portOfHead head.val) 0) with detail := [head.val] } s).headDown head.val).wake)
  ∧ (∀ l, (s.headOf head.val).link = some l → s.resume.level ≠ 0 → s.inSave = false → Tab.get (fun _ => 0) s.resume.upspeed head.val < 3 → l.rate ≠ 3 →
    l.flit256 = true → s.headCap head.val ≥ 3 → (s.headOf head.val).rateWait = none →
    exec (.upspeedRetry head true) s =
      .next (((s.mapResume fun r => { r with upspeed := Tab.set (fun _ => 0) head.val (Tab.get (fun _ => 0) s.resume.upspeed head.val + 1) r.upspeed }).emit
        (.port head "recovery" 64)).setLink head.val { l with rate := 3 }))

/-- Every form of these eight commands completes. A width of Table — L0p is granted to the partner of a fast link; a reset of a function clears what it
holds, and a bound LD gets its offers again; a configuration read is answered, before step 6 of bring-up with Request Retry Status; an access of a wrong
size or alignment completes, a read with zero, and is counted where it meets a register region; a register write of 8 bytes, or of the half of a
register that takes 4, reaches its register, and one of a wrong size or alignment is such a bad access; an endpoint takes its identifier, and a reset of
its negotiation gives back version 1 and its locks; discovery and CDAT are answered entry by entry. (R297, R426, R429, R305, R7, R360, R301, R303) -/
def Obligations.FunctionEvents : Prop :=
  (∀ (s : State),
  (∀ (head : Fin 4) (width : Fin 17) l, (s.headOf head.val).link = some l → l.flit256 = true → l.rate.val ≥ 2 →
    (width.val = l.width.val ∨ (width.val < l.width.val ∧ [2, 4, 8].contains width.val = true)) →
    exec (.l0pRequest head width) s = .next ((s.updHeadOf head.val fun x => { x with l0p := width.val }).emit (.port head "L0p granted" width.val)))
  ∧ (∀ fn : Fin 36, s.hasFn fn.val = true →
    exec (.ldReset fn) s =
      .next (if fn.val < 32 ∧ ((s.resetFn fn.val).fn fn.val).bound then (s.resetFn fn.val).sendOffers fn.val else s.resetFn fn.val))
  ∧ (∀ (head : Fin 4) (fn : Fin 36) offset, (s.headOf head.val).up = true → s.hasFn fn.val = true →
    (6 ≤ s.power.bringup →
      exec (.configRequest head fn offset) s =
        .next ((s.configDword fn.val offset.toNat).2.emit (.port head "configuration read" (s.configDword fn.val offset.toNat).1)))
    ∧ (s.power.bringup < 6 → exec (.configRequest head fn offset) s = .next (s.emit (.port head "request retry status" 0))))
  ∧ (∀ (fn : Fin 36) offset read t, s.hasFn fn.val = true →
    t = (if registerRegion offset.toNat = true then
        raise { Ev.of (srcPort (portOfHead (s.fnHead fn.val)) 2) with
          ld := (if h : fn.val < 32 then some ⟨fn.val, h⟩ else none), detail := [s.fnHead fn.val] } s
      else s) →
    exec (.mmioBadAccess fn offset read) s = .next (if read then t.emit (.mmio fn.val offset.toNat 0) else t))
  ∧ (∀ (fn : Fin 36) (offset : BitVec 25) (value : W64), s.hasFn fn.val = true → (fn.val < 32 → (s.fn fn.val).bound = true) →
    (offset.toNat % 8 = 0 →
      ∃ t, exec (.registerWrite fn offset value false) s = .next t ∧ s.writeReg fn.val (offset.toNat / 8 * 8) value = .next t)
    ∧ (offset.toNat % 4 = 0 → only64 offset.toNat = false → ∀ v,
      v = (if offset.toNat % 8 = 0
        then (s.regOld fn.val (offset.toNat / 8 * 8) &&& 0xFFFFFFFF00000000) ||| (value &&& 0xFFFFFFFF)
        else (s.regOld fn.val (offset.toNat / 8 * 8) &&& 0xFFFFFFFF) ||| (value <<< 32)) →
      ∃ t, exec (.registerWrite fn offset value true) s = .next t ∧ s.writeReg fn.val (offset.toNat / 8 * 8) v = .next t)
    ∧ (∀ four, ((four = false ∧ offset.toNat % 8 ≠ 0) ∨ (four = true ∧ (offset.toNat % 4 ≠ 0 ∨ only64 offset.toNat = true))) →
      ∃ t, exec (.registerWrite fn offset value four) s = .next t ∧ exec (.mmioBadAccess fn offset false) s = .next t)))
  ∧ (∀ (s : State),
  (∀ (e : Option Byte) (reset : Bool) u v, u = (match e with | some e => s.mapCmd fun c => { c with eid := e } | none => s) →
    v = (if reset then
      (List.range 8).foldl (fun (s : State) k => if (s.lock k).holder.map (·.val) = some 32 then s.freeLock k else s)
        (u.mapCmd fun c => { c with bmcVersion := 1 })
      else u) →
    exec (.mctpControlMessage e reset) s = .next (v.emit (.mctp [(match e with | some e => e | none => s.cmd.eid).toNat])))
  ∧ (∀ (ld : Fin 32) (i : Byte), s.hasLd ld.val = true → s.world.normal = .up →
    (∀ v t, doeProtocols[i.toNat]? = some (v, t) →
      exec (.doeDiscovery ld i) s = .next (s.emit (.doe ld [v, t, if i.toNat + 1 < doeProtocols.length then i.toNat + 1 else 0])))
    ∧ (doeProtocols.length ≤ i.toNat → exec (.doeDiscovery ld i) s = .next (s.emit (.doe ld [0xFFFF, 0, 0]))))
  ∧ (∀ (ld : Fin 32) (e : W16), s.hasLd ld.val = true → s.world.normal = .up →
    exec (.cdatTableAccess ld e) s =
      .next (s.emit (.doe ld ((if e.toNat + 1 < (s.cdat ld).length then e.toNat + 1 else 0xFFFF) :: (s.fn ld.val).cdatSeq
        :: (s.cdat ld).getD e.toNat [])))))

/-- A doorbell for a queue of the same LD and PASID moves its tail by the entries it opens; fetched descriptors are checked and join those in
execution in order; a fence at the head ends; a finished descriptor writes its completion and frees its slot; a coalescing timer delivers what is
pending; a drained queue is freed and its destroyer answered. (R319, R323, R331, R322, R333, R316) -/
def Obligations.QueueEvents : Prop := ∀ (s : State) (q : BitVec 20),
  (∀ (ld : Fin 32) (page : Fin 64) (value : W64) pasid stamp c t, s.path.fenced = false → s.hasLd ld.val = true → (s.fn ld.val).bound = true →
    stampOf (s.bindOf ld.val page.val) pasid = some stamp → t = s.useCtx (BitVec.ofNat 20 (fld value 44 20)) ld.val false →
    t.ctx (BitVec.ofNat 20 (fld value 44 20)).toNat = some c → c.state = .active → c.ld = ld → c.pasid = stamp → fld value 0 16 < 2 ^ c.log2 →
    (fld value 0 16 + 2 ^ c.log2 - c.sqTail) % 2 ^ c.log2 ≠ 0 → c.opened + (fld value 0 16 + 2 ^ c.log2 - c.sqTail) % 2 ^ c.log2 < 2 ^ c.log2 →
    exec (.doorbell ld page value pasid) s =
      .next (((t.useCtx (BitVec.ofNat 20 (fld value 44 20)) ld.val true).setCtx (BitVec.ofNat 20 (fld value 44 20)).toNat
        (some { c with sqTail := fld value 0 16, opened := c.opened + (fld value 0 16 + 2 ^ c.log2 - c.sqTail) % 2 ^ c.log2 })).pmPoq 0 ld.val))
  ∧ (∀ (ds : List Descriptor) c t, s.ctx q.toNat = some c → s.path.fenced = false → c.state = .active →
    ds.length ≠ 0 → ds.length ≤ (c.sqTail + 2 ^ c.log2 - c.sqFetch) % 2 ^ c.log2 → t = s.useCtx q c.ld.val true →
    exec (.descriptorFetch q (some ds)) s =
      .next (t.setCtx q.toNat (some { c with
        sqFetch := (c.sqFetch + ds.length) % 2 ^ c.log2
        execs := c.execs ++ ds.zipIdx.map (fun p =>
            ({ id := c.nextId + BitVec.ofNat 16 p.2, d := p.1, started := false, held := false, pos := 0, bufPos := 0, acting := false
               dataLost := false, waits := false, passed := [], out := []
               finished := (t.checkDescriptor c.ld.val p.1).map fun st => (st, 0) } : Exec))
        nextId := c.nextId + BitVec.ofNat 16 ds.length })).slots)
  ∧ (∀ c x xs, s.ctx q.toNat = some c → c.execs = x :: xs → s.path.fenced = false → x.isFence = true → x.finished = none →
    exec (.fence q x.id) s = .next (s.finishExec q x.id stOk 0))
  ∧ (∀ c id x st bytes, s.ctx q.toNat = some c → (c.execs.find? fun x => decide (x.id = id)) = some x → x.finished = some (st, bytes) →
    s.path.fenced = false → c.failed = false →
    exec (.poqCompletion q id true) s =
      .next ((s.useCtx q c.ld.val true).writeCompletion q { c with execs := c.execs.filter fun y => decide (y.id ≠ id) } x st bytes).slots)
  ∧ (∀ c, s.ctx q.toNat = some c → c.pendingInts > 0 → s.path.fenced = false → exec (.coalesceTimer q) s = .next (s.queueInterrupt q c))
  ∧ (∀ c m, s.ctx q.toNat = some c → c.state = .draining → c.execs = [] → s.path.fenced = false → c.destroyer = some m →
    exec (.queueDrained q) s = .next ((s.freeCtx q c.ld.val).reply m 0xC041 stOk []))

/-- ZERO_RANGE and COPY_RANGE run over the pieces of their range (in one command: log 71). On a range of one page that passes its checks, PIN_HOT and
UNPIN of a hot page set and clear PINNED and end with OK and 4,096 bytes, and PROMOTE of a warm page and DEMOTE of a hot one start the migration and
wait for it. (R325, R326, R65, R58, R327) -/
def Obligations.QueueOperations : Prop := ∀ (s : State) (q : BitVec 20) (id : W16) (hint : Frame) (ld : Nat) (x : Exec),
  (s.running q id 1 = some (ld, x) → exec (.zeroRange q id) s =
    .next (State.runPieces q ld x (fun pos _ _ s => s.onPage ld (x.d.dpa.toNat + pos) (x.checkedAt pos) true true fun t s => s.zeroPage ld t 4096 0) (x.d.len / 2048 + 4)
      x.pos x.bufPos x.acting x.dataLost s).wake)
  ∧ (s.running q id 2 = some (ld, x) → exec (.copyRange q id hint) s =
    .next (State.runPieces q ld x (fun pos _ _ s => s.copyPiece ld x.d pos (x.checkedAt pos) hint) (x.d.len / 2048 + 4) x.pos x.bufPos x.acting x.dataLost s).wake)
  ∧ (s.running q id 3 = some (ld, x) → x.d.len = 4096 → x.pos = 0 → x.dataLost = false → ∀ t, s.poqTarget ld x.d.dpa.toNat = some t →
    (x.passed = [] → s.poqCheck ld t.dpn true = (none, s)) → (s.entry t.dpn).state = .hot → (s.entry t.dpn).pinned = false → s.tier.pinnedPages + 1 ≤ s.tier.pinMax →
    exec (.pinHot q id hint) s = .next (((s.setPinned t.dpn true).countPoq ld 5).finishExec q x.id stOk 4096).wake)
  ∧ (s.running q id 4 = some (ld, x) → x.d.len = 4096 → x.pos = 0 → x.dataLost = false → ∀ t, s.poqTarget ld x.d.dpa.toNat = some t →
    (x.passed = [] → s.poqCheck ld t.dpn true = (none, s)) → (s.entry t.dpn).state = .hot →
    exec (.unpin q id) s = .next (((s.setPinned t.dpn false).countPoq ld 5).finishExec q x.id stOk 4096).wake)
  ∧ (s.running q id 5 = some (ld, x) → x.d.len = 4096 → x.pos = 0 → x.acting = false → ∀ t u, s.poqTarget ld x.d.dpa.toNat = some t →
    (x.passed = [] → s.poqCheck ld t.dpn true = (none, s)) → (s.entry t.dpn).state = .warm → s.tier.freeFrames > s.reserveFrames →
    s.startMigration .poqPromotion t.dpn hint = some u →
    exec (.promote q id hint) s =
      .next (u.updExec q x.id fun y =>
        { y with held := false, pos := 0, bufPos := x.bufPos, dataLost := x.dataLost, acting := true, passed := u.pieceKeys ld x.d 0 }).wake)
  ∧ (s.running q id 6 = some (ld, x) → x.d.len = 4096 → x.pos = 0 → x.acting = false → ∀ t u, s.poqTarget ld x.d.dpa.toNat = some t →
    (x.passed = [] → s.poqCheck ld t.dpn true = (none, s)) → (s.entry t.dpn).state = .hot → (s.entry t.dpn).pinned = false → s.allFenced 0 = false →
    s.startMigration .demotion t.dpn hint = some u →
    exec (.demote q id hint) s =
      .next (u.updExec q x.id fun y =>
        { y with held := false, pos := 0, bufPos := x.bufPos, dataLost := x.dataLost, acting := true, passed := u.pieceKeys ld x.d 0 }).wake)

/-- COMPRESS_OUT at LEVEL 0 and HEAT_REPORT send what they have gathered to the host buffer and end; at another LEVEL, COMPRESS_OUT holds a deep engine
and codes chunk by chunk; DECOMPRESS_IN of a zero page into a page that is ZERO ends with OK and 4,096 bytes; HARDEN_RANGE of one durable page, with
the engine of its LEVEL, records the page, gives the engine back and waits for the close of the epoch. (R328, R88, R330, R329, R247) -/
def Obligations.QueueTransfers : Prop := ∀ (s : State) (q : BitVec 20) (id : W16) (ld : Nat) (x : Exec),
  (∀ st n b bs t, s.running q id 8 = some (ld, x) → s.rangeBusy ld x.d = false → (x.d.level = 0 ∨ s.allFenced 2 = true) →
    (x.d.level = 0 → s.coderReady false (.compressOut q id) = true) →
    State.compressAll ld x.d (x.d.pages + 1) 0 [] s = ((st, n, b :: bs), t) →
    exec (.compressOut q id true) s = .next ((t.emit (.dma ld (t.pasidOf q) x.d.hostAddr.toNat (b :: bs))).finishExec q id st n).wake)
  ∧ (∀ t ok, s.running q id 8 = some (ld, x) → x.d.level ≠ 0 → s.allFenced 2 = false → t = s.takeDeep (.compressOut q id) ld →
    t.coderReady true (.compressOut q id) = true → (x.pos % 4096 = 0 → t.rangeBusy ld x.d = false) →
    exec (.compressOut q id ok) s = .next (t.compressChunk q id ld x ok).wake)
  ∧ (∀ st n b bs t, s.running q id 10 = some (ld, x) → State.heatAll ld x.d (x.d.pages + 1) 0 [] s = ((st, n, b :: bs), t) →
    exec (.heatReport q id true) s = .next ((t.emit (.dma ld (t.pasidOf q) x.d.hostAddr.toNat (b :: bs))).finishExec q id st n))
  ∧ (∀ bs hint, s.running q id 9 = some (ld, x) → x.d.len = 4096 → x.pos = 0 → x.bufPos = 0 → x.dataLost = false → ∀ t lines used,
    s.poqTarget ld x.d.dpa.toNat = some t → (x.passed = [] → s.poqCheck ld t.dpn true = (none, s)) → (s.entry t.dpn).state = .zero →
    (s.idleEngine 1).isSome = true →
    readPage (bs.take x.d.bufLen.toNat) = .ok (lines, true, used) →
    exec (.decompressIn q id (some bs) hint) s = .next ((((s.heatSample t.dpn).pmCodec 0 4).countPoq ld 5).finishExec q x.id stOk 4096).wake)
  ∧ (s.running q id 7 = some (ld, x) → x.d.len = 4096 → x.pos = 0 → ∀ t u v, s.poqTarget ld x.d.dpa.toNat = some t →
    u = (if x.d.level ≠ 0 ∧ s.allFenced 2 = false then s.takeDeep (.harden q id) ld else s) →
    u.coderReady (decide (x.d.level ≠ 0) && !s.allFenced 2) (.harden q id) = true → u.poqTarget ld x.d.dpa.toNat = some t →
    (x.passed = [] → u.poqCheck ld t.dpn true = (none, u)) → (u.entry t.dpn).state = .hot → (u.entry t.dpn).durable = true → u.hardenWaits t.dpn = false →
    v = (((u.hardenPage t.dpn x.d.level).countPoq ld 5).finishExec q x.id stOk 4096).endJobs (fun j => decide (j.user = .harden q id)) →
    exec (.hardenRange q id) s = .next (match (v.ctx q.toNat).bind fun c => c.execs.find? fun y => decide (y.id = id) with
      | some y =>
        if y.finished = some (stOk, x.d.length) then
          ((v.updExec q id fun y => { y with finished := none, waits := true }).endEpoch.mapShank fun k =>
            { k with harden := k.harden ++ [(q, id, v.shank.epoch)] }).slotQueuePassed.wake
        else v.slotQueuePassed.wake
      | none => v))

/-- A notice is posted to its channel; a notice that is dequeued is being read; a command block that can be read runs; the channel and event-ring
registers are written; a lock is read in the order the readers arrive, released by a write with bit 0 set, and freed by the end of its lease. (R348,
R349, R350, R347, R363, R356, R357) -/
def Obligations.EyeletEvents : Prop := ∀ (s : State) (ld : Fin 32) (ch : Fin 16),
  (∀ value pasid, s.reach ld.val = true → exec (.eyeletNotice ld ch value pasid) s = .next (s.postEyelet ld ch value pasid))
  ∧ (∀ n, (s.eye (eyeKey ld ch)).notice = some n → s.hasLd ld.val = true →
    (s.eye (eyeKey ld ch)).running.length + (s.eye (eyeKey ld ch)).reading.length < 8 →
    exec (.eyeletDequeue ld ch) s =
      .next ((s.updEye (eyeKey ld ch) fun e => { e with notice := none, reading := e.reading ++ [n] }).raiseVector ld.val
        (s.eye (eyeKey ld ch)).taken.toNat))
  ∧ (∀ addr pasid rest b, (s.eye (eyeKey ld ch)).reading = (addr, pasid) :: rest → s.world.normal = .up → blockOk b = true →
    exec (.commandBlockRead ld ch (some b)) s =
      .next ((s.updEye (eyeKey ld ch) fun e => { e with reading := rest }).updEye (eyeKey ld ch) fun e =>
        { e with running := e.running ++ [(b, addr, pasid)] }))
  ∧ (∀ value, s.reach ld.val = true → exec (.eyeletConfigWrite ld ch value) s = .next (s.writeEyeConfig (eyeKey ld ch) value)
    ∧ exec (.eventRingEnable ld value) s = .next (s.writeEventRing ld.val value))
  ∧ (∀ (lock : Fin 8) (readers : List Party), ∃ t, exec (.lockRegisterRead lock readers) s = .next t ∧ t.settings = s.settings
    ∧ t.cmd = (s.readLock lock.val (readers.filter s.partyHere)).cmd)
  ∧ (∀ (lock : Fin 8) p value, value.getLsbD 0 = true → s.partyHere p = true →
    exec (.lockReleaseWrite lock p value) s = .next (s.releaseLock lock.val (partyPos p)))
  ∧ (∀ lock : Fin 8, exec (.lockLeaseExpiry lock) s = .next (s.freeLock lock.val))

/-- Each command that reports answers success with its body; GET_QOS_STATUS draws a free value for its body. Opcodes, units and bodies are the model's
(log 44). (R341, R213, R214, R285, R286, R291) -/
def Obligations.StandardReports : Prop :=
  (∀ (s : State) (m : Msg) (fn : Nat), fn = pathFn m.path →
  (s.taken m 0x4000 onMailboxOrBmc → ∀ ld, pathLd m.path = some ld →
    exec (.identifyMemoryDevice m) s = .next (s.respStd m 0x4000 rcSuccess
      [((s.partition ld.val).1 + (s.partition ld.val).2) * 4096, (s.partition ld.val).1 * 4096, (s.partition ld.val).2 * 4096, block * 4096, 256, 4096]))
  ∧ (s.taken m 0x4200 onMailboxOrBmc →
    exec (.getHealthInfo m) s = .next (s.respStd m 0x4200 rcSuccess [s.shank.dsc.toNat, s.shank.shutdownState.toNat]))
  ∧ (s.taken m 0x4201 onMailbox → exec (.getAlertConfiguration m) s = .next (s.respStd m 0x4201 rcSuccess [(s.cmdLd fn).alert.toNat]))
  ∧ (s.taken m 0x4203 onMailbox → exec (.getShutdownState m) s = .next (s.respStd m 0x4203 rcSuccess [s.shank.shutdownState.toNat]))
  ∧ (s.taken m 0x0300 onMailbox →
    exec (.getTimestamp m) s = .next (s.respStd m 0x0300 rcSuccess [(BitVec.ofNat 64 s.time + (s.cmdLd fn).timeOffset).toNat]))
  ∧ (s.taken m 0x0100 onMailboxOrBmc → ∀ log : Byte, log.toNat ≤ 3 →
    exec (.getEventRecords m log) s =
      .next (s.respStd m 0x0100 rcSuccess ((s.log log.toNat).length :: (s.log log.toNat).flatMap fun r => [r.1, r.2])))
  ∧ (s.taken m 0x0102 onMailbox → exec (.getEventInterruptPolicy m) s = .next (s.respStd m 0x0102 rcSuccess [(s.cmdLd fn).policy.toNat]))
  ∧ (s.taken m 0x0400 onMailbox →
    exec (.getSupportedLogs m) s = .next (s.respStd m 0x0400 rcSuccess [1, 4 * (stdOpcodes.length + slafinDefined.length)]))
  ∧ (s.taken m 0x0401 onMailboxOrBmc → ∀ offset length : W32, offset.toNat + length.toNat ≤ 4 * (stdOpcodes.length + slafinDefined.length) →
    exec (.getLog m true offset length) s =
      .next (s.respStd m 0x0401 rcSuccess (((celBytes.drop offset.toNat).take length.toNat).map (·.toNat))))
  ∧ (s.taken m 0x0200 onMailbox →
    exec (.getFwInfo m) s = .next (s.respStd m 0x0200 rcSuccess [2, slotNo s.world.activeB, slotNo s.world.nextB, 1]))
  ∧ (s.taken m 0x0002 onMailbox → ∀ op ended, (s.cmdLd fn).background = some (op, ended) →
    exec (.backgroundOperationStatus m) s = .next (s.respStd m 0x0002 rcSuccess [op.toNat, if ended then 100 else 0]))
  ∧ (s.taken m 0x4100 onMailbox → ∀ ld, pathLd m.path = some ld →
    exec (.getPartitionInfo m) s = .next (s.respStd m 0x4100 rcSuccess [(s.partition ld.val).1 / block, (s.partition ld.val).2 / block])))
  ∧ (∀ (s : State) (m : Msg),
  (s.taken m 0x5400 onFmApi → exec (.getLdInfo m) s = .next (s.respStd m 0x5400 rcSuccess [s.last.hostPages * 4096, s.nLds]))
  ∧ (s.taken m 0x5401 onFmApi → ∀ start limit : Byte, start.toNat < s.nLds →
    exec (.getLdAllocations m start limit) s = .next (s.respStd m 0x5401 rcSuccess
      ([s.nLds, block * 4096, start.toNat, (((List.range s.nLds).drop start.toNat).take limit.toNat).length]
        ++ (((List.range s.nLds).drop start.toNat).take limit.toNat).map fun n => (s.fn n).allocation)))
  ∧ (s.taken m 0x5403 onFmApi → ∀ ld : Byte, s.hasLd ld.toNat = true →
    exec (.getQosControl m ld) s = .next (s.respStd m 0x5403 rcSuccess [(Tab.get (fun _ => (3 : Byte)) s.reg.telemetry ld.toNat).toNat]))
  ∧ (s.taken m 0x5405 onFmApi → ∀ ld : Byte, s.hasLd ld.toNat = true →
    exec (.getQosStatus m ld) s = .next (s.draw.2.respStd m 0x5405 rcSuccess [(Config.freeByte s.free).toNat]))
  ∧ (s.taken m 0x5406 onFmApi → ∀ start number : Byte, start.toNat < s.nLds → ∀ l,
    l = s.fractions start.toNat number.toNat (fun x => qosFracRead x.minRead s.reg.usable) →
    exec (.getQosAllocatedBw m start number) s = .next (s.respStd m 0x5406 rcSuccess ([l.length, start.toNat] ++ l)))
  ∧ (s.taken m 0x5408 onFmApi → ∀ start number : Byte, start.toNat < s.nLds → ∀ l,
    l = s.fractions start.toNat number.toNat (fun x => qosFracBudget x.budget s.reg.usable) →
    exec (.getQosBwLimit m start number) s = .next (s.respStd m 0x5408 rcSuccess ([l.length, start.toNat] ++ l)))
  ∧ (s.taken m 0x5500 onFmApi →
    exec (.getMultiHeadedInfo m) s = .next (s.respStd m 0x5500 rcSuccess
      ([s.nLds, s.nHeads] ++ (List.range s.nLds).map fun n => match (s.fn n).head with | some h => h.val | none => 0xFF)))
  ∧ (s.taken m 0x5501 onFmApi → ∀ start number : Byte, start.toNat < s.nHeads → ∀ l, l = ((List.range s.nHeads).drop start.toNat).take number.toNat →
    exec (.getHeadInfo m start number) s = .next (s.respStd m 0x5501 rcSuccess (l.length :: l.flatMap s.headInfo)))
  ∧ (s.taken m 0x5600 onFmApi → exec (.getDcdInfo m) s = .next (s.respStd m 0x5600 rcSuccess [s.nLds, 8, s.last.hostPages * 4096, block * 4096]))
  ∧ (s.taken m 0x5601 onFmApi → ∀ ld start number : Byte, s.hasLd ld.toNat = true → start.toNat ≤ 7 →
    exec (.getHostDcRegionConfiguration m ld start number) s =
      .next (s.respStd m 0x5601 rcSuccess ([8, s.extentRoom ld.toNat] ++ s.regionInfo start.toNat number.toNat)))
  ∧ (s.taken m 0x5603 onFmApi → ∀ (ld : Byte) (start count : W32), s.hasLd ld.toNat = true → start.toNat ≤ (s.extents ld.toNat).length →
    exec (.getDcRegionExtentLists m ld start count) s =
      .next (s.respStd m 0x5603 rcSuccess (s.extentList ld.toNat start.toNat count.toNat))))

/-- Each standard command that sets something answers success and changes its own register or log; an opcode that no table defines is answered
UNSUPPORTED; a package whose signatures verify enters the inactive slot, and another is refused; a slot is chosen for the next reset; an online
activation of another secure image restarts the secure world; the volatile part of an LD without durable capacity is set. Opcodes and bodies are the
model's (log 44). (R341, R213, R383, R381, R214) -/
def Obligations.StandardSettings : Prop :=
  (∀ (s : State) (m : Msg) (fn : Nat), fn = pathFn m.path →
  (s.taken m 0x4202 onMailbox → ∀ cfg,
    exec (.setAlertConfiguration m cfg) s = .next ((s.updCmdLd fn fun c => { c with alert := cfg }).respStd m 0x4202 rcSuccess []))
  ∧ (s.taken m 0x4204 onMailbox → s.image.supB = none → ∀ st,
    exec (.setShutdownState m st) s =
      .next (((s.mapShank fun k => { k with shutdownState := st }).refreshSupers false).respStd m 0x4204 rcSuccess []))
  ∧ (s.taken m 0x0301 onMailbox → ∀ t,
    exec (.setTimestamp m t) s =
      .next ((s.updCmdLd fn fun c => { c with timeOffset := t - BitVec.ofNat 64 s.time }).respStd m 0x0301 rcSuccess []))
  ∧ (s.taken m 0x0101 onMailbox → ∀ log : Byte, log.toNat ≤ 3 → ∀ hs,
    exec (.clearEventRecords m log true hs) s = .next ((s.setLog log.toNat []).respStd m 0x0101 rcSuccess []))
  ∧ (s.taken m 0x0103 onMailbox → ∀ p,
    exec (.setEventInterruptPolicy m p) s = .next ((s.updCmdLd fn fun c => { c with policy := p }).respStd m 0x0103 rcSuccess []))
  ∧ (∀ (opcode : W16), s.arrives m opcode.toNat = true → slafinRange opcode.toNat = false → stdOpcodes.contains opcode.toNat = false →
    exec (.unsupportedCommand m opcode) s = .next (s.respStd m opcode.toNat rcUnsupported [])))
  ∧ (∀ (s : State) (m : Msg),
  (∀ p, s.fwTaken m 0x0201 = true → s.world.noFirmware = false → onMailbox m.path = true → s.judgeAway = none → s.world.activeB = false →
    s.world.staged = none →
    exec (.transferFw m 2 p) s =
      .next (if s.fwOk p then (s.mapWorld fun w => { w with fwB := some p }).respStd m 0x0201 rcSuccess [] else s.respStd m 0x0201 rcVerifyFailed []))
  ∧ (∀ p, s.fwTaken m 0x0202 = true → s.world.noFirmware = false → onMailbox m.path = true → s.slotFw true = some p →
    exec (.activateFw m false 2) s = .next ((s.mapWorld fun w => { w with nextB := true }).respStd m 0x0202 rcSuccess []))
  ∧ (∀ p, s.fwTaken m 0x0202 = true → s.world.noFirmware = false → onMailbox m.path = true → s.slotFw true = some p → s.judgeAway = none →
    s.activationBusy = false → p.manifest = s.world.manifest →
    p.secureDigest ≠ (s.mapWorld fun w => { w with staged := some true, activatedBy := some m }).secureDigest
      (s.mapWorld fun w => { w with staged := some true, activatedBy := some m }).world.secureB →
    exec (.activateFw m true 2) s =
      .next (if s.fwOk p then (s.mapWorld fun w => { w with staged := some true, activatedBy := some m }).secureRestart 4
        else s.respStd m 0x0202 rcVerifyFailed []))
  ∧ (∀ (ld : Fin 32) volatile es news dc, s.taken m 0x4101 onMailbox → pathLd m.path = some ld →
    es = (s.ldMap ld.val).filter (fun e => e.valid && !e.dc) → dc = (s.map ld.val).filter (fun e => e.valid && e.dc) →
    news = splitStatic (volatile.toNat * block) (sortBy (fun a b => decide (a.ldBase.toNat < b.ldBase.toNat)) es) →
    volatile.toNat * block ≤ pagesOf es → news.filter (·.durable) = [] → es.filter (·.durable) = [] → news.length + dc.length ≤ 256 →
    exec (.setPartitionInfo m volatile) s =
      .next (((s.setMap ld.val (news ++ dc)).mapShank fun k => { k with regionDirty := true }).respStd m 0x4101 rcSuccess [])))

/-- The configuration and the extent list are reported; an offered extent is accepted; extents that are released are removed; the poison list names
addresses inside the range asked for; a poison or a clear becomes the LD's write of its line; SANITIZE and SECURE_ERASE start in the background.
Opcodes, units and bodies are the model's (log 44, 83). (R341, R263, R27, R342) -/
def Obligations.MediaCommands : Prop := ∀ (s : State) (m : Msg) (ld : Fin 32), pathLd m.path = some ld →
  (s.taken m 0x4800 onMailbox → s.exposesDc ld.val = true →
    exec (.getDynamicCapacityConfiguration m) s = .next (s.respStd m 0x4800 rcSuccess
      ([8, 256 - ((s.map ld.val).filter fun e => !e.dc).length, s.extentRoom ld.val] ++ s.regionInfo 0 8)))
  ∧ (s.taken m 0x4801 onMailbox → s.exposesDc ld.val = true → ∀ start count : W32, start.toNat ≤ (s.extents ld.val).length →
    exec (.getDynamicCapacityExtentList m start count) s = .next (s.respStd m 0x4801 rcSuccess (s.extentList ld.val start.toNat count.toNat)))
  ∧ (s.taken m 0x4802 onMailbox → s.exposesDc ld.val = true → ∀ tag o, (s.cmd.offers.find? fun o => decide (o.1 = ld) && decide (o.2.tag = tag)) = some o →
    s.extentRoom ld.val ≠ 0 → s.joins ld.val (offeredEntry o.2) = true →
    exec (.addDynamicCapacityResponse m tag true) s =
      .next (((s.mapCmd fun c => { c with offers := c.offers.erase o }).addEntry ld.val (offeredEntry o.2)).respStd m 0x4802 rcSuccess []))
  ∧ (s.taken m 0x4803 onMailbox → s.exposesDc ld.val = true → ∀ (dpa length : W64) more es, es = ((s.extents ld.val).filter fun e =>
      decide (dpa.toNat ≤ e.ldBase.toNat * 4096) && decide ((e.ldBase.toNat + e.pages.toNat) * 4096 ≤ dpa.toNat + length.toNat)) →
    es ≠ [] → pagesOf es * 4096 = length.toNat →
    exec (.releaseDynamicCapacity m dpa length more) s =
      .next ((if more then s else s.declineRest ld es).removeEntries m 0x4803 (es.map fun e => (ld, e))))
  ∧ (s.taken m 0x4300 onMailbox → ∀ (dpa length : W64), ∃ l, exec (.getPoisonList m dpa length) s = .next (s.respStd m 0x4300 rcSuccess l)
    ∧ l.length ≤ 4096 ∧ ∀ a ∈ l, dpa.toNat ≤ a ∧ a < dpa.toNat + 64 * length.toNat)
  ∧ (s.taken m 0x4301 onMailbox → ∀ dpa : W64, dpa.toNat % 64 = 0 →
    exec (.injectPoison m dpa) s =
      .next (s.mapCmd fun c => { c with lineJobs := c.lineJobs ++ [{ m, op := 0x4301, ld, dpa := dpa.toNat, data := none }] }).settleLines)
  ∧ (s.taken m 0x4302 onMailbox → ∀ (dpa : W64) data, dpa.toNat % 64 = 0 →
    exec (.clearPoison m dpa data) s =
      .next (s.mapCmd fun c => { c with lineJobs := c.lineJobs ++ [{ m, op := 0x4302, ld, dpa := dpa.toNat, data := some data }] }).settleLines)
  ∧ (s.taken m 0x4400 onMailbox → s.backgroundRuns (pathFn m.path) = false →
    exec (.sanitize m) s =
      .next (((s.sanitizeLd ld.val).updCmdLd (pathFn m.path) fun c => { c with background := some (0x4400, false) }).wake.respStd m 0x4400 rcBackground []))
  ∧ (s.taken m 0x4401 onMailbox → s.backgroundRuns (pathFn m.path) = false →
    exec (.secureErase m) s =
      .next (((s.sanitizeLd ld.val).updCmdLd (pathFn m.path) fun c => { c with background := some (0x4401, false) }).wake.respStd m 0x4401 rcBackground []))

/-- Allocations are set and what they take away is removed, where the pool holds every page that is not dynamic capacity, and else NO_RESOURCE is answered; telemetry control is set; bandwidth settings are admitted as one and become
pending; the block of a region that holds nothing is set; an extent that can be added is offered to the host; a release starts the removal of the
extents of its tag. Opcodes and bodies are the model's (log 44). (R311, R285, R286, R341, R69) -/
def Obligations.FmApiChanges : Prop := ∀ (s : State) (m : Msg),
  (s.taken m 0x5402 onFmApi → ∀ (start : Byte) (allocs : List (Nat × Option (List Extent))) l news, l = allocs.zipIdx.map (fun p => (start.toNat + p.2, p.1)) →
    news = l.map (fun p => (p.1, s.allocMap p.1 p.2.2)) → l.all (fun p => s.hasLd p.1) = true → s.allocOk news = true →
    exec (.setLdAllocations m start allocs) s = .next (if s.poolHolds news
      then ((s.setMaps news).allocate (l.map fun p => (p.1, p.2.1))).removeEntries m 0x5402 (s.allocGone news) (s.allocWait news)
      else s.respStd m 0x5402 rcNoResource []))
  ∧ (s.taken m 0x5404 onFmApi → ∀ ld ctl : Byte, s.hasLd ld.toNat = true →
    exec (.setQosControl m ld ctl) s =
      .next ((s.mapReg fun r => { r with telemetry := Tab.set (fun _ => (3 : Byte)) ld.toNat ctl r.telemetry }).respStd m 0x5404 rcSuccess []))
  ∧ (s.taken m 0x5407 onFmApi → ∀ (start : Byte) (fractions : List W16) news,
    news = fractions.zipIdx.map (fun p => (start.toNat + p.2,
      { s.configured (start.toNat + p.2) with minRead := qosMinRead p.1.toNat s.reg.usable, minWrite := 0 })) →
    news.all (fun p => s.hasLd p.1 && settingOk p.1 p.2) = true → fractions.all (fun x => decide (x.toNat ≤ 256)) = true → s.admits news = true →
    exec (.setQosAllocatedBw m start fractions) s = .next ((s.setPending news).respStd m 0x5407 rcSuccess []))
  ∧ (s.taken m 0x5409 onFmApi → ∀ (start : Byte) (fractions : List W16) news,
    news = fractions.zipIdx.map (fun p => (start.toNat + p.2, { s.configured (start.toNat + p.2) with budget := qosBudget p.1.toNat s.reg.usable })) →
    news.all (fun p => s.hasLd p.1 && settingOk p.1 p.2) = true → fractions.all (fun x => decide (x.toNat ≤ 256)) = true → s.admits news = true →
    exec (.setQosBwLimit m start fractions) s = .next ((s.setPending news).respStd m 0x5409 rcSuccess []))
  ∧ (s.taken m 0x5602 onFmApi → ∀ (region : Byte) (size : W64) z, region.toNat ≤ 7 → size.toNat = block * 4096 → s.regionHolds region.toNat = false →
    exec (.setDcRegionConfiguration m region size z) s =
      .next ((s.updRegion region.toNat fun x => { x with blockSize := size, sanitize := z }).respStd m 0x5602 rcSuccess []))
  ∧ (s.taken m 0x5604 onFmApi → ∀ (ld : Byte) (e : Extent), s.hasLd ld.toNat = true → s.tier.freeFrames > s.pressureFrames →
    (s.addedEntry e).durable = false →
    (s.map ld.toNat).length + (s.cmd.adds.filter fun a => decide (a.1.val = ld.toNat)).length < 256 → s.addOk ld.toNat (s.addedEntry e) = true →
    s.leaving (s.addedEntry e) = false →
    s.offersReach ld.toNat = true →
    exec (.initiateDynamicCapacityAdd m ld e) s =
      .next (((s.mapCmd fun c => { c with adds := c.adds ++ [(Fin.ofNat 32 ld.toNat, e)] }).emit
        (.offer (Fin.ofNat 32 ld.toNat) (e.ldDpn.toNat * 4096) (e.pages.toNat * 4096) e.tag e.region.val)).respStd m 0x5604 rcSuccess []))
  ∧ (s.taken m 0x5605 onFmApi → ∀ (ld : Byte) (tag : BitVec 128), s.hasLd ld.toNat = true → s.cmd.offers = [] → s.cmd.declined = [] → s.cmd.adds = [] →
    ((s.extents ld.toNat).filter fun e => decide (e.tag = tag)) ≠ [] →
    exec (.initiateDynamicCapacityRelease m ld tag) s =
      .next ((s.mapCmd fun c => { c with offers := [], declined := [], adds := [] }).removeEntries m 0x5605
        (((s.extents ld.toNat).filter fun e => decide (e.tag = tag)).map fun e => (Fin.ofNat 32 ld.toNat, e))))

/-- An undefined opcode of the range is answered INVALID_OPCODE; GET_SLAFIN_INFO gives version 1 and the part; SET_SLAFIN_VERSION takes version 1 and
refuses 2; SET_OWNER_KEY sets the key and with a zero hash leaves no owner; a run of registers reads as they stand; LOCK_COMMAND reads a lock as the
BMC does. (R343, R362, R359, R338, R355) -/
def Obligations.SlafinItself : Prop := ∀ (s : State) (m : Msg),
  (∀ opcode : W16, s.arrives m opcode.toNat = true → slafinRange opcode.toNat = true → slafinDefined.contains opcode.toNat = false →
    exec (.slafinUndefinedOpcode m opcode) s = .next (s.reply m opcode.toNat stInvalidOpcode []))
  ∧ (s.runs m { op := 0xC000, roles := rAll, sess := false, l0 := false, secure := false, inLen := 0, body := 10 } →
    exec (.getSlafinInfo m) s =
      .next (s.reply m 0xC000 stOk (leNat 2 1 ++ leNat 2 1 ++ leNat 1 (if s.ev8820 then 1 else 0) ++ zeros 3 ++ leNat 2 0x1FFF)))
  ∧ (s.runs m { op := 0xC001, roles := rAll, sess := false, l0 := false, secure := false, inLen := 2, body := 2 } → s.role m = .bmc →
    exec (.setSlafinVersion m 1) s = .next ((s.mapCmd fun c => { c with bmcVersion := 1 }).reply m 0xC001 stOk (leNat 2 1))
      ∧ exec (.setSlafinVersion m 2) s = .next (s.reply m 0xC001 stUnsupportedVersion []))
  ∧ (s.runs m { op := 0xC002, roles := s.mayOwn, sess := false, l0 := false, secure := true, inLen := 48, body := 0 } → ∀ hash : BitVec 384,
    exec (.setOwnerKey m hash) s =
      .next ((s.mapCmd fun c => { c with owner := if hash = 0 then none else some hash }).reply m 0xC002 stOk []))
  ∧ (∀ (cap ld : Byte) (offset : W16) (length : W32),
    s.runs m { op := 0xC003, roles := rBmcOwn, sess := false, l0 := false, secure := false, inLen := 8, body := length.toNat } →
    1 ≤ cap.toNat → cap.toNat ≤ 11 → s.hasLd ld.toNat = true → 8 ≤ length.toNat → offset.toNat + length.toNat ≤ 4096 → offset.toNat % 8 = 0 →
    length.toNat % 8 = 0 →
    exec (.readRegisters m cap ld offset length) s =
      .next (s.reply m 0xC003 stOk ((List.range (length.toNat / 8)).flatMap fun i => leBytes 8 (s.capReg ld.toNat cap.toNat (offset.toNat + 8 * i)))))
  ∧ (∀ lock : Byte, s.runs m { op := 0xC004, roles := rBmc, sess := false, l0 := false, secure := false, inLen := 2, body := 8 } → lock.toNat ≤ 7 → ∀ t,
    t = s.readLock lock.toNat [.bmc] →
    exec (.lockCommand m lock 0) s =
      .next (t.reply m 0xC004 stOk (leBytes 8 (lockValue (t.lock lock.toNat) t.time (decide ((t.lock lock.toNat).holder = some 32))))))

/-- Tier settings inside their limits are taken as one, and watermarks outside them leave every register as it was; whole map entries change their
attribute; the owner is set of every page of the range that has content; capacity is set while nothing is bound and nothing is mapped. (R61, R362,
R33, R461) -/
def Obligations.TierCommands : Prop := ∀ (s : State) (m : Msg),
  (s.runs m { op := 0xC010, roles := rBmcOwn, sess := false, l0 := false, secure := false, inLen := 32, body := 0 } → ∀ policy watermark rate : W64,
    (∀ p w r, tierPolicyOf policy = some p → tierWatermarkOf s.tier.poolFrames watermark = some w → tierRateOf rate = some r →
      exec (.setTierPolicy m 7 policy watermark rate) s =
        .next ((s.mapTier fun t => { t with policy := p, watermark := w, rate := r }).afterFree.wake.reply m 0xC010 stOk []))
    ∧ (tierWatermarkOf s.tier.poolFrames watermark = none → exec (.setTierPolicy m 2 policy watermark rate) s = .next (s.reply m 0xC010 stInvalidRange [])))
  ∧ (s.runs m { op := 0xC011, roles := rFm, sess := false, l0 := false, secure := false, inLen := 12, body := 0 } →
    ∀ (ld poison : Byte) (a pages : W32) (inside : MapEntry → Bool), s.hasLd ld.toNat = true → poison.toNat ≤ 1 →
    (∀ e, inside e = (e.valid && decide (a.toNat ≤ e.devBase.toNat) && decide (e.devBase.toNat + e.pages.toNat ≤ a.toNat + pages.toNat))) →
    pagesOf ((s.map ld.toNat).filter inside) = pages.toNat → (s.map ld.toNat).filter inside ≠ [] →
    exec (.setRangeAttr m ld poison a pages) s =
      .next (((s.setMap ld.toNat ((s.map ld.toNat).map fun e => if inside e then { e with poisonUnw := decide (poison = 1) } else e)).mapShank fun k =>
        { k with regionDirty := true }).reply m 0xC011 stOk []))
  ∧ (s.runs m { op := 0xC012, roles := rFmOwn, sess := false, l0 := false, secure := false, inLen := 10, body := 0 } →
    ∀ (a pages : W32) (owner : W16) mine, 1 ≤ owner.toNat → owner.toNat ≤ s.nLds →
    mine = (s.last.table.keys.filter fun d => decide (a.toNat ≤ d) && decide (d < a.toNat + pages.toNat)).map (BitVec.ofNat 32) →
    coversRange (s.ldMap (owner.toNat - 1)) (a.toNat + pages.toNat) ((s.ldMap (owner.toNat - 1)).length + 1) a.toNat = true →
    mine.all (fun d => !decide ((s.entry d).state = .restoring)) = true →
    exec (.setPageOwner m a pages owner) s =
      .next (((mine.filter fun d => decide ((s.entry d).state ≠ .unwritten)).foldl (fun s d => s.setOwner d (owner.setWidth 12)) s).wake.reply m 0xC012 stOk []))
  ∧ (s.runs m { op := 0xC013, roles := rFmBmcOwn, sess := false, l0 := false, secure := false, inLen := 4, body := 0 } → ∀ pages : W32, pages ≠ 0 →
    s.boundLds = [] → s.last.maps = [] → pages.toNat % block = 0 → pages.toNat ≤ maxHostPages s.ev8820 →
    (s.last.frames.filter fun q => decide (q.2.kind = .hot) || decide (q.2.kind = .bin)).length < s.poolFor pages.toNat * (s.w - 1) →
    exec (.setHostCapacity m pages) s = .next ((s.reconfigure pages.toNat).wake.reply m 0xC013 stOk []))

/-- A shadow policy inside its limits is taken; a region that holds nothing is made volatile; a priority request is queued; the loss list is read by
the BMC; a declined extent is offered again; a restore policy inside its limits is taken; an image that could not be read is read again. (R248, R214,
R259, R266, R263, R271, R270) -/
def Obligations.ShadowCommands : Prop := ∀ (s : State) (m : Msg),
  (s.runs m { op := 0xC020, roles := rBmcOwn, sess := false, l0 := false, secure := false, inLen := 8, body := 0 } → ∀ policy p,
    shadowPolicyOf policy = some p →
    exec (.setShadowPolicy m policy) s = .next ((s.mapShank fun k => { k with policy := p }).wake.reply m 0xC020 stOk []))
  ∧ (s.runs m { op := 0xC021, roles := rFmOwn, sess := false, l0 := false, secure := false, inLen := 2, body := 0 } → ∀ region : Byte, region.toNat ≤ 7 →
    s.regionHolds region.toNat = false →
    exec (.setRegionDurable m region 0) s = .next ((s.updRegion region.toNat fun x => { x with durable := false }).reply m 0xC021 stOk []))
  ∧ (s.runs m { op := 0xC030, roles := rLdBmcOwn, sess := false, l0 := false, secure := false, inLen := 32, body := 2 } → ∀ req,
    s.mayPrioritize (s.role m) req = true → s.resume.level ≠ 3 → (s.resume.extents.any fun x => prioNames req x && decide (x.state ≠ .restored)) = true →
    s.resume.priority.length < 64 →
    exec (.restorePriority m req) s =
      .next ((s.mapResume fun r => { r with priority := r.priority ++ [req] }).reply m 0xC030 stOk (leNat 2 (s.resume.priority ++ [req]).length)))
  ∧ (s.runs m { op := 0xC031, roles := rLdBmcOwn, sess := false, l0 := false, secure := false, inLen := 8, body := 16 } → s.role m = .bmc →
    ∀ (cursor max : W32) n, cursorOk cursor.toNat s.resume.losses.length = true → n = fits m 16 12 max.toNat (s.resume.losses.drop cursor.toNat).length →
    exec (.getLossList m cursor max) s =
      .next (s.reply m 0xC031 stOk (leNat 4 n ++ leNat 4 (nextCursor cursor.toNat n s.resume.losses.length) ++ leNat 4 s.resume.losses.length ++ zeros 4
        ++ ((s.resume.losses.drop cursor.toNat).take n).flatMap fun r => leNat 4 r.1.toNat ++ leNat 4 r.2.1 ++ leNat 1 (if r.2.2 then 1 else 0) ++ zeros 3)))
  ∧ (s.runs m { op := 0xC032, roles := rLdFm, sess := false, l0 := false, secure := false, inLen := 32, body := 0 } → ∀ (ld : Byte) tag o,
    s.hasLd ld.toNat = true → othersLd (s.role m) ld.toNat = false →
    (s.cmd.declined.find? fun o => decide (o.1.val = ld.toNat) && decide (o.2.tag = tag)) = some o →
    exec (.reofferExtent m ld tag) s =
      .next (((s.mapCmd fun c => { c with declined := c.declined.erase o }).offerTo o.2).reply m 0xC032 stOk []))
  ∧ (s.runs m { op := 0xC033, roles := rBmcOwn, sess := false, l0 := false, secure := false, inLen := 8, body := 0 } → ∀ policy : W64,
    10 ≤ fld policy 0 6 → fld policy 0 6 ≤ 50 → 1 ≤ fld policy 8 8 →
    exec (.setRestorePolicy m policy) s =
      .next ((s.mapResume fun r => { r with restorePct := fld policy 0 6, upspeedDelayS := fld policy 8 8 }).reply m 0xC033 stOk []))
  ∧ (s.runs m { op := 0xC034, roles := rBmcOwn, sess := false, l0 := false, secure := false, inLen := 0, body := 1 } → s.resume.image = 3 → s.inSave = false →
    ∀ f t, t = (s.mapResume fun r => { r with imageStep := 0 }).readImage f →
    exec (.retryRestore m f) s = .next (t.reply m 0xC034 stOk (leNat 1 t.resume.image.val)))

/-- A queue of the asking LD is created empty and active; its coalescing is set; its destruction starts its draining; a doorbell page is bound; a
share inside the whole is set. (R315, R316, R333, R318, R334) -/
def Obligations.QueueCommands : Prop := ∀ (s : State) (m : Msg) (ld : Nat), ld = roleLd (s.role m) →
  (s.runs m { op := 0xC040, roles := rLd, sess := false, l0 := false, secure := false, inLen := 28, body := 4 } →
    ∀ (sqBase cqBase : W64) (pasid : W32) (log2 : Byte) (vector coalCount coalTime : W16) (index q : BitVec 20),
    4 ≤ log2.toNat → log2.toNat ≤ 16 → coalesceOk vector coalCount coalTime = true → sqBase.toNat % 4096 = 0 → cqBase.toNat % 4096 = 0 →
    (s.poqLd ld).queues < (s.poqLd ld).quota → s.newIndex index = some q →
    exec (.createQueue m sqBase cqBase pasid log2 vector coalCount coalTime index) s =
      .next ((((s.useCtx q ld true).setCtx q.toNat (some
        { sqBase, cqBase, pasid := if pasid.getLsbD 31 then some (pasid.extractLsb' 0 20) else none, ld := Fin.ofNat 32 ld
          log2 := log2.toNat, state := .active, sqTail := 0, sqFetch := 0, cqTail := 0, cqPhase := true, vector
          coalCount := coalCount.toNat, coalTime := coalTime.toNat, done := 0, opened := 0, pendingInts := 0, execs := [], nextId := 0
          failed := false, destroyer := none })).updPoqLd ld fun x => { x with queues := x.queues + 1 }).reply m 0xC040 stOk (leNat 4 q.toNat)))
  ∧ (s.runs m { op := 0xC041, roles := rLd, sess := false, l0 := false, secure := false, inLen := 4, body := 0 } → ∀ q c, s.ownQueue m q = .ok c →
    c.state ≠ .draining →
    exec (.destroyQueue m q) s =
      .next ((s.useCtx (BitVec.ofNat 20 q.toNat) c.ld.val true).setCtx q.toNat (some { c with state := .draining, destroyer := some m })))
  ∧ (s.runs m { op := 0xC042, roles := rLd, sess := false, l0 := false, secure := false, inLen := 10, body := 0 } → ∀ q c (vector count time : W16) d t,
    s.ownQueue m q = .ok c → coalesceOk vector count time = true → d = { c with vector, coalCount := count.toNat, coalTime := time.toNat } →
    t = (s.useCtx (BitVec.ofNat 20 q.toNat) c.ld.val true).setCtx q.toNat (some d) →
    exec (.setCoalesce m q vector count time) s =
      .next ((if vector ≠ 0xFFFF ∧ c.pendingInts > 0 ∧ (time.toNat = 0 ∨ c.pendingInts ≥ count.toNat) then
        t.queueInterrupt (BitVec.ofNat 20 q.toNat) d else t).reply m 0xC042 stOk []))
  ∧ (s.runs m { op := 0xC043, roles := rLd, sess := false, l0 := false, secure := false, inLen := 8, body := 0 } → ∀ (page mode : Byte) (pasid : W32),
    page.toNat ≤ 63 → mode.toNat ≤ 3 →
    exec (.bindDoorbell m page mode pasid) s =
      .next ((s.updPoqLd ld fun x => { x with
        binds := Tab.set (fun _ => (0, 0)) page.toNat (Fin.ofNat 4 mode.toNat, if mode.toNat = 1 then pasid.extractLsb' 0 20 else 0) x.binds }).reply m 0xC043 stOk []))
  ∧ (s.runs m { op := 0xC044, roles := rFm, sess := false, l0 := false, secure := false, inLen := 8, body := 0 } → ∀ (n weight : Byte) (quota : W32),
    s.hasLd n.toNat = true → weight ≠ 0 →
    (((List.range s.nLds).filter (· ≠ n.toNat)).map fun k => (s.poqLd k).quota).sum + quota.toNat ≤ 2 ^ 20 →
    exec (.setPoqShare m n weight quota) s =
      .next ((s.updPoqLd n.toNat fun x => { x with weight := weight.toNat, quota := quota.toNat }).slots.reply m 0xC044 stOk []))

/-- Settings of masters that are in range wait for the end of the interval where they are admitted as one, and are refused whole where they are not;
the policy percentages are taken in their order. An interval that closes with no master over budget starts every count again, puts pending settings in
force, keeps the total and lets the arbiter look again. (R281, R287, R278) -/
def Obligations.RegulationCommands : Prop :=
  (∀ (s : State) (m : Msg),
  (∀ (entries : List (Byte × W64)) news,
    s.runs m { op := 0xC050, roles := rFmBmcOwn, sess := false, l0 := false, secure := false, inLen := 8 + 16 * entries.length, body := 2 } →
    news = entries.map (fun e => (e.1.toNat, (s.configured e.1.toNat).apply e.1.toNat e.2)) → entries ≠ [] → entries.length ≤ 39 →
    entries.all (fun e => decide (e.1.toNat < masterCount) && (decide (32 ≤ e.1.toNat) || s.hasLd e.1.toNat)) = true →
    entries.all (fun e => maySet (s.role m) e.1.toNat) = true → news.all (fun p => settingOk p.1 p.2) = true →
    exec (.setMasters m entries) s =
      .next (if s.admits news then (s.setPending news).reply m 0xC050 stOk (leNat 2 (s.setPending news).reg.scale)
        else s.rejectAdmission.reply m 0xC050 stAdmission []))
  ∧ (s.runs m { op := 0xC051, roles := rBmcOwn, sess := false, l0 := false, secure := false, inLen := 8, body := 0 } → ∀ policy : W64,
    1 ≤ fld policy 0 7 → fld policy 0 7 ≤ 126 → fld policy 0 7 < fld policy 7 7 → 1 ≤ fld policy 14 8 →
    exec (.setRegPolicy m policy) s =
      .next ((s.mapReg fun r => { r with optimalPct := fld policy 0 7, moderatePct := fld policy 7 7, ageUs := fld policy 14 8 }).reply m 0xC051 stOk [])))
  ∧ (∀ (s : State), (List.range masterCount).all (fun n => !(s.master n).overBudget) = true →
  ∀ t, t = (((List.range masterCount).foldl (fun (s : State) n =>
      s.setMaster n { s.configured n with pending := none, interval := 0, overLast := (s.configured n).overBudget, overBudget := false }) s).mapReg fun r =>
        { r with lastTotal := ((List.range masterCount).map fun n => (s.master n).interval).sum }).rescale →
    exec .accountingInterval s = .next (State.arbitrate t.reg.arbiter.length t))

/-- A source that fires takes its escalation setting; sources are cleared and read; an injection is armed and disarmed; a single record of Insole is
read; Insole is unfrozen. (R394, R400, R404, R398) -/
def Obligations.FaultCommands : Prop := ∀ (s : State) (m : Msg),
  (s.runs m { op := 0xC060, roles := rBmcOwn, sess := false, l0 := false, secure := false, inLen := 16, body := 0 } → ∀ (source : W16) (config : W64),
    source.toNat < 2048 → firesHere s source.toNat = true → fixedSource source.toNat = false → fld config 43 2 ≠ 0 → fld config 16 27 ≠ 0 →
    fld config 16 27 ≤ 86400000 →
    exec (.setSource m source config) s =
      .next ((insoleOther .config [] none (s.updSrc source.toNat fun x =>
        { x with escN := fld config 0 16, escW := fld config 16 27, escLimit := fld config 43 2, notify := config.getLsbD 45
                 fence := config.getLsbD 46 })).reply m 0xC060 stOk []))
  ∧ (s.runs m { op := 0xC061, roles := rBmcOwn, sess := false, l0 := false, secure := false, inLen := 4, body := 0 } → ∀ source count : W16,
    count ≠ 0 → source.toNat + count.toNat ≤ 2048 →
    exec (.clearSource m source count) s =
      .next (((s.fault.sources.filter fun p => decide (source.toNat ≤ p.1) && decide (p.1 < source.toNat + count.toNat)).foldl
        (fun s p => s.updSrc p.1 fun x => x.clear p.1) s).reply m 0xC061 stOk []))
  ∧ (s.runs m { op := 0xC062, roles := rAll, sess := false, l0 := false, secure := false, inLen := 4, body := 8 } → ∀ first max : W16, first.toNat < 2048 →
    ∀ n, n = fits m 8 16 max.toNat (2048 - first.toNat) →
    exec (.getSources m first max) s =
      .next (s.reply m 0xC062 stOk (leNat 2 n ++ zeros 2 ++ leNat 4 (nextCursor first.toNat n 2048)
        ++ (List.range n).flatMap fun i => s.sourceBytes (first.toNat + i))))
  ∧ (s.runs m { op := 0xC063, roles := rBmcOwn, sess := false, l0 := true, secure := false, inLen := 32, body := 4 } → ∀ d n, s.inSave = false →
    s.inResume = false → s.awlRangeOk d = true → s.awlRefused d (s.role m) = none → ((List.range 16).find? fun n => (s.inj n).isNone) = some n →
    exec (.awlArm m d) s =
      .next ((insoleOther .config [] none ((s.setInj n (some { d, number := s.fault.awlNext, left := d.count.toNat, due := false, marked := false })).mapFault
        fun f => { f with awlNext := f.awlNext + 1 })).reply m 0xC063 stOk (leNat 4 s.fault.awlNext.toNat)))
  ∧ (s.runs m { op := 0xC064, roles := rBmcOwn, sess := false, l0 := false, secure := false, inLen := 4, body := 0 } → ∀ (i : W32) n x,
    i ≠ 0xFFFFFFFF → (s.injs.filter fun p => decide (p.1 < 16)).filter (fun p => decide (p.2.number = i)) = [(n, x)] → x.marked = false →
    exec (.awlDisarm m i) s = .next ((insoleOther .config [] none (s.setInj n none)).reply m 0xC064 stOk []))
  ∧ (s.runs m { op := 0xC070, roles := rFmBmcOwn, sess := false, l0 := false, secure := false, inLen := 8, body := 8 } → ∀ (r : InsoleRec) (max : W32),
    s.fault.insole = [r] → fits m 8 64 max.toNat 1 = 1 →
    exec (.readInsole m r.seq max) s = .next (s.reply m 0xC070 stOk (leNat 4 1 ++ leNat 4 0xFFFFFFFF ++ r.bytes)))
  ∧ (s.runs m { op := 0xC071, roles := rBmcOwn, sess := false, l0 := false, secure := false, inLen := 0, body := 0 } →
    exec (.unfreezeInsole m) s = .next ((insoleOther .config [] none (s.mapFault fun f => { f with frozen := false, first := none })).reply m 0xC071 stOk []))

/-- A Welt policy inside its limits is taken; a channel leaves service and asks to come back; channel control is set; a module's point changes by a
retraining; the repair table and the margin report are read; a rate limit is taken; a foreign drive is joined and a drive let go; a line of a hot page
is mapped for compatibility with its content, an entry is cleared and the eight are listed. (R161, R157, R158, R179, R204, R143, R435, R298, R237,
R362, R147) -/
def Obligations.ChannelCommands : Prop :=
  (∀ (s : State) (m : Msg),
  (s.runs m { op := 0xC080, roles := rBmcOwn, sess := false, l0 := true, secure := false, inLen := 8, body := 0 } → ∀ policy p, weltPolicyOf policy = some p →
    exec (.setWeltPolicy m policy) s = .next ((s.mapWelt fun w => { w with policy := p }).reply m 0xC080 stOk []))
  ∧ (s.runs m { op := 0xC081, roles := rBmcOwn, sess := false, l0 := true, secure := false, inLen := 1, body := 0 } → ∀ ch : Byte,
    s.hasChannel ch.toNat = true → s.chanUnit ch.toNat = none → s.unitsOut = [] → (s.unitIndex false).isSome = true →
    s.sparedOn { channel := ch.toNat, whole := true, ranksel := 0 } = false →
    exec (.quiesceChannel m ch) s = .next ((s.unitOut { channel := ch.toNat, whole := true, ranksel := 0 } 1 none).park ch.toNat m).wake)
  ∧ (s.runs m { op := 0xC082, roles := rBmcOwn, sess := false, l0 := true, secure := false, inLen := 1, body := 0 } → ∀ (ch : Byte) n u,
    s.hasChannel ch.toNat = true → s.chanUnit ch.toNat = some (n, u) → u.state = 3 → u.cause = 1 → (s.chan ch.toNat).rejoinWait = none →
    (s.chan ch.toNat).present = true →
    exec (.rejoinChannel m ch) s =
      .next ((((s.updChan ch.toNat fun c => { c with pwrEn := true, slotStep := .powering, rejoinWait := some m }).setUnitState ch.toNat 4).endChannelInj
        ch.toNat).slotPin ch.toNat true))
  ∧ (s.runs m { op := 0xC083, roles := rBmcOwn, sess := false, l0 := true, secure := false, inLen := 16, body := 0 } → ∀ (ch : Byte) control c,
    s.hasChannel ch.toNat = true → ddrControlOf control = some c → (s.setControl ch.toNat c).chosenRate ch.toNat = (s.chan ch.toNat).rate →
    exec (.setChannelControl m ch control) s = .next ((s.setControl ch.toNat c).reply m 0xC083 stOk []))
  ∧ (s.runs m { op := 0xC084, roles := rBmcOwn, sess := false, l0 := true, secure := false, inLen := 3, body := 0 } → ∀ k rate half : Byte,
    s.hasModule k.toNat = true → rate.toNat ≤ 2 → half.toNat ≤ 1 → (s.laceMod k.toNat).carryAll = false → (s.laceMod k.toNat).pointWait = none →
    (s.laceMod k.toNat).state = 2 →
    exec (.setLacePoint m k rate half) s =
      .next (((s.updLaceMod k.toNat fun x => { x with pendingPoint := some (Fin.ofNat 3 rate.toNat, decide (half.toNat = 1)) }).startRetrain k.toNat).reply
        m 0xC084 stOk []))
  ∧ (s.runs m { op := 0xC085, roles := rFmBmcOwn, sess := false, l0 := false, secure := false, inLen := 12, body := 8 } → ∀ (ch : Byte) (cursor max : W32),
    s.hasChannel ch.toNat = true → cursor.toNat < 256 → ∀ n, n = fits m 8 32 max.toNat (256 - cursor.toNat) →
    exec (.getRepairTable m ch cursor max) s =
      .next (s.reply m 0xC085 stOk (leNat 4 n ++ leNat 4 (nextCursor cursor.toNat n 256)
        ++ (List.range n).flatMap fun i => (s.row (rowKey ch.toNat (cursor.toNat + i))).bytes)))
  ∧ (s.runs m { op := 0xC0A0, roles := rAll, sess := false, l0 := false, secure := false, inLen := 0, body := 192 } →
    exec (.getMarginReport m) s = .next (s.reply m 0xC0A0 stOk s.marginReport))
  ∧ (s.runs m { op := 0xC0A1, roles := rBmcOwn, sess := false, l0 := false, secure := false, inLen := 2, body := 0 } → ∀ h rate : Byte,
    s.hasHead h.toNat = true → (rateCodeOf rate.toNat).isSome = true → (s.headOf h.toNat).rateWait = none → (s.headOf h.toNat).up = false →
    exec (.setPortRate m h rate) s = .next ((s.draw.2.limitRate h.toNat rate.toNat).reply m 0xC0A1 stOk []))
  ∧ (s.runs m { op := 0xC0C0, roles := rBmcOwn, sess := false, l0 := true, secure := false, inLen := 2, body := 0 } → ∀ n : Byte, s.hasDrive n.toNat = true →
    (s.drive n.toNat).state = 4 → exec (.driveRelease m n 0x5A) s = .next ((s.joinDrive (Fin.ofNat 4 n.toNat)).wake.reply m 0xC0C0 stOk []))
  ∧ (s.runs m { op := 0xC0C1, roles := rBmcOwn, sess := false, l0 := true, secure := false, inLen := 1, body := 0 } → ∀ n : Byte, s.hasDrive n.toNat = true →
    s.shank.imageExists = false →
    exec (.driveRemove m n) s =
      .next ((((s.failDrive (Fin.ofNat 4 n.toNat) 0).updDrive n.toNat fun x => { x with perst := false }).emit
        (.drive (Fin.ofNat 4 n.toNat) "perst" 0)).reply m 0xC0C1 stOk [])))
  ∧ (∀ (s : State) (m : Msg),
  (s.runs m { op := 0xC0B0, roles := rBmcOwn, sess := false, l0 := false, secure := false, inLen := 8, body := 1 } → ∀ (dpa : W64) e i r,
    e = s.entry (dpa.extractLsb' 12 32) → fld dpa 0 6 = 0 → dpa.toNat / 4096 < s.last.hostPages → e.state = .hot → s.compatSlot dpa = some i →
    s.lineContent e.frame.toNat (fld dpa 6 6) = some r →
    exec (.compatRemap m dpa) s =
      .next ((s.setCompat i (some { dpa, raw := freshRaw r.data (pla e.frame.toNat (fld dpa 6 6)) (sideMeta r.side) })).reply m 0xC0B0 stOk
        (leNat 1 i)))
  ∧ (s.runs m { op := 0xC0B1, roles := rBmcOwn, sess := false, l0 := false, secure := false, inLen := 1, body := 0 } → ∀ n : Byte,
    (n.toNat < 8 → exec (.compatClear m n) s = .next ((s.setCompat n.toNat none).reply m 0xC0B1 stOk []))
      ∧ (n.toNat ≥ 8 → exec (.compatClear m n) s = .next (s.reply m 0xC0B1 stInvalidRange [])))
  ∧ (s.runs m { op := 0xC0B2, roles := rFmBmcOwn, sess := false, l0 := false, secure := false, inLen := 0, body := 128 } →
    exec (.compatList m) s = .next (s.reply m 0xC0B2 stOk ((List.range 8).flatMap s.compatBytes))))

/-- A key is loaded into an empty slot; a destruction starts and its asker waits; it is carried out when nothing in flight uses the key, and answers
whoever waits; a slot is read without its key; a loaded slot that grants an LD becomes its default; a quota and a grant are set. (R116, R119, R362,
R106, R110) -/
def Obligations.KeyCommands : Prop := ∀ (s : State) (m : Msg),
  (s.runs m (keyGate 0xC090 80 0 rLdBmcOwn) → ∀ (k : W16) (mask : W32) (ld : Byte) (key : Key), 1 ≤ k.toNat → k.toNat ≤ 4095 →
    s.mayMask (s.role m) k.toNat mask = true → s.mayAct (s.role m) k.toNat = true → (s.slot k.toNat).state = .empty → s.overQuota (s.role m) = false →
    exec (.programKey m k 1 mask 0xFFFF ld key) s =
      .next ((s.loadSlot k.toNat key true mask (programmerOf (s.role m))).reply m 0xC090 stOk []))
  ∧ (s.runs m (keyGate 0xC091 2 0 rLdBmcOwn) → ∀ k : W16, 1 ≤ k.toNat → k.toNat ≤ 4095 → s.mayAct (s.role m) k.toNat = true →
    (s.slot k.toNat).state = .loaded → (s.slot k.toNat).destroying = false →
    exec (.destroyKey m k) s = .next ((s.startDestroy k.toNat).updSlot k.toNat fun x => { x with waiters := x.waiters ++ [m] }))
  ∧ (∀ k : BitVec 12, (s.slot k.toNat).destroying = true → s.keyInflight k.toNat = 0 → (s.zeroizeSlot k.toNat).world.secure ≠ .restarting →
    exec (.slotDestructionComplete k) s =
      .next ((s.slot k.toNat).tspWaiters.foldl (fun s ld => s.emit (.tsp ld "key cleared" [k.toNat]))
        ((s.slot k.toNat).waiters.foldl (fun s m => s.reply m 0xC091 stOk []) (s.zeroizeSlot k.toNat))).wake)
  ∧ (s.runs m (keyGate 0xC092 2 16 rLdBmcOwn) → ∀ (k : W16) x, k.toNat ≤ 4095 → s.mayAct (s.role m) k.toNat = true → x = s.slot k.toNat →
    exec (.queryKey m k) s =
      .next (s.reply m 0xC092 stOk (leNat 1 (slotCode x.state) ++ leNat 1 (if x.persistent then 1 else 0) ++ zeros 2 ++ leBytes 4 x.mask
        ++ leNat 8 x.pages)))
  ∧ (s.runs m (keyGate 0xC093 4 0 rLdOwn) → ∀ (ld : Byte) (k : W16), s.hasLd ld.toNat = true → k.toNat ≤ 4095 → othersLd (s.role m) ld.toNat = false →
    (s.slot k.toNat).state = .loaded → (s.slot k.toNat).mask.getLsbD ld.toNat = true →
    exec (.setDefaultKey m ld k) s = .next ((s.setDefKey ld.toNat (BitVec.ofNat 12 k.toNat)).reply m 0xC093 stOk []))
  ∧ (s.runs m (keyGate 0xC094 4 0 rFmOwn) → ∀ (ld : Byte) (quota : W16), s.hasLd ld.toNat = true →
    exec (.setKeyQuota m ld quota) s =
      .next (if quota.toNat ≤ 4095 then (s.setKeyQuota ld.toNat quota.toNat).reply m 0xC094 stOk [] else s.reply m 0xC094 stInvalidRange []))
  ∧ (s.runs m (keyGate 0xC095 8 0 rOwn) → ∀ (k : W16) (mask : W32), 1 ≤ k.toNat → k.toNat ≤ 4095 →
    exec (.grantShare m k mask) s = .next ((s.updSlot k.toNat fun x => { x with grant := mask }).reply m 0xC095 stOk []))

/-- TSP of an LD over its session, with the secure world up and the LD's head, where it has one, in 256-byte flit mode: every request of Table — TSP
support completes. Requests that report answer and change nothing else; a configuration that is not locked is set, and one that is locked stays; it is
locked; a key, the request's or one drawn from the generator, is loaded into an ephemeral slot for a CKID that has none; a key is cleared by the
destruction of its slot; an unknown request is answered unsupported. The version number, the order of checks and the slot chosen are the model's
(log 80, 146). (R117, R116, R119) -/
def Obligations.TspRequests : Prop := ∀ (s : State) (ld : Fin 32) (x : Fin 8), s.tspHere ld x = true → s.world.secure = .up →
  (∀ h, (s.fn ld.val).head = some h → s.head68 h.val = false) →
  exec (.getTargetTspVersion ld x) s = .next (s.emit (.tsp ld "versions" [1]))
  ∧ exec (.getTargetCapabilities ld x) s = .next (s.emit (.tsp ld "capabilities" [1, 128, 256]))
  ∧ (∀ on, (s.tspOf ld.val).locked = false →
    exec (.setTargetConfiguration ld x on) s = .next ((s.updTspOf ld.val fun t => { t with enabled := on }).emit (.tsp ld "configured" [])))
  ∧ (∀ on, (s.tspOf ld.val).locked = true → exec (.setTargetConfiguration ld x on) s = .next (s.emit (.tsp ld "locked" [])))
  ∧ exec (.getTargetConfiguration ld x) s = .next (s.emit (.tsp ld "configuration" (tspConfig (s.tspOf ld.val))))
  ∧ exec (.getTargetConfigurationReport ld x) s =
    .next (s.emit (.tsp ld "report" (tspConfig (s.tspOf ld.val) ++ (s.tspOf ld.val).ckids.keys)))
  ∧ exec (.lockTargetConfiguration ld x) s = .next ((s.updTspOf ld.val fun t => { t with locked := true }).emit (.tsp ld "locked" []))
  ∧ (∀ (ckid : BitVec 13) (slot : BitVec 12) key k, (s.tspOf ld.val).locked = false → ckid.toNat ≤ 127 →
    (Tab.get (fun _ => none) (s.tspOf ld.val).ckids ckid.toNat : Option (BitVec 12)) = none → s.overQuota (.ld ld) = false →
    s.emptyKeySlot slot.toNat = some k →
    exec (.setTargetCkidSpecificKey ld x ckid slot key) s =
      .next (((s.loadSlot k key false (ldBit ld.val) (programmerOf (.ld ld))).setCkid ld.val ckid.toNat (some (BitVec.ofNat 12 k))).emit
        (.tsp ld "key set" [ckid.toNat]))
    ∧ exec (.setTargetCkidRandomKey ld x ckid slot) s =
      .next (((s.drawKey.2.loadSlot k s.drawKey.1 false (ldBit ld.val) (programmerOf (.ld ld))).setCkid ld.val ckid.toNat (some (BitVec.ofNat 12 k))).emit
        (.tsp ld "key set" [ckid.toNat])))
  ∧ (∀ (ckid : BitVec 13) (slot : BitVec 12) key, (s.tspOf ld.val).locked = true →
    exec (.setTargetCkidSpecificKey ld x ckid slot key) s = .next (s.emit (.tsp ld "locked" []))
    ∧ exec (.clearTargetCkidKey ld x ckid) s = .next (s.emit (.tsp ld "locked" [])))
  ∧ (∀ (ckid : BitVec 13) k t, (s.tspOf ld.val).locked = false →
    (Tab.get (fun _ => none) (s.tspOf ld.val).ckids ckid.toNat : Option (BitVec 12)) = some k → k ≠ 0 → t = s.setCkid ld.val ckid.toNat none →
    (t.slot k.toNat).state = .loaded →
    exec (.clearTargetCkidKey ld x ckid) s =
      .next ((if (t.slot k.toNat).destroying then t else t.startDestroy k.toNat).updSlot k.toNat fun y => { y with tspWaiters := y.tspWaiters ++ [ld] }))
  ∧ (∀ op, exec (.tspUnsupportedRequest ld x op) s = .next (s.emit (.tsp ld "unsupported" [])))

/-- Versions, capabilities, algorithms, digests, certificate, challenge and measurements answer; a key exchange takes the lowest free session, and a
finish makes it ready. Inside a session its keys are updated, a heartbeat is answered and its end frees it; an RMA request of the owner's session with
a good token destroys the keys and enters RMA, and without one is recorded and answered with a new nonce; a key of a key set of an IDE stream of the
session's port is programmed, the stream goes over to a set that has a key, in skid or containment mode, and a set that is stopped loses its key. The order of the requests is the model's (log 88). (R385, R384, R387, R121) -/
def Obligations.SpdmRequests : Prop :=
  (∀ (s : State) (m : Msg), spdmPath m.path = true → s.pathHere m.path = true → s.world.normal = .up →
  s.world.secure = .up →
  exec (.getVersion m) s =
    .next ((s.mapWorld fun w => { w with negotiated := w.negotiated.filter (· ≠ m.path) }).emit (.spdm m.path "versions" [0x12, 0x13]))
  ∧ exec (.getCapabilities m) s = .next (s.emit (.spdm m.path "capabilities" []))
  ∧ exec (.negotiateAlgorithms m true) s =
    .next ((s.mapWorld fun w => { w with negotiated := m.path :: w.negotiated.filter (· ≠ m.path) }).emit (.spdm m.path "algorithms" []))
  ∧ (s.world.negotiated.contains m.path = true →
    exec (.getDigests m) s = .next (s.emit (.spdm m.path "digests" [0]))
    ∧ exec (.getCertificate m 0) s = .next (s.emit (.spdm m.path "certificate" [0]))
    ∧ (∀ nonce, exec (.challenge m 0 nonce) s = .next (s.emit (.spdm m.path "challenge authenticated" [0, nonce.toNat])))
    ∧ (∀ (i : Byte) sign, 1 ≤ i.toNat → i.toNat ≤ 9 →
      exec (.getMeasurements m i sign) s =
        .next (s.emit (.spdm m.path "measurements" ((if sign then 1 else 0) :: 1 :: i.toNat :: s.measurement i.toNat))))
    ∧ (∀ h k, ((List.range 8).find? fun k => (s.sessionOf k).isNone) = some k →
      exec (.keyExchange m h) s =
        .next ((s.setSessionOf k (some { ld := pathLd m.path, owner := false, keyHash := h, finished := false, keys := 0 })).emit
          (.spdm m.path "key exchange" [k])))
    ∧ (∀ (i : Fin 8) a x, s.sessionOf i.val = some x → x.finished = false → x.ld = pathLd m.path →
      exec (.finish m i a) s = .next ((s.setSessionOf i.val (some { x with finished := true, owner := a })).emit (.spdm m.path "finish" [i.val])))))
  ∧ (∀ (s : State) (m : Msg), spdmPath m.path = true → s.pathHere m.path = true → s.world.normal = .up →
  s.world.secure = .up → s.world.negotiated.contains m.path = true →
  (∀ (i : Fin 8) x, s.msgSession m = some x → m.session = some i →
    exec (.keyUpdate m i) s = .next ((s.setSessionOf i.val (some { x with keys := x.keys + 1 })).emit (.spdm m.path "key update" [i.val]))
    ∧ exec (.heartbeat m i) s = .next (s.emit (.spdm m.path "heartbeat" [i.val]))
    ∧ exec (.endSession m i) s = .next ((s.setSessionOf i.val none).emit (.spdm m.path "end session" [i.val])))
  ∧ (∀ x serial nonce sig t, s.msgSession m = some x → s.ownerSession x = true →
    t = securityRecord (match pathLd m.path with | some ld => ld.val | none => 0xFF) 0 0xFE 0 0 s →
    exec (.vendorDefinedRequest m serial nonce sig) s =
      .next (if s.tokenOk serial nonce sig then
          (((s.zeroizeAll.mapKeys fun k => { k with dke := k.dke + 1 }).mapWorld fun w => { w with life := { w.life with rma := true } }).emit
            (.spdm m.path "RMA" [])).coldLoss
        else (t.draw.2.mapWorld fun w => { w with nonce := some (Config.nonce t.draw.1) }).emit
          (.spdm m.path "nonce" [(Config.nonce t.draw.1).toNat])))
  ∧ (∀ (i : Fin 8) (p : Fin 2) (stream : Fin 6) set km x ld y, s.sessionOf i.val = some x → x.ld = some ld → x.finished = true → portOfLd ld.val = p.val →
    y = (s.ideStream (6 * p.val + stream.val)).take set km →
    exec (.ideKmMessage p i stream set km) s =
      .next ((s.setIdeStream (6 * p.val + stream.val) y).emit
        (.spdm (.doe ld) "IDE" [stream.val, match y.active with | none => 0 | some false => 1 | some true => 2])))
  ∧ (∀ (y : IdeStream) (set : Bool) key containment,
    (y.take set (.keyProg key)).keyOf set = some key ∧ (y.take set (.keyProg key)).active = y.active
    ∧ ((y.keyOf set).isSome = true → (y.take set (.setGo containment)).active = some set ∧ (y.take set (.setGo containment)).containment = containment)
    ∧ (y.take set .setStop).keyOf set = none ∧ (y.take set .setStop).active ≠ some set))

/-- A watchdog or an exception restarts the world of its core; a world that is ready goes on; the security version rises to the running image's a day
after its start and its last fault. The secure world gives pages to owners, and no more of its own once it holds 2,048; a core gates and opens the
blocks of its own world; a request for another world's block, and an access that the owner of a page does not allow, are recorded and raised, also
one that the secure world makes for the normal world; an access that it allows goes through the L2, which engines bypass. The
numbering of pages is the model's (log 86). (R375, R376, R381, R383, R369, R372, R368) -/
def Obligations.WorldEvents : Prop :=
  (∀ (s : State),
  (s.world.secure = .up → exec .secureWatchdogExpiry s = .next (s.secureRestart 1))
  ∧ (s.world.secure = .up → s.world.normal = .up → exec .normalWatchdogExpiry s = .next s.normalRestart)
  ∧ (∀ core : Fin 8, (s.core core.val).1 = false → core.val ≥ 6 → s.world.secure = .up → exec (.coreException core) s = .next (s.secureRestart 2))
  ∧ (∀ core : Fin 8, (s.core core.val).1 = false → core.val < 6 → s.world.normal = .up → exec (.coreException core) s = .next s.normalRestart)
  ∧ (∀ a o t, s.power.bringup = 2 → exec (.secureWorldReady a o t) s = .next (s.secureBringup a o t).wake)
  ∧ (∀ a o t, s.power.bringup = 6 → s.world.secure = .restarting → exec (.secureWorldReady a o t) s = .next (s.secureRestarted a o t).wake)
  ∧ (s.world.normal = .restarting → s.power.bringup = 6 → s.world.recovery = false → s.world.staged = none →
    exec .normalWorldReady s =
      .next ((s.mapWorld fun w => { w with normal := .up }).mapFault fun f => { f with heartbeat := true, aliveSeen := true }).wake)
  ∧ (∀ p, s.world.secure = .up → s.slotFw s.world.secureB = some p →
    s.time ≥ max s.world.secureStart (s.world.faultTimes.head?.getD 0) + Config.nsDay →
    exec (.svnRaise .secure) s =
      .next (s.mapWorld fun w => { w with svnSecure := if w.svnSecure.toNat < p.secureSvn.toNat then p.secureSvn else w.svnSecure })))
  ∧ (∀ (s : State),
  (∀ (page : BitVec 21) o, s.world.secure = .up → page.toNat < internalPages → o ≠ .secure →
    exec (.ownerTableChange page o) s = .next ((s.l2Page page).setPageOwner page.toNat o))
  ∧ (∀ (page : BitVec 21), s.world.secure = .up → page.toNat < 4096 → s.pageOwner page.toNat ≠ .secure → s.securePages false ≥ 2048 →
    exec (.ownerTableChange page .secure) s = .next s)
  ∧ (∀ (core : Fin 8) b gated, (s.core core.val).1 = false → blockWorld b = some (coreWorld core.val) →
    exec (.gateRequest core b gated) s = .next (s.setGate (blockNo b) gated))
  ∧ (∀ (core : Fin 8) b gated, (s.core core.val).1 = false → blockWorld b ≠ some (coreWorld core.val) →
    exec (.gateRequest core b gated) s =
      .next (fire 1 (securityRecord core.val (worldNo (coreWorld core.val)) (blockNo b) 0 (if gated then 1 else 0) s)))
  ∧ (∀ (r : Requester) (page : BitVec 21) line write, page.toNat < internalPages → pageAllows r (s.pageOwner page.toNat) write = false →
    exec (.ownerViolation r page write line) s =
      .next (fire 2 (securityRecord (requesterNo r) (match r with | .secureCore _ | .secureFor _ => 1 | _ => 0) 0 page.toNat (if write then 1 else 0) s)))
  ∧ (∀ (r : Requester) (page : BitVec 21) line write, page.toNat < internalPages → pageAllows r (s.pageOwner page.toNat) write = true →
    exec (.ownerViolation r page write line) s = .next (if r = .engine then s else s.l2Access page line write)))

/-- IDCODE, SAMPLE/PRELOAD and BYPASS select their registers; while RESET_N is low, EXTEST, CLAMP and HIGHZ drive, hold and release the pins. A code
that names another instruction is no BYPASS: the command is ill-formed. (R455, R388) -/
def Obligations.TapInstructions : Prop := ∀ (s : State),
  exec .idcode s = .next (s.selectTap 0x01 s.idcode)
  ∧ (∀ b : BitVec 64, exec (.samplePreload b) s = .next ((s.draw.2.mapWorld fun w => { w with boundary := b }).selectTap 0x02 (Config.freeWord s.free).toNat))
  ∧ (s.power.resetNLow = true →
    (∀ b, exec (.extest b) s = .next (((s.mapWorld fun w => { w with tap := 0x00 }).mapWorld fun w => { w with boundary := b }).emit (.pin "boundary driven" true)))
    ∧ exec .clamp s = .next ((s.mapWorld fun w => { w with tap := 0x04 }).emit (.pin "boundary held" true))
    ∧ exec .highz s = .next ((s.mapWorld fun w => { w with tap := 0x05 }).emit (.pin "outputs off" true)))
  ∧ (∀ c, exec (.bypass c) s = if tapCodes.contains c then .fault .illFormed else .next (s.selectTap 0xFF 0))

/-- Events of one cycle are raised together; an export record is written to its ring and moves the tail; classes return; the ALIVE pin toggles while
all is well; a lost heartbeat is raised once; an armed injection comes due; the export ring is set from a head's function. (R395, R405, R399, R400,
R407) -/
def Obligations.FaultEvents : Prop := ∀ (s : State),
  (∀ events es us, s.flagFences (events.map fun e => { Ev.of e.1.toNat with cls := some (eventClass e.1.toNat e.2.1.val), ld := e.2.2 }) = (es, us) →
    exec (.eventArrival events) s = .next (us.foldl (fun s u => s.doFence none u) (raiseCycle es s)).wake)
  ∧ (∀ q rest r, s.fault.expWaiting = q :: rest → s.fault.frozen = false → s.fault.expEnable = true →
    ringFull s.fault.expLog2 s.fault.expHead.toNat s.fault.expTail.toNat = false →
    (s.mapFault fun f => { f with expWaiting := rest }).insoleRec q = some r →
    exec .insoleExportWrite s =
      .next (((s.mapFault fun f => { f with expWaiting := rest }).emit
        (.dma (s.mapFault fun f => { f with expWaiting := rest }).exportFn none
          (s.fault.expBase.toNat + 64 * (s.fault.expTail.toNat % 2 ^ s.fault.expLog2)) r.bytes)).mapFault fun f =>
        { f with expTail := BitVec.ofNat 16 (nextIdx s.fault.expLog2 (s.fault.expTail.toNat % 2 ^ s.fault.expLog2)) }))
  ∧ exec .classReturn s =
    .next ((s.fault.sources.map (·.1)).foldl (fun s n => s.setSrc n (returnSource s.tick n (s.src n))) s)
  ∧ (s.aliveStatus = 0 → exec .aliveToggle s = .next ((s.mapFault fun f => { f with alive := !f.alive }).emit (.pin "ALIVE" !s.fault.alive)))
  ∧ (s.fault.heartbeat = true → exec .heartbeatLost s = .next (fire 6 (s.mapFault fun f => { f with heartbeat := false })))
  ∧ (∀ (n : Fin 16) x, s.inj n.val = some x → x.left ≠ 0 → x.due = false → x.d.kind = 5 →
    exec (.awlInjection n) s = .next (s.setInj n.val (some { x with left := x.left - 1, due := true })))
  ∧ (∀ (head : Fin 4) value, s.hasFn (32 + head.val) = true → exec (.insoleExportEnable head value) s = .next (s.writeExport value))

/-- A function's counters freeze together; a counter takes its configuration and counts only where that is accepted; sampling and the dump ring are
configured; a dump is written to its ring and the next number follows. (R413, R410, R414, R418, R416) -/
def Obligations.PerfEvents : Prop := ∀ (s : State) (fn : Fin 36), s.hasFn fn.val = true →
  (∀ value : W64, exec (.freezeAll fn value) s = .next (s.setFreeze fn.val (value.getLsbD 0)))
  ∧ (∀ (u : Fin 21) (c : Fin 8) (cfg : CounterCfg), s.pmHas u.val = true →
    exec (.cpmuConfigWrite fn u c cfg) s = .next (s.updPerfFn fn.val fun f =>
      { f with cfg := Tab.set (fun _ => counterReset) (pmKey u.val c.val) { cfg with enable := cfg.enable && cfgAccepted c.val cfg } f.cfg }))
  ∧ (∀ (p : Fin 2) value, s.hasHead (2 * p.val) = true → exec (.sampleCfgWrite fn p value) s = .next (s.writeSampleCfg fn.val p.val value))
  ∧ (∀ value, exec (.dumpRingEnable fn value) s = .next (s.writeDumpRing fn.val value))
  ∧ (∀ f, f = s.perfFn fn.val → f.periodUs ≠ 0 → f.ringEnable = true → s.exporting = false → ringFull f.ringLog2 f.dumpHead f.dumpTail = false →
    exec (.periodicDump fn) s =
      .next ((s.emit (.dma fn.val none (f.ringBase.toNat + 2048 * (f.dumpTail % 2 ^ f.ringLog2)) (s.dumpSlot fn.val))).updPerfFn fn.val fun g =>
        { g with dumpTail := nextIdx g.ringLog2 (f.dumpTail % 2 ^ f.ringLog2), dumpSeq := g.dumpSeq + 1 }))

/-- A reading of the regulator within 2.5 percent of the target is good, one outside raises RAIL; the third poll without answer raises AVS_FAIL. From
100 degrees the device throttles and raises THROTTLE, below 95 it stops, from 110 the time is kept. A lost crystal and an unlocked loop are raised;
the loop of a pair of channels takes both out of service; an assigned alert pin is raised; a drive that leaves its slot is failed; the loss of the
always-on supply takes Insole and the key-encryption key with it; the end of RESET_N brings the device up. (R421, R425, R423, R439, R118, R426) -/
def Obligations.PowerEvents : Prop :=
  (∀ (s : State),
  (s.power.pwrgood = true → s.power.xtalFallback = false → exec .xtalLoss s = .next (fire 900 (s.mapPower fun p => { p with xtalFallback := true })))
  ∧ (s.power.pwrgood = true → exec .pllUnlock s = .next (fire 901 s))
  ∧ (∀ pair : Fin 6, s.power.pwrgood = true → s.hasChannel (2 * pair.val) = true →
    exec (.channelPllUnlock pair) s =
      .next (([2 * pair.val, 2 * pair.val + 1].foldl (fun (s : State) c => s.unitOut { channel := c, whole := true, ranksel := 0 } 0 none)
        (raise { Ev.of 907 with detail := [2 * pair.val, 2 * pair.val + 1] } s)).wake))
  ∧ (s.power.pwrgood = true → (s.pinOf 3).isSome = true → exec .thermAlert s = .next (fire 904 s))
  ∧ (∀ n : Fin 4, s.hasDrive n.val = true → ∀ p,
    exec (.drivePresenceChange n true) s =
      .next ((s.updDrive n.val fun x => { x with prsnt := true, perst := true }).emit (.drive n "perst" 1))
    ∧ (p = (s.updDrive n.val fun x => { x with prsnt := false, perst := false }).emit (.drive n "perst" 0) → p.driveWrites n.val = false →
      exec (.drivePresenceChange n false) s = .next (p.failDrive n 0).wake))
  ∧ (∃ t, exec .aonSupplyLoss s = .next t ∧ t.fault.insole = [] ∧ t.fault.insoleLost = true ∧ t.keys.kekValid = false ∧ t.power.pwrgood = false
    ∧ t.pending = s.pending)
  ∧ (∀ b : BringUp, b.wf = true → s.power.pwrgood = true → s.power.resetNLow = true →
    exec (.resetNRelease b) s = .next ((s.mapPower fun p => { p with resetNLow := false }).bringUp b false)))
  ∧ (∀ (s : State) (mv icore : W16), s.power.pwrgood = true →
  (s.power.railBad = false → 40 * (mv.toNat - s.power.vcoreMv + (s.power.vcoreMv - mv.toNat)) ≤ s.power.vcoreMv →
    exec (.avsPoll true mv icore) s = .next (s.mapPower fun p =>
      { p with avsTries := 0, vcoreReadMv := mv.toNat, icore := icore.toNat, railBad := false, railFault := p.railFault || false }))
  ∧ (s.power.railBad = false → s.power.vcoreMv < 40 * (mv.toNat - s.power.vcoreMv + (s.power.vcoreMv - mv.toNat)) →
    exec (.avsPoll true mv icore) s = .next (fire 897 (s.mapPower fun p =>
      { p with avsTries := 0, vcoreReadMv := mv.toNat, icore := icore.toNat, railBad := true, railFault := p.railFault || true })))
  ∧ (s.power.avsTries < 2 → exec (.avsPoll false mv icore) s = .next (s.mapPower fun p => { p with avsTries := s.power.avsTries + 1 }))
  ∧ (s.power.avsTries = 2 → exec (.avsPoll false mv icore) s = .next (fire 896 (s.mapPower fun p =>
      { p with avsTries := 0, avsFail := true, vcoreMv := if p.vcoreReadMv = 0 then p.vcoreMv else p.vcoreReadMv }))))
  ∧ (∀ (s : State) (tj : Int), s.power.pwrgood = true →
  (100 ≤ tj → tj < 110 → s.power.throttle = false →
    exec (.thermalSensorRead tj) s =
      .next ((fire 898 ((s.mapPower fun p => { p with tj := tj }).mapPower fun p => { p with throttle := true })).mapPower fun p =>
        { p with tjCritSince := none }))
  ∧ (tj < 95 → exec (.thermalSensorRead tj) s =
      .next (((s.mapPower fun p => { p with tj := tj }).mapPower fun p => { p with throttle := false }).mapPower fun p => { p with tjCritSince := none }))
  ∧ (95 ≤ tj → tj < 100 → exec (.thermalSensorRead tj) s = .next ((s.mapPower fun p => { p with tj := tj }).mapPower fun p => { p with tjCritSince := none }))
  ∧ (110 ≤ tj → s.power.throttle = true → s.power.tjCritSince = none →
    exec (.thermalSensorRead tj) s =
      .next ((s.mapPower fun p => { p with tj := tj }).mapPower fun p => { p with tjCritSince := some (s.time, false) })))

/-- The end of a hold, or an age, lets the arbiter look again; a slot's supply comes up in its steps and goes off, and answers who waits; a drive
whose link comes up as its set asks is fit; a background operation ends; a change of channel rate that could not be made in time answers DEFERRED; a
vector is unmasked; the first HDM decoder of an LD is committed. (R280, R279, R182, R237, R340, R180, R309, R291) -/
def Obligations.WaitsEnd : Prop := ∀ (s : State),
  (∀ (master : Fin 39) row t, t = s.updMaster master.val (fun m => if row then { m with holdRow := false } else { m with holdSoft := false }) →
    exec (.priorityHoldEnd master row) s = .next (State.arbitrate t.reg.arbiter.length t))
  ∧ (∀ tag t, t = s.mapReg (fun r => { r with arbiter := r.arbiter.map fun q => if q.tag = tag then { q with aged := true } else q }) →
    exec (.arbiterWaitAge tag) s = .next (State.arbitrate t.reg.arbiter.length t))
  ∧ (∀ (ch : Fin 12) m t, (s.chan ch.val).slotStep = .spdRead → (s.chan ch.val).rejoinWait = some m →
    t = (s.updChan ch.val fun c => { c with slotStep := .powered, state := 2, full := true, rejoinWait := none }).setUnitState ch.val 4 →
    exec (.pmicPowerGood ch) s = .next ((t.updChan ch.val fun c => { c with rate := t.chosenRate ch.val }).reply m 0xC082 stOk []))
  ∧ (∀ (ch : Fin 12) dimms, (s.chan ch.val).slotStep = .powering →
    (framesOf dimms < (s.chan ch.val).frames ∨ dimms.all (fun d => dimmSupported d.2) = false) →
    exec (.slotSupplySettled ch dimms) s = .next (s.rejoinEnds ch.val stNoResource))
  ∧ (∀ (ch : Fin 12) dimms, (s.chan ch.val).slotStep = .powering → (s.chan ch.val).frames ≤ framesOf dimms →
    dimms.all (fun d => dimmSupported d.2) = true →
    ∃ t, exec (.slotSupplySettled ch dimms) s = .next t ∧ (t.chan ch.val).slotStep = .spdRead ∧ (t.chan ch.val).unusable = 0
      ∧ (t.chan ch.val).failures = [])
  ∧ (∀ (ch : Fin 12) m, (s.chan ch.val).slotStep = .parking → (s.chan ch.val).quiesceWait = some m →
    exec (.slotSupplyOff ch) s =
      .next (((s.updChan ch.val fun c => { c with slotStep := .off, state := 3, quiesceWait := none }).setUnitState ch.val 3).reply m 0xC081 stOk []))
  ∧ (∀ (n : Fin 4) (d : DriveInfo) b u, s.hasDrive n.val = true → s.driveWrites n.val = false → d.margin ≥ 10 →
    s.power.board = some b → Tab.get (fun _ => 0) s.power.derateDrive n.val = 0 → d.candidate = false →
    u = s.updDrive n.val (fun x => { x with
        x8 := b.flags.getLsbD 2, speed := d.gen, margin := d.margin, blocks := d.blocks.toNat / 32 * 32, nguid := d.nguid, fit := false, commands := [],
        perst := true, written := 0, rate := 0, rebuilt := 0 }) →
    u.driveMeets n.val d = true → u.shank.failedMember = none →
    exec (.driveLinkUp n d) s = .next (u.updDrive n.val fun d => { d with state := 0, fit := true }).wake)
  ∧ (∀ (fn : Fin 36) op, (s.cmdLd fn.val).background = some (op, false) →
    exec (.backgroundOperationDone fn) s =
      .next ((s.updCmdLd fn.val fun c => { c with background := some (op, true) }).emit (.background fn.val op.toNat)))
  ∧ (∀ (t : Fin 20) m c, t.val < 12 → (s.chan t.val).rateDeferred = some (m, c) →
    exec (.changeDeferralTimeout t) s = .next ((s.updChan t.val fun c => { c with rateDeferred := none }).reply m 0xC083 stDeferred []))
  ∧ (∀ (fn : Fin 36) vector, s.hasFn fn.val = true → exec (.msixVectorUnmask fn vector) s = .next (s.unmask fn.val vector.val))
  ∧ (∀ (ld : Fin 32) (base size : W64) (ways : Fin 17) (gran : W16), s.hasLd ld.val = true →
    (Tab.get (fun _ => none) (s.fn ld.val).hdm 0 : Option HdmDecoder) = none → hdmOk base.toNat size.toNat ways.val gran.toNat = true →
    base.toNat + size.toNat ≤ 2 ^ 64 →
    exec (.hdmDecoderCommit ld 0 base size ways gran) s = .next (s.updFn ld.val fun f =>
      { f with hdm := Tab.set (fun _ => none) 0 (some { base, size, ways := ways.val, gran := gran.toNat }) f.hdm }))

/-- A SLAFIN command that a check turns away (its role, its session, its length, its output space, lock 0, the secure world) is answered with the
status of the check and an empty body, and has no side effect: one clause for each command of the range whose form is fixed. An answer that is not an
Eyelet's changes nothing but the output, and its body is empty unless the status is OK. (R339, R343, R344, R345) -/
def Obligations.TurnedAway : Prop :=
  (∀ (s : State) (m : Msg) (st : W16),
  (∀ (channel : Byte) (control : W64), s.turned m { op := 0xC083, roles := rBmcOwn, sess := false, l0 := true, secure := false, inLen := 16, body := 0 } st →
    exec (.setChannelControl m channel control) s = .next (s.reply m 0xC083 st []))
  ∧ (∀ (channel : Byte), s.turned m { op := 0xC081, roles := rBmcOwn, sess := false, l0 := true, secure := false, inLen := 1, body := 0 } st →
    exec (.quiesceChannel m channel) s = .next (s.reply m 0xC081 st []))
  ∧ (∀ (channel : Byte), s.turned m { op := 0xC082, roles := rBmcOwn, sess := false, l0 := true, secure := false, inLen := 1, body := 0 } st →
    exec (.rejoinChannel m channel) s = .next (s.reply m 0xC082 st []))
  ∧ (∀ (lock : Byte) (op : Byte), s.turned m { op := 0xC004, roles := rBmc, sess := false, l0 := false, secure := false, inLen := 2, body := 8 } st →
    exec (.lockCommand m lock op) s = .next (s.reply m 0xC004 st []))
  ∧ (s.turned m { op := 0xC000, roles := rAll, sess := false, l0 := false, secure := false, inLen := 0, body := 10 } st →
    exec (.getSlafinInfo m) s = .next (s.reply m 0xC000 st []))
  ∧ (∀ (version : W16), s.turned m { op := 0xC001, roles := rAll, sess := false, l0 := false, secure := false, inLen := 2, body := 2 } st →
    exec (.setSlafinVersion m version) s = .next (s.reply m 0xC001 st []))
  ∧ (∀ (hash : BitVec 384), s.turned m { op := 0xC002, roles := s.mayOwn, sess := false, l0 := false, secure := true, inLen := 48, body := 0 } st →
    exec (.setOwnerKey m hash) s = .next (s.reply m 0xC002 st []))
  ∧ (∀ (d : AwlDesc), s.turned m { op := 0xC063, roles := rBmcOwn, sess := false, l0 := true, secure := false, inLen := 32, body := 4 } st →
    exec (.awlArm m d) s = .next (s.reply m 0xC063 st []))
  ∧ (∀ (injection : W32), s.turned m { op := 0xC064, roles := rBmcOwn, sess := false, l0 := false, secure := false, inLen := 4, body := 0 } st →
    exec (.awlDisarm m injection) s = .next (s.reply m 0xC064 st []))
  ∧ (∀ (source : W16) (config : W64), s.turned m { op := 0xC060, roles := rBmcOwn, sess := false, l0 := false, secure := false, inLen := 16, body := 0 } st →
    exec (.setSource m source config) s = .next (s.reply m 0xC060 st []))
  ∧ (∀ (source : W16) (count : W16), s.turned m { op := 0xC061, roles := rBmcOwn, sess := false, l0 := false, secure := false, inLen := 4, body := 0 } st →
    exec (.clearSource m source count) s = .next (s.reply m 0xC061 st []))
  ∧ (∀ (first : W16) (max : W16), s.turned m { op := 0xC062, roles := rAll, sess := false, l0 := false, secure := false, inLen := 4, body := 8 } st →
    exec (.getSources m first max) s = .next (s.reply m 0xC062 st []))
  ∧ (∀ (cursor : W32) (max : W32), s.turned m { op := 0xC070, roles := rFmBmcOwn, sess := false, l0 := false, secure := false, inLen := 8, body := 8 } st →
    exec (.readInsole m cursor max) s = .next (s.reply m 0xC070 st []))
  ∧ (s.turned m { op := 0xC071, roles := rBmcOwn, sess := false, l0 := false, secure := false, inLen := 0, body := 0 } st →
    exec (.unfreezeInsole m) s = .next (s.reply m 0xC071 st []))
  ∧ (∀ (mask : Byte) (policy : W64) (watermark : W64) (rate : W64), s.turned m { op := 0xC010, roles := rBmcOwn, sess := false, l0 := false, secure := false, inLen := 32, body := 0 } st →
    exec (.setTierPolicy m mask policy watermark rate) s = .next (s.reply m 0xC010 st []))
  ∧ (∀ (ld : Byte) (poisonUnwritten : Byte) (devDpn : W32) (pages : W32), s.turned m { op := 0xC011, roles := rFm, sess := false, l0 := false, secure := false, inLen := 12, body := 0 } st →
    exec (.setRangeAttr m ld poisonUnwritten devDpn pages) s = .next (s.reply m 0xC011 st []))
  ∧ (∀ (devDpn : W32) (pages : W32) (owner : W16), s.turned m { op := 0xC012, roles := rFmOwn, sess := false, l0 := false, secure := false, inLen := 10, body := 0 } st →
    exec (.setPageOwner m devDpn pages owner) s = .next (s.reply m 0xC012 st []))
  ∧ (∀ (pages : W32), s.turned m { op := 0xC013, roles := rFmBmcOwn, sess := false, l0 := false, secure := false, inLen := 4, body := 0 } st →
    exec (.setHostCapacity m pages) s = .next (s.reply m 0xC013 st []))
  ∧ (s.turned m { op := 0xC0A0, roles := rAll, sess := false, l0 := false, secure := false, inLen := 0, body := 192 } st →
    exec (.getMarginReport m) s = .next (s.reply m 0xC0A0 st []))
  ∧ (∀ (keyId : W16) (flags : Byte) (ldMask : W32) (ckid : W16) (ld : Byte) (key : Key), s.turned m (keyGate 0xC090 80 0 rLdBmcOwn) st →
    exec (.programKey m keyId flags ldMask ckid ld key) s = .next (s.reply m 0xC090 st []))
  ∧ (∀ (keyId : W16), s.turned m (keyGate 0xC091 2 0 rLdBmcOwn) st →
    exec (.destroyKey m keyId) s = .next (s.reply m 0xC091 st []))
  ∧ (∀ (keyId : W16), s.turned m (keyGate 0xC092 2 16 rLdBmcOwn) st →
    exec (.queryKey m keyId) s = .next (s.reply m 0xC092 st []))
  ∧ (∀ (ld : Byte) (keyId : W16), s.turned m (keyGate 0xC093 4 0 rLdOwn) st →
    exec (.setDefaultKey m ld keyId) s = .next (s.reply m 0xC093 st []))
  ∧ (∀ (ld : Byte) (quota : W16), s.turned m (keyGate 0xC094 4 0 rFmOwn) st →
    exec (.setKeyQuota m ld quota) s = .next (s.reply m 0xC094 st []))
  ∧ (∀ (keyId : W16) (ldMask : W32), s.turned m (keyGate 0xC095 8 0 rOwn) st →
    exec (.grantShare m keyId ldMask) s = .next (s.reply m 0xC095 st []))
  ∧ (∀ (module : Byte) (rate : Byte) (half : Byte), s.turned m { op := 0xC084, roles := rBmcOwn, sess := false, l0 := true, secure := false, inLen := 3, body := 0 } st →
    exec (.setLacePoint m module rate half) s = .next (s.reply m 0xC084 st []))
  ∧ (∀ (sqBase : W64) (cqBase : W64) (pasid : W32) (log2 : Byte) (vector : W16) (coalCount : W16) (coalTime : W16) (index : BitVec 20), s.turned m { op := 0xC040, roles := rLd, sess := false, l0 := false, secure := false, inLen := 28, body := 4 } st →
    exec (.createQueue m sqBase cqBase pasid log2 vector coalCount coalTime index) s = .next (s.reply m 0xC040 st []))
  ∧ (∀ (q : W32), s.turned m { op := 0xC041, roles := rLd, sess := false, l0 := false, secure := false, inLen := 4, body := 0 } st →
    exec (.destroyQueue m q) s = .next (s.reply m 0xC041 st []))
  ∧ (∀ (q : W32) (vector : W16) (coalCount : W16) (coalTime : W16), s.turned m { op := 0xC042, roles := rLd, sess := false, l0 := false, secure := false, inLen := 10, body := 0 } st →
    exec (.setCoalesce m q vector coalCount coalTime) s = .next (s.reply m 0xC042 st []))
  ∧ (∀ (page : Byte) (mode : Byte) (pasid : W32), s.turned m { op := 0xC043, roles := rLd, sess := false, l0 := false, secure := false, inLen := 8, body := 0 } st →
    exec (.bindDoorbell m page mode pasid) s = .next (s.reply m 0xC043 st []))
  ∧ (∀ (ld : Byte) (weight : Byte) (quota : W32), s.turned m { op := 0xC044, roles := rFm, sess := false, l0 := false, secure := false, inLen := 8, body := 0 } st →
    exec (.setPoqShare m ld weight quota) s = .next (s.reply m 0xC044 st []))
  ∧ (∀ (head : Byte) (maxRate : Byte), s.turned m { op := 0xC0A1, roles := rBmcOwn, sess := false, l0 := false, secure := false, inLen := 2, body := 0 } st →
    exec (.setPortRate m head maxRate) s = .next (s.reply m 0xC0A1 st []))
  ∧ (∀ (capId : Byte) (ld : Byte) (offset : W16) (length : W32), s.turned m { op := 0xC003, roles := rBmcOwn, sess := false, l0 := false, secure := false, inLen := 8, body := if length.toNat ≤ 4096 then length.toNat else 0 } st →
    exec (.readRegisters m capId ld offset length) s = .next (s.reply m 0xC003 st []))
  ∧ (∀ (entries : List (Byte × W64)), s.turned m { op := 0xC050, roles := rFmBmcOwn, sess := false, l0 := false, secure := false, inLen := 8 + 16 * entries.length, body := 2 } st →
    exec (.setMasters m entries) s = .next (s.reply m 0xC050 st []))
  ∧ (∀ (policy : W64), s.turned m { op := 0xC051, roles := rBmcOwn, sess := false, l0 := false, secure := false, inLen := 8, body := 0 } st →
    exec (.setRegPolicy m policy) s = .next (s.reply m 0xC051 st []))
  ∧ (∀ (req : PriorityReq), s.turned m { op := 0xC030, roles := rLdBmcOwn, sess := false, l0 := false, secure := false, inLen := 32, body := 2 } st →
    exec (.restorePriority m req) s = .next (s.reply m 0xC030 st []))
  ∧ (∀ (cursor : W32) (max : W32), s.turned m { op := 0xC031, roles := rLdBmcOwn, sess := false, l0 := false, secure := false, inLen := 8, body := 16 } st →
    exec (.getLossList m cursor max) s = .next (s.reply m 0xC031 st []))
  ∧ (∀ (ld : Byte) (tag : BitVec 128), s.turned m { op := 0xC032, roles := rLdFm, sess := false, l0 := false, secure := false, inLen := 32, body := 0 } st →
    exec (.reofferExtent m ld tag) s = .next (s.reply m 0xC032 st []))
  ∧ (∀ (policy : W64), s.turned m { op := 0xC033, roles := rBmcOwn, sess := false, l0 := false, secure := false, inLen := 8, body := 0 } st →
    exec (.setRestorePolicy m policy) s = .next (s.reply m 0xC033 st []))
  ∧ (∀ (f : ImageFound), s.turned m { op := 0xC034, roles := rBmcOwn, sess := false, l0 := false, secure := false, inLen := 0, body := 1 } st →
    exec (.retryRestore m f) s = .next (s.reply m 0xC034 st []))
  ∧ (∀ (drive : Byte) (confirm : Byte), s.turned m { op := 0xC0C0, roles := rBmcOwn, sess := false, l0 := true, secure := false, inLen := 2, body := 0 } st →
    exec (.driveRelease m drive confirm) s = .next (s.reply m 0xC0C0 st []))
  ∧ (∀ (drive : Byte), s.turned m { op := 0xC0C1, roles := rBmcOwn, sess := false, l0 := true, secure := false, inLen := 1, body := 0 } st →
    exec (.driveRemove m drive) s = .next (s.reply m 0xC0C1 st []))
  ∧ (∀ (policy : W64), s.turned m { op := 0xC020, roles := rBmcOwn, sess := false, l0 := false, secure := false, inLen := 8, body := 0 } st →
    exec (.setShadowPolicy m policy) s = .next (s.reply m 0xC020 st []))
  ∧ (∀ (region : Byte) (durable : Byte), s.turned m { op := 0xC021, roles := rFmOwn, sess := false, l0 := false, secure := false, inLen := 2, body := 0 } st →
    exec (.setRegionDurable m region durable) s = .next (s.reply m 0xC021 st []))
  ∧ (∀ (policy : W64), s.turned m { op := 0xC080, roles := rBmcOwn, sess := false, l0 := true, secure := false, inLen := 8, body := 0 } st →
    exec (.setWeltPolicy m policy) s = .next (s.reply m 0xC080 st []))
  ∧ (∀ (channel : Byte) (cursor : W32) (max : W32), s.turned m { op := 0xC085, roles := rFmBmcOwn, sess := false, l0 := false, secure := false, inLen := 12, body := 8 } st →
    exec (.getRepairTable m channel cursor max) s = .next (s.reply m 0xC085 st []))
  ∧ (∀ (dpa : W64), s.turned m { op := 0xC0B0, roles := rBmcOwn, sess := false, l0 := false, secure := false, inLen := 8, body := 1 } st →
    exec (.compatRemap m dpa) s = .next (s.reply m 0xC0B0 st []))
  ∧ (∀ (entry : Byte), s.turned m { op := 0xC0B1, roles := rBmcOwn, sess := false, l0 := false, secure := false, inLen := 1, body := 0 } st →
    exec (.compatClear m entry) s = .next (s.reply m 0xC0B1 st []))
  ∧ (s.turned m { op := 0xC0B2, roles := rFmBmcOwn, sess := false, l0 := false, secure := false, inLen := 0, body := 128 } st →
    exec (.compatList m) s = .next (s.reply m 0xC0B2 st [])))
  ∧ (∀ (s : State) (m : Msg) (op : Nat) (st : W16) (body : List Byte), (∀ ld ch tag, m.path ≠ .eyelet ld ch tag) →
  s.reply m op st body = s.emit (.slafin m st (if st = stOk then body else []))
  ∧ (∀ (code : W16) (b : List Nat), s.respStd m op code b = s.emit (.resp m code b)))

/-- For every command and state, a step with the command at the front of the queue is the command on the state with the rest of the queue. On an empty
queue device time moves and what waits for requests to end is looked at; the queue is the model's own, and that is its choice (DESIGN CHOICE, log 10).
-/
def Obligations.StepRunsTheFront : Prop :=  (∀ (c : Instr) (rest : List Instr) (s : State), s.pending = c :: rest → step s = exec c { s with pending := rest })
  ∧ ∀ s : State, s.pending = [] → step s = .next s.passTime.settleRemovals.settleLines

/-- Frame: no command touches the queue or the part, and no command but those that set a policy or a quota and those that lose the settings (a cold
reset, a fall of PWRGOOD, a loss of the always-on supply, an RMA request) changes a setting. (R61, R161, R248, R271, R287, R110, R426) -/
def Obligations.SettingsOnlyByTheirCommands : Prop := ∀ (c : Instr) (s t : State), exec c s = .next t →
  t.pending = s.pending ∧ t.ev8820 = s.ev8820
    ∧ match c with
      | .setTierPolicy .. | .setWeltPolicy .. | .setShadowPolicy .. | .setRestorePolicy .. | .setRegPolicy .. | .setKeyQuota .. | .coldReset ..
      | .pwrgoodFall | .aonSupplyLoss | .vendorDefinedRequest .. => True
      | _ => t.settings = s.settings

/-- Invariant: from every state whose settings lie inside their limits, a step that answers a next state leaves them inside. A policy command refuses
a field outside its limits before it changes anything. (R61, R161, R248, R271, R287, R110) -/
def Obligations.SettingsStayInTheirLimits : Prop := ∀ s t : State, s.settings.ok → step s = .next t → t.settings.ok

/-- The invariant of the settings holds at reset. (R61, R161, R248, R271, R287, R110) -/
def Obligations.SettingsOfResetAreLegal : Prop := State.reset.settings.ok

/-- Read through the capability entries of any LD: TIER_POLICY, TIER_WATERMARK, TIER_RATE, CODEC_INFO, WELT_INFO, WELT_POLICY, DDR_CHc_CONTROL and
DDR_CHc_STATUS, SHADOW_POLICY, SHADOW_WINDOW, RESTORE_POLICY, REG_POLICY, POQ_INFO, POQ_LD, EYELET_INFO, EVENT_RING, EVENT_CTRL, INSOLE_EXPORT,
AGE_STATUS and PWR_STATUS. -/
def Obligations.RegistersAtReset : Prop := ∀ (ld : Fin 32) (ch : Fin 12),
  State.reset.capReg ld.val 1 0x10 = put 0 3 3 ||| put 8 8 4 ||| put 16 16 1000 ||| put 32 8 0x10 ||| put 40 6 8
  ∧ State.reset.capReg ld.val 1 0x18 = put 0 10 8 ||| put 10 10 4 ||| put 20 10 2 ||| put 30 10 1 ||| put 40 10 500
  ∧ State.reset.capReg ld.val 1 0x20 = put 0 16 16 ||| put 16 16 100
  ∧ State.reset.capReg ld.val 2 0x10 = put 0 4 1 ||| put 8 8 8 ||| put 16 8 16 ||| put 24 8 2 ||| put 32 4 9
  ∧ State.reset.capReg ld.val 3 0x10 = put 0 4 12 ||| put 4 8 24 ||| put 12 4 4 ||| put 16 16 16384 ||| put 32 8 8
  ∧ State.reset.capReg ld.val 3 0x18 = put 0 5 7 ||| put 5 7 30 ||| put 12 7 25 ||| put 32 16 32 ||| put 48 16 256
  ∧ State.reset.capReg ld.val 3 (0x108 + 0x40 * ch.val) = put 0 3 7 ||| put 8 8 4 ||| put 16 16 2048 ||| put 32 16 4096 ||| put 48 16 7200
  ∧ State.reset.capReg ld.val 3 (0x110 + 0x40 * ch.val) = put 0 3 4
  ∧ State.reset.capReg ld.val 4 0x10 = put 0 14 100 ||| put 14 4 10 ||| put 18 7 80 ||| put 32 8 24 ||| put 48 16 8
  ∧ State.reset.capReg ld.val 4 0x18 = put 0 16 128 ||| put 16 16 102
  ∧ State.reset.capReg ld.val 4 0x98 = put 0 6 50 ||| put 8 8 60
  ∧ State.reset.capReg ld.val 7 0x10 = put 0 7 70 ||| put 7 7 90 ||| put 14 8 8
  ∧ State.reset.capReg ld.val 5 0x10 = put 0 21 1048576 ||| put 32 14 8192 ||| put 46 9 256 ||| put 55 5 16 ||| put 60 4 1
  ∧ State.reset.capReg ld.val 5 0x18 = put 0 21 32768 ||| put 42 8 16
  ∧ State.reset.capReg ld.val 6 0x10 = put 0 8 16 ||| put 8 4 8 ||| put 16 16 1
  ∧ State.reset.capReg ld.val 6 0x18 = put 0 4 4
  ∧ State.reset.capReg ld.val 6 0x20 = put 0 16 0xFFFF
  ∧ State.reset.capReg ld.val 9 0x20 = put 0 4 4
  ∧ State.reset.capReg ld.val 10 0x10 = put 0 11 950
  ∧ State.reset.capReg ld.val 10 0x20 = put 0 2 3

/-- A chunk of 1,024 bytes, stored in any of its forms at any level, poisoned or not, decodes to itself: COUNT and the granules of its bin hold all of
it. (R75, R78, R80, R81, R82, R83, R84, R85) -/
def Obligations.StoredChunksDecode : Prop := ∀ (level : Nat) (poison : Bool) (bs : List Byte), bs.length = 1024 →
  decodeStored ((formOf level poison bs).stored level bs).1 ((formOf level poison bs).stored level bs).2 = some bs

/-- The frame of a chunk outside bins, followed by anything, reads back as the chunk and leaves what follows. (R79, R76, R82) -/
def Obligations.FramesDecode : Prop := ∀ (level : Nat) (poison : Bool) (bs rest : List Byte), bs.length = 1024 →
  readFrame ((formOf level poison bs).frame level bs ++ rest) = .ok bs rest

/-- The CRC of a byte string is that of the polynomial 0x1EDC6F41 with each byte and the result reflected, from the initial value of all ones and with
a final XOR of all ones; the nine bytes 123456789 give 0xE3069283; a chunk header holds it in its last four bytes, low byte first. (R77) -/
def Obligations.ChunkCrc : Prop :=  (∀ bs : List Byte, crc32c bs = (bs.foldl (fun r b => crcByteMsb 0x1EDC6F41 r b.reverse) (0xFFFFFFFF : W32)).reverse ^^^ 0xFFFFFFFF)
  ∧ crc32c [0x31, 0x32, 0x33, 0x34, 0x35, 0x36, 0x37, 0x38, 0x39] = 0xE3069283
  ∧ ∀ (mode : CMode) (level len : Nat) (bs : List Byte), (headerOf mode level len bs).bytes.drop 4 =
    [(crc32c bs).extractLsb' 0 8, (crc32c bs).extractLsb' 8 8, (crc32c bs).extractLsb' 16 8, (crc32c bs).extractLsb' 24 8]

/-- For any number of channels from two up, the k-th data frame of a channel lies in that channel, is no parity frame and has place k; every frame
that is no parity frame is the one its channel and place name; and the order over all data frames names each data frame once. (R28, R40) -/
def Obligations.FrameOrders : Prop := ∀ w : Nat, 2 ≤ w →
  (∀ c k : Nat, c < w → channelOf w (dataFrame w c k) = c ∧ isParity w (dataFrame w c k) = false ∧ channelIndex w (dataFrame w c k) = k)
  ∧ (∀ n : Nat, isParity w (dataAt w n) = false ∧ dataIndex w (dataAt w n) = n)
  ∧ ∀ f : Nat, isParity w f = false → dataFrame w (channelOf w f) (channelIndex w f) = f ∧ dataAt w (dataIndex w f) = f

/-- Whatever the cipher does with a block (its permutation is a free value: log 12), decryption of a line undoes its encryption, and encryption its
decryption. (R97, R100) -/
def Obligations.CipherLosesNothing : Prop := ∀ (k : Key) (seq b0 : Nat) (x : Line),
  decLine k seq b0 (encLine k seq b0 x) = x ∧ encLine k seq b0 (decLine k seq b0 x) = x

/-- A line of DRAM reads as it was stored, with its side bits; every other line stays; both tables of DRAM keep their canonical form, which they have
at reset. (R123) -/
def Obligations.LinesReadAsStored : Prop := ∀ (s : State) (f : Nat) (line : Fin 64) (r : Raw),
  (s.setRaw f line.val r).rawLine f line.val = r
  ∧ (∀ (g : Nat) (k : Fin 64), ¬(g = f ∧ k = line) → (s.setRaw f line.val r).rawLine g k.val = s.rawLine g k.val)
  ∧ (s.memOk = true → (s.setRaw f line.val r).memOk = true)
  ∧ State.reset.memOk = true

/-- A line that is formed with its side bits passes the check at its place, and one wrong bit of the data, of BPAR or of LCRC fails it. (R123, R124,
R126) -/
def Obligations.OneWrongBitFails : Prop := ∀ (d : Line) (p : Nat) (m : W16), [0, 2, 3, 4].contains (metaKind m) = true →
  checkData (freshRaw d p m) p = true
  ∧ (∀ i : Fin 512, checkData { freshRaw d p m with data := d ^^^ (1#512 <<< i.val) } p = false)
  ∧ ∀ i : Fin 112, checkData { freshRaw d p m with side := (freshRaw d p m).side ^^^ (1#128 <<< i.val) } p = false

/-- Where the parity line of a line is in use, a write of a data member makes its data old parity XOR old data XOR new data, and its BPAR and LCRC
take the same delta of the member's. (R133) -/
def Obligations.ParityTakesTheDelta : Prop := ∀ (s : State) (g : Nat) (line : Fin 64) (p old new : Raw), g < 2 ^ 28 → s.parityLine g line.val = some p →
  ∃ q, (s.deltaParity g line.val (xorRaw old new)).parityLine g line.val = some q
    ∧ q.data = p.data ^^^ old.data ^^^ new.data
    ∧ sideBpar q.side = sideBpar p.side ^^^ sideBpar old.side ^^^ sideBpar new.side
    ∧ sideLcrc q.side = sideLcrc p.side ^^^ sideLcrc old.side ^^^ sideLcrc new.side

/-- An event raises COUNT by one up to 16,777,215 and sets LAST_TIME. Without ESC_N nothing else changes; with it the event opens a window where none
is open or the window is over, and the event that makes WIN_COUNT equal ESC_N closes the count and raises the class by one where it lies below
ESC_LIMIT. (R395, R394) -/
def Obligations.EventsAreCounted : Prop := ∀ (x : Source) (tick now n : Nat),
  n = (if x.winCount = 0 ∨ tick - x.winStart ≥ x.escW then 1 else x.winCount + 1) →
  (countSource x tick now).1.count = min (x.count + 1) 16777215
  ∧ (countSource x tick now).1.lastTime = now
  ∧ (x.escN = 0 → countSource x tick now = ({ x with count := min (x.count + 1) 16777215, lastTime := now }, false))
  ∧ (x.escN ≠ 0 → (countSource x tick now).1.winCount = (if n = x.escN then 0 else n)
    ∧ (countSource x tick now).1.winStart = (if x.winCount = 0 ∨ tick - x.winStart ≥ x.escW then tick else x.winStart)
    ∧ (countSource x tick now).1.cls = (if n = x.escN ∧ x.cls.code < x.escLimit then x.cls.up else x.cls)
    ∧ (countSource x tick now).2 = (decide (n = x.escN) && decide (x.cls.code < x.escLimit)))
  ∧ (countSource x tick now).1.sticky = x.sticky ∧ (countSource x tick now).1.inj = x.inj ∧ (countSource x tick now).1.escN = x.escN
  ∧ (countSource x tick now).1.notify = x.notify ∧ (countSource x tick now).1.fence = x.fence

/-- A number without source never fires, it reads as zero, and a write of its configuration is answered and ignored. Each event is counted with a
class that starts from the one its cause states, or else from the base class of its source. (R390) -/
def Obligations.UnassignedSourcesAreSilent : Prop :=  (∀ (e : Ev) (s : State), baseClass e.source = none → raise e s = s)
  ∧ (∀ (n : Nat) (s : State), baseClass n = none → s.sourceBytes n = zeros 16)
  ∧ (∀ (s : State) (m : Msg) (n : W16) (config : W64), baseClass n.toNat = none → n.toNat < 2048 →
    s.runs m { op := 0xC060, roles := rBmcOwn, sess := false, l0 := false, secure := false, inLen := 16, body := 0 } →
    exec (.setSource m n config) s = .next (s.reply m 0xC060 stOk []))
  ∧ (∀ (e : Ev) (s : State), baseClass e.source ≠ none → (countEvent e s).1.cls = Class.max (e.cls.getD (baseOf e.source)) (countEvent e s).1.after)

/-- A restart makes M the SHA-384 of M, the digest of the image loaded, the cause as one byte and the new restart count as four bytes, low byte first;
M is zero at reset and after a cold reset, and a warm reset keeps it. (R377) -/
def Obligations.RestartMeasurement : Prop :=  (∀ (s : State) (b : Bool), (s.extendM b).world.restarts = s.world.restarts + 1
    ∧ (s.extendM b).world.m =
        Config.sha384 (leBytes 48 s.world.m ++ leBytes 48 (s.secureDigest b) ++ leNat 1 s.world.cause ++ leBytes 4 (s.world.restarts + 1))
    ∧ (s.extendM b).settings = s.settings)
  ∧ State.reset.world.m = 0 ∧ (∀ s : State, s.coldLoss.world.m = 0 ∧ s.warmLoss.world.m = s.world.m)

/-- A bring-up with two modules in one slot, more than 8 GPIO entries or not one slack for each of the 17 core targets, and BYPASS by a code that
names another instruction, stop by name; every other command answers a next state in every state. (R388) -/
def Obligations.OnlyIllFormedStops : Prop := ∀ (c : Instr) (s : State),
  (match c with
    | .coldReset b => b.wf = false
    | .resetNRelease b => b.wf = false
    | .bypass code => tapCodes.contains code = true
    | _ => False) ∧ exec c s = .fault .illFormed
  ∨ ∃ t, exec c s = .next t
end

