-- ==== Sys2Proof/Laws/Tab.lean ====
section
/-! SUPPORT. The laws of sparse tables and of DRAM: a read after a write, the writes that leave a key alone, and the canonical form, which every
write keeps. -/

namespace Sys2Proof.Machine

section
variable {β : Type} [DecidableEq β] (d : Nat → β)

theorem Tab.wfFrom_mono {lo hi : Nat} (t : Tab β) (h : lo ≤ hi) (hw : Tab.wfFrom d hi t = true) : Tab.wfFrom d lo t = true := by
  cases t with
  | nil => rfl
  | cons p r =>
    simp only [Tab.wfFrom, Bool.and_eq_true, decide_eq_true_eq] at hw ⊢
    exact ⟨⟨by omega, hw.1.2⟩, hw.2⟩

theorem Tab.wfFrom_filter {lo : Nat} (k : Nat) (t : Tab β) (hw : Tab.wfFrom d lo t = true) :
    Tab.wfFrom d lo (t.filter fun p => decide (p.1 ≠ k)) = true := by
  induction t generalizing lo with
  | nil => exact hw
  | cons p r ih =>
    simp only [Tab.wfFrom, Bool.and_eq_true, decide_eq_true_eq] at hw
    rw [List.filter_cons]
    split
    · simp only [Tab.wfFrom, Bool.and_eq_true, decide_eq_true_eq]
      exact ⟨hw.1, ih hw.2⟩
    · exact Tab.wfFrom_mono d _ (by omega) (ih hw.2)

theorem Tab.wfFrom_insert {lo k : Nat} (v : β) (t : Tab β) (h : lo ≤ k) (hv : v ≠ d k) (hk : ∀ p ∈ t, p.1 ≠ k)
    (hw : Tab.wfFrom d lo t = true) : Tab.wfFrom d lo (Tab.insert k v t) = true := by
  induction t generalizing lo with
  | nil =>
    simp only [Tab.insert, Tab.wfFrom, Bool.and_eq_true, decide_eq_true_eq]
    exact ⟨⟨h, hv⟩, trivial⟩
  | cons p r ih =>
    obtain ⟨a, x⟩ := p
    simp only [Tab.wfFrom, Bool.and_eq_true, decide_eq_true_eq] at hw
    unfold Tab.insert
    have hne : a ≠ k := hk (a, x) List.mem_cons_self
    split
    · simp only [Tab.wfFrom, Bool.and_eq_true, decide_eq_true_eq]
      exact ⟨⟨h, hv⟩, ⟨by omega, hw.1.2⟩, hw.2⟩
    · simp only [Tab.wfFrom, Bool.and_eq_true, decide_eq_true_eq]
      exact ⟨hw.1, ih (by omega) (fun q hq => hk q (List.mem_cons_of_mem _ hq)) hw.2⟩

/-- A write keeps the canonical form. -/
theorem Tab.wf_set (k : Nat) (v : β) (t : Tab β) (h : Tab.wf d t = true) : Tab.wf d (Tab.set d k v t) = true := by
  unfold Tab.set
  split
  · exact Tab.wfFrom_filter d k t h
  · rename_i hv
    refine Tab.wfFrom_insert d v _ (Nat.zero_le _) hv ?_ (Tab.wfFrom_filter d k t h)
    intro p hp
    exact of_decide_eq_true (List.mem_filter.mp hp).2

omit [DecidableEq β] in
theorem Tab.get_filter (k j : Nat) (t : Tab β) :
    Tab.get d (t.filter fun p => decide (p.1 ≠ k)) j = if j = k then d k else Tab.get d t j := by
  induction t with
  | nil => simp only [List.filter_nil, Tab.get]; split <;> simp_all
  | cons p r ih =>
    obtain ⟨a, x⟩ := p
    rw [List.filter_cons]
    by_cases ha : a = k
    · subst ha
      rw [if_neg (by simp), ih]
      by_cases hj : j = a
      · rw [if_pos hj, if_pos hj]
      · rw [if_neg hj, if_neg hj, Tab.get, if_neg (Ne.symm hj)]
    · rw [if_pos (by simpa using ha), Tab.get, Tab.get, ih]
      by_cases hj : j = k
      · subst hj; rw [if_neg ha, if_pos rfl]; simp
      · rw [if_neg hj, if_neg hj]

omit [DecidableEq β] in
theorem Tab.get_insert (k j : Nat) (v : β) (t : Tab β) (hk : ∀ p ∈ t, p.1 ≠ k) :
    Tab.get d (Tab.insert k v t) j = if j = k then v else Tab.get d t j := by
  induction t with
  | nil =>
    simp only [Tab.insert, Tab.get]
    by_cases hj : j = k
    · rw [if_pos hj.symm, if_pos hj]
    · rw [if_neg (Ne.symm hj), if_neg hj]
  | cons p r ih =>
    obtain ⟨a, x⟩ := p
    have hne : a ≠ k := hk (a, x) List.mem_cons_self
    unfold Tab.insert
    split
    · by_cases hj : j = k
      · subst hj; simp [Tab.get]
      · rw [if_neg hj, Tab.get, if_neg (Ne.symm hj)]
    · simp only [Tab.get]
      rw [ih fun q hq => hk q (List.mem_cons_of_mem _ hq)]
      by_cases hj : j = k
      · subst hj; rw [if_neg hne, if_pos rfl]; simp
      · rw [if_neg hj, if_neg hj]

/-- A read after a write. -/
theorem Tab.get_set (k j : Nat) (v : β) (t : Tab β) : Tab.get d (Tab.set d k v t) j = if j = k then v else Tab.get d t j := by
  unfold Tab.set
  split
  · rename_i hv; rw [Tab.get_filter, hv]
  · rw [Tab.get_insert d k j v _ (fun p hp => of_decide_eq_true (List.mem_filter.mp hp).2), Tab.get_filter]
    split <;> rfl

end

/-! ### DRAM -/

/-- Every line write keeps the canonical form. -/
theorem Memory.wf_memLineSet (m : List Host.Cell) (a : Nat) (x : Line) (h : Memory.wf m = true) : Memory.wf (memLineSet m a x) = true := by
  unfold memLineSet
  generalize List.range 64 = l
  induction l generalizing m with
  | nil => exact h
  | cons i r ih => exact ih _ (Tab.wf_set dramByte _ _ _ h)

/-- A line write leaves every byte outside its 64 alone. -/
theorem memLineSet_other (m : List Host.Cell) (a : Nat) (x : Line) (j : Nat) (hj : j < a ∨ a + 64 ≤ j) :
    Tab.get dramByte (memLineSet m a x) j = Tab.get dramByte m j := by
  have key : ∀ (l : List Nat) (m : List Host.Cell), (∀ i ∈ l, j ≠ a + i) →
      Tab.get dramByte (l.foldl (fun m i => Tab.set dramByte (a + i) (byteAt x i) m) m) j = Tab.get dramByte m j := by
    intro l
    induction l with
    | nil => intro m _; rfl
    | cons i r ih =>
      intro m h
      rw [List.foldl_cons, ih _ (fun k hk => h k (List.mem_cons_of_mem _ hk)), Tab.get_set]
      exact if_neg (h i List.mem_cons_self)
  refine key _ m ?_
  intro i hi
  have := List.mem_range.mp hi
  omega

theorem memLineSet_at (n : Nat) (m : List Host.Cell) (a : Nat) (x : Line) (i : Nat) (hi : i < n) :
    Tab.get dramByte ((List.range n).foldl (fun m i => Tab.set dramByte (a + i) (byteAt x i) m) m) (a + i) = byteAt x i := by
  induction n with
  | zero => omega
  | succ n ih =>
    rw [List.range_succ, List.foldl_append, List.foldl_cons, List.foldl_nil, Tab.get_set]
    by_cases he : i = n
    · subst he; rw [if_pos rfl]
    · rw [if_neg (by omega)]; exact ih (by omega)

/-- A byte of a line reads as it was written. -/
theorem memLineSet_same (m : List Host.Cell) (a : Nat) (x : Line) (i : Nat) (hi : i < 64) :
    Tab.get dramByte (memLineSet m a x) (a + i) = byteAt x i := memLineSet_at 64 m a x i hi

/-- Storing a line keeps both tables of DRAM canonical. -/
theorem State.memOk_setRaw (s : State) (f line : Nat) (r : Raw) (h : s.memOk = true) : (s.setRaw f line r).memOk = true := by
  unfold State.memOk at h ⊢
  rw [Bool.and_eq_true] at h ⊢
  have e1 : (s.setRaw f line r).dram.data = memLineSet s.dram.data (f * 4096 + line * 64) r.data := by unfold State.setRaw State.mapDram; with_reducible rfl
  have e2 : (s.setRaw f line r).dram.side = Tab.set (sideDefault s.w) (pla f line) r.side s.dram.side := by unfold State.setRaw State.mapDram; with_reducible rfl
  have e3 : (s.setRaw f line r).w = s.w := by unfold State.setRaw State.mapDram State.w; with_reducible rfl
  rw [e1, e2, e3]
  exact And.intro (Memory.wf_memLineSet s.dram.data (f * 4096 + line * 64) r.data h.1) (Tab.wf_set (sideDefault s.w) (pla f line) r.side s.dram.side h.2)

end Sys2Proof.Machine
end

