-- ==== Sys2Proof/Laws/Access.lean ====
section
/-! SUPPORT. A read of one entry of a table of State after a write of one entry, table by table; a line of DRAM after a line is stored. -/

namespace Sys2Proof.Machine

theorem State.src_setSrc (s : State) (k j : Nat) (v : Source) : (s.setSrc k v).src j = if j = k then v else s.src j := Tab.get_set ..
theorem State.chan_setChan (s : State) (k j : Nat) (v : Chan) : (s.setChan k v).chan j = if j = k then v else s.chan j := Tab.get_set ..
theorem State.laceMod_setLaceMod (s : State) (k j : Nat) (v : LaceMod) : (s.setLaceMod k v).laceMod j = if j = k then v else s.laceMod j := Tab.get_set ..
theorem State.drive_setDrive (s : State) (k j : Nat) (v : Drive) : (s.setDrive k v).drive j = if j = k then v else s.drive j := Tab.get_set ..
theorem State.master_setMaster (s : State) (k j : Nat) (v : Master) : (s.setMaster k v).master j = if j = k then v else s.master j := Tab.get_set ..
theorem State.headOf_setHeadOf (s : State) (k j : Nat) (v : Head) : (s.setHeadOf k v).headOf j = if j = k then v else s.headOf j := Tab.get_set ..
theorem State.fn_setFn (s : State) (k j : Nat) (v : Func) : (s.setFn k v).fn j = if j = k then v else s.fn j := Tab.get_set ..
theorem State.ctx_setCtx (s : State) (k j : Nat) (v : Option QueueCtx) : (s.setCtx k v).ctx j = if j = k then v else s.ctx j := Tab.get_set ..
theorem State.poqLd_setPoqLd (s : State) (k j : Nat) (v : PoqLd) : (s.setPoqLd k v).poqLd j = if j = k then v else s.poqLd j := Tab.get_set ..
theorem State.eye_setEye (s : State) (k j : Nat) (v : EyeCh) : (s.setEye k v).eye j = if j = k then v else s.eye j := Tab.get_set ..
theorem State.cmdLd_setCmdLd (s : State) (k j : Nat) (v : CmdLd) : (s.setCmdLd k v).cmdLd j = if j = k then v else s.cmdLd j := Tab.get_set ..
theorem State.lock_setLock (s : State) (k j : Nat) (v : Lock) : (s.setLock k v).lock j = if j = k then v else s.lock j := Tab.get_set ..
theorem State.region_setRegion (s : State) (k j : Nat) (v : DcRegion) : (s.setRegion k v).region j = if j = k then v else s.region j := Tab.get_set ..
theorem State.log_setLog (s : State) (k j : Nat) (v : List (Nat × Nat)) : (s.setLog k v).log j = if j = k then v else s.log j := Tab.get_set ..
theorem State.slot_setSlot (s : State) (k j : Nat) (v : KeySlot) : (s.setSlot k v).slot j = if j = k then v else s.slot j := Tab.get_set ..
theorem State.defKey_setDefKey (s : State) (k j : Nat) (v : BitVec 12) : (s.setDefKey k v).defKey j = if j = k then v else s.defKey j := Tab.get_set ..
theorem State.tspOf_setTspOf (s : State) (k j : Nat) (v : Tsp) : (s.setTspOf k v).tspOf j = if j = k then v else s.tspOf j := Tab.get_set ..
theorem State.keyQuota_setKeyQuota (s : State) (k j : Nat) (v : Nat) : (s.setKeyQuota k v).keyQuota j = if j = k then v else s.keyQuota j := Tab.get_set ..
theorem State.ideStream_setIdeStream (s : State) (k j : Nat) (v : IdeStream) : (s.setIdeStream k v).ideStream j = if j = k then v else s.ideStream j := Tab.get_set ..
theorem State.l2Line_setL2 (s : State) (k j : Nat) (v : Option L2Line) : (s.setL2 k v).l2Line j = if j = k then v else s.l2Line j := Tab.get_set ..
theorem State.map_setMap (s : State) (k j : Nat) (v : List MapEntry) : (s.setMap k v).map j = if j = k then v else s.map j := Tab.get_set ..

/-! The frame records: what an unlisted one reads as depends on the layout of the device, which no record changes. -/

theorem State.groups_mapLast (s : State) (f : Last → Last) : (s.mapLast f).groups = s.groups := rfl
theorem State.w_mapLast (s : State) (f : Last → Last) : (s.mapLast f).w = s.w := rfl
theorem State.metaLow_mapLast (s : State) (f : Last → Last) (h : (f s.last).hostPages = s.last.hostPages) : (s.mapLast f).metaLow = s.metaLow := by
  unfold State.metaLow State.gMeta State.rawFrames
  rw [State.groups_mapLast]
  show _ - (metaGroups s.w (s.groups * s.w) (f s.last).hostPages + _) = _
  rw [h]
theorem State.poolGroups_mapLast (s : State) (f : Last → Last) (h : (f s.last).hostPages = s.last.hostPages) : (s.mapLast f).poolGroups = s.poolGroups := by
  unfold State.poolGroups State.gMeta State.rawFrames
  rw [State.groups_mapLast]
  show _ - (metaGroups s.w (s.groups * s.w) (f s.last).hostPages + _) - s.welt.spareFrames / (s.w - 1) = _
  rw [h]
theorem State.frameDefault_setFrameRec (s : State) (k : Nat) (v : FrameRec) : (s.setFrameRec k v).frameDefault = s.frameDefault := by
  unfold State.setFrameRec State.frameDefault
  rw [State.groups_mapLast, State.poolGroups_mapLast _ _ rfl, State.metaLow_mapLast _ _ rfl, State.w_mapLast]

theorem State.frameRec_setFrameRec (s : State) (k j : Nat) (v : FrameRec) : (s.setFrameRec k v).frameRec j = if j = k then v else s.frameRec j := by
  unfold State.frameRec
  rw [State.frameDefault_setFrameRec]
  exact Tab.get_set ..
theorem State.tableEntry_setTableEntry (s : State) (k j : Nat) (v : LastEntry) : (s.setTableEntry k v).tableEntry j = if j = k then v else s.tableEntry j := Tab.get_set ..
theorem State.cacheSet_setCacheSet (s : State) (k j : Nat) (v : CacheSet) : (s.setCacheSet k v).cacheSet j = if j = k then v else s.cacheSet j := Tab.get_set ..
theorem State.tracker_setTracker (s : State) (k j : Nat) (v : Option Tracker) : (s.setTracker k v).tracker j = if j = k then v else s.tracker j := Tab.get_set ..
theorem State.bucket_setBucket (s : State) (k j : Nat) (v : List Dpn) : (s.setBucket k v).bucket j = if j = k then v else s.bucket j := Tab.get_set ..
theorem State.unit_setUnit (s : State) (k j : Nat) (v : Option UnitSlot) : (s.setUnit k v).unit j = if j = k then v else s.unit j := Tab.get_set ..
theorem State.row_setRow (s : State) (k j : Nat) (v : RowEntry) : (s.setRow k v).row j = if j = k then v else s.row j := Tab.get_set ..
theorem State.compat_setCompat (s : State) (k j : Nat) (v : Option Compat) : (s.setCompat k v).compat j = if j = k then v else s.compat j := Tab.get_set ..
theorem State.core_setCore (s : State) (k j : Nat) (v : Bool × Nat × Option Nat) : (s.setCore k v).core j = if j = k then v else s.core j := Tab.get_set ..
theorem State.pageOwner_setPageOwner (s : State) (k j : Nat) (v : PageOwner) : (s.setPageOwner k v).pageOwner j = if j = k then v else s.pageOwner j := Tab.get_set ..
theorem State.sessionOf_setSessionOf (s : State) (k j : Nat) (v : Option Session) : (s.setSessionOf k v).sessionOf j = if j = k then v else s.sessionOf j := Tab.get_set ..
theorem State.gate_setGate (s : State) (k j : Nat) (v : Bool) : (s.setGate k v).gate j = if j = k then v else s.gate j := Tab.get_set ..
theorem State.perfFn_setPerfFn (s : State) (k j : Nat) (v : PerfFn) : (s.setPerfFn k v).perfFn j = if j = k then v else s.perfFn j := Tab.get_set ..
theorem State.sampler_setSampler (s : State) (k j : Nat) (v : Sampler) : (s.setSampler k v).sampler j = if j = k then v else s.sampler j := Tab.get_set ..
theorem State.inj_setInj (s : State) (k j : Nat) (v : Option Injection) : (s.setInj k v).inj j = if j = k then v else s.inj j := Tab.get_set ..

theorem State.src_updSrc (s : State) (k j : Nat) (f : Source → Source) : (s.updSrc k f).src j = if j = k then f (s.src k) else s.src j :=
  Tab.get_set ..
theorem State.chan_updChan (s : State) (k j : Nat) (f : Chan → Chan) : (s.updChan k f).chan j = if j = k then f (s.chan k) else s.chan j :=
  Tab.get_set ..
theorem State.laceMod_updLaceMod (s : State) (k j : Nat) (f : LaceMod → LaceMod) : (s.updLaceMod k f).laceMod j = if j = k then f (s.laceMod k) else s.laceMod j :=
  Tab.get_set ..
theorem State.drive_updDrive (s : State) (k j : Nat) (f : Drive → Drive) : (s.updDrive k f).drive j = if j = k then f (s.drive k) else s.drive j :=
  Tab.get_set ..
theorem State.master_updMaster (s : State) (k j : Nat) (f : Master → Master) : (s.updMaster k f).master j = if j = k then f (s.master k) else s.master j :=
  Tab.get_set ..
theorem State.headOf_updHeadOf (s : State) (k j : Nat) (f : Head → Head) : (s.updHeadOf k f).headOf j = if j = k then f (s.headOf k) else s.headOf j :=
  Tab.get_set ..
theorem State.fn_updFn (s : State) (k j : Nat) (f : Func → Func) : (s.updFn k f).fn j = if j = k then f (s.fn k) else s.fn j :=
  Tab.get_set ..
theorem State.poqLd_updPoqLd (s : State) (k j : Nat) (f : PoqLd → PoqLd) : (s.updPoqLd k f).poqLd j = if j = k then f (s.poqLd k) else s.poqLd j :=
  Tab.get_set ..
theorem State.eye_updEye (s : State) (k j : Nat) (f : EyeCh → EyeCh) : (s.updEye k f).eye j = if j = k then f (s.eye k) else s.eye j :=
  Tab.get_set ..
theorem State.cmdLd_updCmdLd (s : State) (k j : Nat) (f : CmdLd → CmdLd) : (s.updCmdLd k f).cmdLd j = if j = k then f (s.cmdLd k) else s.cmdLd j :=
  Tab.get_set ..
theorem State.lock_updLock (s : State) (k j : Nat) (f : Lock → Lock) : (s.updLock k f).lock j = if j = k then f (s.lock k) else s.lock j :=
  Tab.get_set ..
theorem State.region_updRegion (s : State) (k j : Nat) (f : DcRegion → DcRegion) : (s.updRegion k f).region j = if j = k then f (s.region k) else s.region j :=
  Tab.get_set ..
theorem State.slot_updSlot (s : State) (k j : Nat) (f : KeySlot → KeySlot) : (s.updSlot k f).slot j = if j = k then f (s.slot k) else s.slot j :=
  Tab.get_set ..
theorem State.tspOf_updTspOf (s : State) (k j : Nat) (f : Tsp → Tsp) : (s.updTspOf k f).tspOf j = if j = k then f (s.tspOf k) else s.tspOf j :=
  Tab.get_set ..
theorem State.frameRec_updFrameRec (s : State) (k j : Nat) (f : FrameRec → FrameRec) : (s.updFrameRec k f).frameRec j = if j = k then f (s.frameRec k) else s.frameRec j :=
  State.frameRec_setFrameRec ..
theorem State.tableEntry_updTableEntry (s : State) (k j : Nat) (f : LastEntry → LastEntry) : (s.updTableEntry k f).tableEntry j = if j = k then f (s.tableEntry k) else s.tableEntry j :=
  Tab.get_set ..
theorem State.cacheSet_updCacheSet (s : State) (k j : Nat) (f : CacheSet → CacheSet) : (s.updCacheSet k f).cacheSet j = if j = k then f (s.cacheSet k) else s.cacheSet j :=
  Tab.get_set ..
theorem State.row_updRow (s : State) (k j : Nat) (f : RowEntry → RowEntry) : (s.updRow k f).row j = if j = k then f (s.row k) else s.row j :=
  Tab.get_set ..
theorem State.perfFn_updPerfFn (s : State) (k j : Nat) (f : PerfFn → PerfFn) : (s.updPerfFn k f).perfFn j = if j = k then f (s.perfFn k) else s.perfFn j :=
  Tab.get_set ..
theorem State.sampler_updSampler (s : State) (k j : Nat) (f : Sampler → Sampler) : (s.updSampler k f).sampler j = if j = k then f (s.sampler k) else s.sampler j :=
  Tab.get_set ..

/-! ### DRAM -/

/-- Stored check bits read as they were stored; those of other lines stay. -/
theorem State.side_setRaw (s : State) (f line g l : Nat) (r : Raw) :
    ((s.setRaw f line r).rawLine g l).side = if pla g l = pla f line then r.side else (s.rawLine g l).side := Tab.get_set ..

/-- A stored line reads back; a line whose bytes lie elsewhere stays. -/
theorem State.data_setRaw_other (s : State) (f line g l : Nat) (r : Raw) (h : g * 4096 + l * 64 + 64 ≤ f * 4096 + line * 64 ∨ f * 4096 + line * 64 + 64 ≤ g * 4096 + l * 64) :
    ((s.setRaw f line r).rawLine g l).data = (s.rawLine g l).data := by
  show memLine (memLineSet _ _ _) _ = memLine _ _
  unfold memLine
  congr 1
  refine List.map_congr_left fun i hi => ?_
  have := List.mem_range.mp hi
  exact memLineSet_other _ _ _ _ (by omega)

/-- The number that bytes j to j + k - 1 of a word hold. -/
theorem natOfBytes_range {n : Nat} (x : BitVec n) (k j : Nat) :
    natOfBytes ((List.range' j k).map (byteAt x)) = x.toNat / 2 ^ (8 * j) % 2 ^ (8 * k) := by
  induction k generalizing j with
  | zero => simp [natOfBytes, Nat.mod_one]
  | succ k ih =>
    have e : (List.range' j (k + 1)).map (byteAt x) = byteAt x j :: (List.range' (j + 1) k).map (byteAt x) := rfl
    rw [e]
    have e2 : ∀ (b : Byte) l, natOfBytes (b :: l) = b.toNat + 256 * natOfBytes l := by intro b l; rfl
    rw [e2, ih (j + 1)]
    have e3 : (byteAt x j).toNat = x.toNat / 2 ^ (8 * j) % 256 := by
      simp [byteAt, BitVec.extractLsb'_toNat, Nat.shiftRight_eq_div_pow]
    rw [e3, show 8 * (j + 1) = 8 * j + 8 by omega, Nat.pow_add, ← Nat.div_div_eq_div_mul, show 8 * (k + 1) = 8 + 8 * k by omega, Nat.pow_add]
    exact (Nat.mod_mul (x := x.toNat / 2 ^ (8 * j)) (a := 256) (b := 2 ^ (8 * k))).symm

/-- A line is the word of its bytes. -/
theorem ofBytes_leBytes (x : Line) : ofBytes 512 ((List.range 64).map (byteAt x)) = x := by
  unfold ofBytes
  rw [List.range_eq_range', natOfBytes_range x 64 0]
  have := x.isLt
  simp [Nat.mod_eq_of_lt this]

/-- A line reads as it was stored, with its side bits. -/
theorem State.rawLine_setRaw (s : State) (f line : Nat) (r : Raw) : (s.setRaw f line r).rawLine f line = r := by
  have h1 : ((s.setRaw f line r).rawLine f line).side = r.side := by rw [State.side_setRaw, if_pos rfl]
  have h2 : ((s.setRaw f line r).rawLine f line).data = r.data := by
    show memLine (memLineSet _ _ _) _ = _
    unfold memLine
    rw [← ofBytes_leBytes r.data]
    congr 1
    refine List.map_congr_left fun i hi => ?_
    rw [ofBytes_leBytes]
    exact memLineSet_same _ _ _ _ (List.mem_range.mp hi)
  cases hr : (s.setRaw f line r).rawLine f line
  rw [hr] at h1 h2
  cases r
  simp_all

/-- Outside the metadata region no table of State stands for a line. -/
theorem State.metaPlain_none {s : State} {f l : Nat} (h : s.metaGroup (groupOf s.w f) = false) : s.metaPlain f l = none := by
  unfold State.metaPlain
  exact if_pos (by rw [h]; rfl)

/-- A line outside the metadata region is stored as it stands in DRAM. -/
theorem State.storedLine_raw {s : State} {f l : Nat} (p : Nat) (h : s.metaGroup (groupOf s.w f) = false) : s.storedLine f p l = s.rawLine p l := by
  rw [State.storedLine, State.metaPlain_none h]
  rfl

end Sys2Proof.Machine
end

