-- ==== Sys2Proof/Laws/Lerz.lean ====
section
/-! SUPPORT. The Lerzound format's small laws (04): bytes of a word, a header that is read back, a field and a run of literals that are read back, a
frame of zeros. -/

namespace Sys2Proof.Machine

/-! ### Bytes -/

theorem leBytes_length {n : Nat} (k : Nat) (x : BitVec n) : (leBytes k x).length = k := by simp [leBytes]

/-- The number that the first k bytes of a word hold. -/
theorem natOfBytes_leBytes {n : Nat} (k : Nat) (x : BitVec n) : natOfBytes (leBytes k x) = x.toNat % 2 ^ (8 * k) := by
  unfold leBytes
  rw [List.range_eq_range', natOfBytes_range x k 0]
  simp

/-- A word is the word of its bytes. -/
theorem ofBytes_leBytes_all {n : Nat} (k : Nat) (x : BitVec n) (h : n ≤ 8 * k) : ofBytes n (leBytes k x) = x := by
  unfold ofBytes
  rw [natOfBytes_leBytes, Nat.mod_eq_of_lt (Nat.lt_of_lt_of_le x.isLt (Nat.pow_le_pow_right (by decide) h))]
  simp

/-! ### Headers (R76) -/

theorem CMode.of_code (m : CMode) : CMode.of m.code = m := by cases m <;> rfl

/-- A header whose fields fit is read back from its bytes, whatever follows. -/
theorem CHeader.parse_bytes (h : CHeader) (r : List Byte) (h1 : h.version < 16) (h2 : h.level < 16) (h3 : h.len < 2048) :
    CHeader.parse (h.bytes ++ r) = h := by
  have e1 : (h.bytes ++ r).take 4 = leBytes 4 h.control := by
    rw [CHeader.bytes, List.append_assoc, List.take_left' (leBytes_length 4 _)]
  have e2 : ((h.bytes ++ r).drop 4).take 4 = leBytes 4 h.crc := by
    rw [CHeader.bytes, List.append_assoc, List.drop_left' (leBytes_length 4 _), List.take_left' (leBytes_length 4 _)]
  have hc : h.mode.code < 4 := by cases h.mode <;> decide
  have e3 : natOfBytes (leBytes 4 h.control) = h.version + 16 * h.mode.code + 64 * h.level + 1024 * h.len := by
    rw [natOfBytes_leBytes]
    simp only [CHeader.control, BitVec.toNat_ofNat]
    omega
  have e5 : CMode.of ((h.version + 16 * h.mode.code + 64 * h.level + 1024 * h.len) / 16) = h.mode := by
    have : ((h.version + 16 * h.mode.code + 64 * h.level + 1024 * h.len) / 16) % 4 = h.mode.code := by omega
    unfold CMode.of
    rw [this]
    cases h.mode <;> rfl
  unfold CHeader.parse
  simp only [e1, e2, e3, e5, ofBytes_leBytes_all 4 h.crc (by decide)]
  obtain ⟨v, m, l, n, c⟩ := h
  simp only at h1 h2 h3 hc ⊢
  congr 1 <;> omega

theorem CHeader.bytes_length (h : CHeader) : h.bytes.length = 8 := by simp [CHeader.bytes, leBytes]

/-! ### Fields (R80) -/

theorem fieldBits_length (n v : Nat) : (fieldBits n v).length = n := by simp [fieldBits]

/-- The number of n bits from bit j on. -/
theorem natOfBits_range (v n j : Nat) : natOfBits ((List.range' j n).map fun i => v.testBit i) = v / 2 ^ j % 2 ^ n := by
  induction n generalizing j with
  | zero => simp [natOfBits, Nat.mod_one]
  | succ n ih =>
    have e : (List.range' j (n + 1)).map (fun i => v.testBit i) = v.testBit j :: (List.range' (j + 1) n).map fun i => v.testBit i := rfl
    rw [e, natOfBits, ih (j + 1), Nat.pow_succ, ← Nat.div_div_eq_div_mul]
    have hb : (if v.testBit j = true then 1 else 0) = v / 2 ^ j % 2 := by
      rw [Nat.testBit_eq_decide_div_mod_eq]
      by_cases h : v / 2 ^ j % 2 = 1
      · simp [h]
      · have : v / 2 ^ j % 2 = 0 := by omega
        simp [this]
    rw [hb, Nat.pow_succ, Nat.mul_comm (2 ^ n) 2]
    exact (Nat.mod_mul (x := v / 2 ^ j) (a := 2) (b := 2 ^ n)).symm

/-- A field is read back, and what follows is left. -/
theorem takeField_fieldBits (n v : Nat) (r : List Bool) (h : v < 2 ^ n) : takeField n (fieldBits n v ++ r) = some (v, r) := by
  unfold takeField
  rw [if_neg (by simp [fieldBits_length]), List.take_left' (fieldBits_length n v), List.drop_left' (fieldBits_length n v)]
  unfold fieldBits
  rw [List.range_eq_range', natOfBits_range]
  simp [Nat.mod_eq_of_lt h]

theorem bitsOf_cons (b : Byte) (bs : List Byte) : bitsOf (b :: bs) = fieldBits 8 b.toNat ++ bitsOf bs := rfl

/-- Literals are read back, newest first. -/
theorem readLits_bitsOf (bs out : List Byte) (r : List Bool) : readLits bs.length out (bitsOf bs ++ r) = some (bs.reverse ++ out, r) := by
  induction bs generalizing out with
  | nil => rfl
  | cons b bs ih =>
    rw [bitsOf_cons, List.append_assoc]
    simp only [List.length_cons, readLits]
    rw [takeField_fieldBits 8 b.toNat _ b.isLt]
    simp only [BitVec.ofNat_toNat, BitVec.setWidth_eq]
    rw [ih]
    simp

/-! ### Frames (R79) -/

/-- The frame of a chunk of zeros reads back, and what follows is left. -/
theorem readFrame_absent (level : Nat) (h : level < 16) (r : List Byte) :
    readFrame (ChunkForm.absent.frame level (zeros 1024) ++ r) = .ok (zeros 1024) r := by
  have hp : CHeader.parse ((headerOf .zero level 0 (zeros 1024)).bytes ++ r) = headerOf .zero level 0 (zeros 1024) :=
    CHeader.parse_bytes _ r (by simp [headerOf]) h (by simp [headerOf])
  have hl : ((headerOf .zero level 0 (zeros 1024)).bytes).length = 8 := CHeader.bytes_length _
  unfold readFrame ChunkForm.frame
  rw [if_neg (by simp [hl]), hp]
  have ht : ceilDiv (8 + (headerOf .zero level 0 (zeros 1024)).len) 8 * 8 = 8 := by simp [headerOf, ceilDiv]
  have hd : decodeChunk (headerOf .zero level 0 (zeros 1024)) (((headerOf .zero level 0 (zeros 1024)).bytes ++ r).drop 8) = .ok (zeros 1024) := by
    simp [decodeChunk, headerOf]
  simp only [ht, hd]
  rw [if_neg (by simp [headerOf]), if_neg (by simp [headerOf, CHeader.lenOk]), if_neg (by simp [hl])]
  simp [List.drop_left' hl]

end Sys2Proof.Machine
end

