-- ==== Sys2Proof/Laws/Outcomes.lean ====
section
/-! SUPPORT. What the shared frames of a command can answer: the SLAFIN frame, the standard-command frames, the TSP, SPDM and queue frames. A claim
about a command uses these and never unfolds a frame. -/

namespace Sys2Proof.Machine

/-- Whatever next state the outcome answers has the property. -/
def Leaves (P : State → Prop) (o : Out) : Prop := ∀ t, o = .next t → P t

theorem leaves_next {P : State → Prop} {t : State} (h : P t) : Leaves P (.next t) := by intro u hu; cases hu; exact h
theorem leaves_fault {P : State → Prop} {f : Fault} : Leaves P (.fault f) := by intro u hu; cases hu
theorem leaves_if {P : State → Prop} {c : Prop} [Decidable c] {a b : Out} (h1 : Leaves P a) (h2 : Leaves P b) : Leaves P (if c then a else b) := by
  split <;> assumption

/-- The state that a SLAFIN command's act leaves, before its reply. -/
def Result.st : Result → State
  | .done _ _ s => s
  | .later s => s

/-- The state that a standard command's act leaves, before its response. -/
def StdResult.st : StdResult → State
  | .done _ _ s => s
  | .later s => s

/-! ### SLAFIN commands -/

theorem slafin_absent {s : State} {g : Gate} {m : Msg} {act : State → Result} (h : s.arrives m g.op = false) : s.slafin g m act = .next s := by
  simp [State.slafin, h]

theorem slafin_turned {s : State} {g : Gate} {m : Msg} {act : State → Result} {st : W16} (h : s.arrives m g.op = true) (h1 : s.turnAway g m = some st) :
    s.slafin g m act = .next (s.reply m g.op st []) := by
  simp [State.slafin, h, h1]

theorem slafin_done {s t : State} {g : Gate} {m : Msg} {act : State → Result} {st : W16} {body : List Byte} (h : s.arrives m g.op = true)
    (h1 : s.turnAway g m = none) (h2 : act s = .done st body t) : s.slafin g m act = .next (t.reply m g.op st body) := by
  simp [State.slafin, h, h1, h2]

theorem slafin_later {s t : State} {g : Gate} {m : Msg} {act : State → Result} (h : s.arrives m g.op = true) (h1 : s.turnAway g m = none)
    (h2 : act s = .later t) : s.slafin g m act = .next t := by
  simp [State.slafin, h, h1, h2]

theorem leaves_slafin {P : State → Prop} {s : State} {g : Gate} {m : Msg} {act : State → Result} (h : P s)
    (hr : ∀ u st body, P u → P (u.reply m g.op st body)) (ha : P (act s).st) : Leaves P (s.slafin g m act) := by
  unfold State.slafin
  refine leaves_if (leaves_next h) ?_
  split; · exact leaves_next (hr _ _ _ h)
  split <;> (rename_i h1; rw [h1] at ha)
  · exact leaves_next (hr _ _ _ ha)
  · exact leaves_next ha

/-! ### Standard commands -/

theorem std_done {s t : State} {op : Nat} {ok : Path → Bool} {m : Msg} {act : State → StdResult} {code : W16} {body : List Nat}
    (h : s.arrives m op = true) (h1 : ok m.path = true) (h2 : op < 0x5400 ∨ (s.cmd.removals.any fun r => decide (r.op ≥ 0x5400)) = false)
    (h3 : act s = .done code body t) : s.std op ok m act = .next (t.respStd m op code body) := by
  have h4 : ¬(op ≥ 0x5400 ∧ (s.cmd.removals.any fun r => decide (r.op ≥ 0x5400)) = true) := by
    rintro ⟨a, b⟩; rcases h2 with c | c
    · omega
    · rw [b] at c; cases c
  unfold State.std
  rw [if_neg (by simp [h]), if_neg (by simp [h1]), if_neg h4, h3]

theorem std_later {s t : State} {op : Nat} {ok : Path → Bool} {m : Msg} {act : State → StdResult}
    (h : s.arrives m op = true) (h1 : ok m.path = true) (h2 : op < 0x5400 ∨ (s.cmd.removals.any fun r => decide (r.op ≥ 0x5400)) = false)
    (h3 : act s = .later t) : s.std op ok m act = .next t := by
  have h4 : ¬(op ≥ 0x5400 ∧ (s.cmd.removals.any fun r => decide (r.op ≥ 0x5400)) = true) := by
    rintro ⟨a, b⟩; rcases h2 with c | c
    · omega
    · rw [b] at c; cases c
  unfold State.std
  rw [if_neg (by simp [h]), if_neg (by simp [h1]), if_neg h4, h3]

theorem leaves_std {P : State → Prop} {s : State} {op : Nat} {ok : Path → Bool} {m : Msg} {act : State → StdResult} (h : P s)
    (hr : ∀ u code body, P u → P (u.respStd m op code body)) (ha : P (act s).st) : Leaves P (s.std op ok m act) := by
  unfold State.std
  refine leaves_if (leaves_next h) (leaves_if (leaves_next (hr _ _ _ h)) (leaves_if (leaves_next h) ?_))
  split <;> (rename_i h1; rw [h1] at ha)
  · exact leaves_next (hr _ _ _ ha)
  · exact leaves_next ha

theorem leaves_dcRun {P : State → Prop} {s : State} {op : Nat} {m : Msg} {act : Fin 32 → State → StdResult} (h : P s)
    (hr : ∀ u code body, P u → P (u.respStd m op code body)) (ha : ∀ ld, P (act ld s).st) : Leaves P (s.dcRun op m act) := by
  unfold State.dcRun
  refine leaves_std h hr ?_
  split
  · split
    · exact ha _
    · exact h
  · exact h

theorem leaves_fwRun {P : State → Prop} {s : State} {op : Nat} {m : Msg} {act : State → StdResult} (h : P s)
    (hr : ∀ u code body, P u → P (u.respStd m op code body)) (ha : P (act s).st) : Leaves P (s.fwRun op m act) := by
  unfold State.fwRun
  refine leaves_if (leaves_next h) (leaves_if (leaves_next (hr _ _ _ h)) ?_)
  split <;> (rename_i h1; rw [h1] at ha)
  · exact leaves_next (hr _ _ _ ha)
  · exact leaves_next ha

/-! ### TSP and SPDM -/

theorem leaves_tspRun {P : State → Prop} {s : State} {ld : Fin 32} {x : Fin 8} {act : State → State} (h : P s) (he : ∀ o, P (s.emit o))
    (ha : P (act s)) : Leaves P (s.tspRun ld x act) := by
  unfold State.tspRun
  exact leaves_if (leaves_next h) (leaves_if (leaves_next (he _)) (leaves_if (leaves_next (he _)) (leaves_if (leaves_next (he _)) (leaves_next ha))))

theorem leaves_spdmRun {P : State → Prop} {s : State} {m : Msg} {act : State → State} (h : P s) (he : ∀ o, P (s.emit o)) (ha : P (act s)) :
    Leaves P (s.spdmRun m act) := by
  unfold State.spdmRun
  refine leaves_if (leaves_next h) ?_
  split
  · exact leaves_next (he _)
  · exact leaves_next (he _)
  · exact leaves_next ha

theorem leaves_spdmReady {P : State → Prop} {s : State} {m : Msg} {act : State → State} (h : P s) (he : ∀ o, P (s.emit o)) (ha : P (act s)) :
    Leaves P (s.spdmReady m act) := by
  unfold State.spdmReady
  refine leaves_spdmRun h he ?_
  split
  · exact ha
  · exact he _

theorem leaves_spdmIn {P : State → Prop} {s : State} {m : Msg} {i : Fin 8} {act : Session → State → State} (h : P s) (he : ∀ o, P (s.emit o))
    (ha : ∀ x, P (act x s)) : Leaves P (s.spdmIn m i act) := by
  unfold State.spdmIn
  refine leaves_spdmReady h he ?_
  split
  · split
    · exact ha _
    · exact he _
  · exact he _

end Sys2Proof.Machine
end

