-- ==== Sys2Proof/Laws/Settings.lean ====
section
/-! SUPPORT. What every operation does to the settings (Safety.lean): nothing. One lemma for each operation that answers a state, proved from the
lemmas of the operations it calls, so that a claim about settings never unfolds an operation. The commands that set a policy or a quota
and the two losses of a reset are the exceptions: the losses have their own lemmas at the end of their file's part. -/

namespace Sys2Proof.Machine

set_option linter.unusedSimpArgs false
set_option linter.unnecessarySeqFocus false
set_option linter.unusedTactic false
set_option linter.unusedVariables false
set_option linter.unreachableTactic false
set_option linter.unnecessarySimpa false

/-- The state that a piece of an operation leaves. -/
def PageRes.st : PageRes → State
  | .ok _ _ _ s => s
  | .hold s => s
  | .wait _ s => s
  | .fail _ s => s

theorem settings_if {c : Prop} [Decidable c] {a b : State} {x : Settings} (h1 : a.settings = x) (h2 : b.settings = x) : (if c then a else b).settings = x := by split <;> assumption
theorem settings_ite (c : Prop) [Decidable c] (a b : State) : (if c then a else b).settings = if c then a.settings else b.settings := by split <;> rfl
theorem settings_foldl {α : Type} (f : State → α → State) (h : ∀ s x, (f s x).settings = s.settings) (l : List α) (s : State) : (l.foldl f s).settings = s.settings := by
  induction l generalizing s with
  | nil => rfl
  | cons x r ih => rw [List.foldl_cons, ih, h]
theorem settings_foldl' {α : Type} (f : State → α → State) (l : List α) (s : State) (h : ∀ s x,
  (f s x).settings = s.settings) : (l.foldl f s).settings = s.settings := settings_foldl f h l s
theorem settings_foldl2 {α β : Type} (f : β × State → α → β × State) (h : ∀ s x,
  (f s x).2.settings = s.2.settings) (l : List α) (s : β × State) : (l.foldl f s).2.settings = s.2.settings := by
  induction l generalizing s with
  | nil => rfl
  | cons x r ih => rw [List.foldl_cons, ih, h]
theorem settings_foldl3 {α β γ : Type} (f : β × γ × State → α → β × γ × State) (h : ∀ s x,
  (f s x).2.2.settings = s.2.2.settings) (l : List α) (s : β × γ × State) : (l.foldl f s).2.2.settings = s.2.2.settings := by
  induction l generalizing s with
  | nil => rfl
  | cons x r ih => rw [List.foldl_cons, ih, h]
section base
variable (s : State)
theorem settings_mapTier (f : Tier → Tier) (h1 : ∀ t, (f t).policy = t.policy) (h2 : ∀ t, (f t).watermark = t.watermark) (h3 : ∀ t,
  (f t).rate = t.rate) : (s.mapTier f).settings = s.settings := by
  simp [State.settings, State.mapTier, h1, h2, h3]
theorem settings_mapWelt (f : Welt → Welt) (h1 : ∀ t, (f t).policy = t.policy) : (s.mapWelt f).settings = s.settings := by simp [State.settings, State.mapWelt, h1]
theorem settings_mapShank (f : Shank → Shank) (h1 : ∀ t, (f t).policy = t.policy) : (s.mapShank f).settings = s.settings := by simp [State.settings, State.mapShank, h1]
theorem settings_mapResume (f : Resume → Resume) (h1 : ∀ t, (f t).restorePct = t.restorePct) (h2 : ∀ t,
  (f t).upspeedDelayS = t.upspeedDelayS) : (s.mapResume f).settings = s.settings := by simp [State.settings, State.mapResume, h1, h2]
theorem settings_mapReg (f : Regul → Regul) (h1 : ∀ t, (f t).optimalPct = t.optimalPct) (h2 : ∀ t, (f t).moderatePct = t.moderatePct) (h3 : ∀ t,
  (f t).ageUs = t.ageUs) : (s.mapReg f).settings = s.settings := by simp [State.settings, State.mapReg, h1, h2, h3]
theorem settings_mapKeys (f : Keys → Keys) (h1 : ∀ t, (f t).quota = t.quota) : (s.mapKeys f).settings = s.settings := by simp [State.settings, State.mapKeys, h1]
theorem settings_mapWorld (f : WorldsSt → WorldsSt) : (s.mapWorld f).settings = s.settings := id rfl
end base

/-! ### Machine/Ops.lean -/

theorem settings_mapPath (a0 a1 : _) : (State.mapPath a0 a1).settings = a0.settings := id rfl
theorem settings_mapLast (a0 a1 : _) : (State.mapLast a0 a1).settings = a0.settings := id rfl
theorem settings_mapCodec (a0 a1 : _) : (State.mapCodec a0 a1).settings = a0.settings := id rfl
theorem settings_mapDram (a0 a1 : _) : (State.mapDram a0 a1).settings = a0.settings := id rfl
theorem settings_mapDdr (a0 a1 : _) : (State.mapDdr a0 a1).settings = a0.settings := id rfl
theorem settings_mapLace (a0 a1 : _) : (State.mapLace a0 a1).settings = a0.settings := id rfl
theorem settings_mapImage (a0 a1 : _) : (State.mapImage a0 a1).settings = a0.settings := id rfl
theorem settings_mapPort (a0 a1 : _) : (State.mapPort a0 a1).settings = a0.settings := id rfl
theorem settings_mapPoq (a0 a1 : _) : (State.mapPoq a0 a1).settings = a0.settings := id rfl
theorem settings_mapCmd (a0 a1 : _) : (State.mapCmd a0 a1).settings = a0.settings := id rfl
theorem settings_mapFault (a0 a1 : _) : (State.mapFault a0 a1).settings = a0.settings := id rfl
theorem settings_mapPerf (a0 a1 : _) : (State.mapPerf a0 a1).settings = a0.settings := id rfl
theorem settings_mapPower (a0 a1 : _) : (State.mapPower a0 a1).settings = a0.settings := id rfl
theorem settings_emit (a0 a1 : _) : (State.emit a0 a1).settings = a0.settings := id rfl
theorem settings_emits (a0 a1 : _) : (State.emits a0 a1).settings = a0.settings := by
  unfold State.emits
  exact settings_foldl _ (fun _ _ => by (repeat' split) <;> simp only [settings_emit, implies_true]) _ _
theorem settings_draw (a0 : State) : (State.draw a0).2.settings = a0.settings := id rfl
theorem settings_setSrc (a0 a1 a2 : _) : (State.setSrc a0 a1 a2).settings = a0.settings := id rfl
theorem settings_updSrc (a0 a1 a2 : _) : (State.updSrc a0 a1 a2).settings = a0.settings := id rfl
theorem settings_setChan (a0 a1 a2 : _) : (State.setChan a0 a1 a2).settings = a0.settings := id rfl
theorem settings_updChan (a0 a1 a2 : _) : (State.updChan a0 a1 a2).settings = a0.settings := id rfl
theorem settings_setLaceMod (a0 a1 a2 : _) : (State.setLaceMod a0 a1 a2).settings = a0.settings := id rfl
theorem settings_updLaceMod (a0 a1 a2 : _) : (State.updLaceMod a0 a1 a2).settings = a0.settings := id rfl
theorem settings_setDrive (a0 a1 a2 : _) : (State.setDrive a0 a1 a2).settings = a0.settings := id rfl
theorem settings_updDrive (a0 a1 a2 : _) : (State.updDrive a0 a1 a2).settings = a0.settings := id rfl
theorem settings_setMaster (a0 a1 a2 : _) : (State.setMaster a0 a1 a2).settings = a0.settings := id rfl
theorem settings_updMaster (a0 a1 a2 : _) : (State.updMaster a0 a1 a2).settings = a0.settings := id rfl
theorem settings_setHeadOf (a0 a1 a2 : _) : (State.setHeadOf a0 a1 a2).settings = a0.settings := id rfl
theorem settings_updHeadOf (a0 a1 a2 : _) : (State.updHeadOf a0 a1 a2).settings = a0.settings := id rfl
theorem settings_setFn (a0 a1 a2 : _) : (State.setFn a0 a1 a2).settings = a0.settings := id rfl
theorem settings_updFn (a0 a1 a2 : _) : (State.updFn a0 a1 a2).settings = a0.settings := id rfl
theorem settings_setCtx (a0 a1 a2 : _) : (State.setCtx a0 a1 a2).settings = a0.settings := id rfl
theorem settings_setPoqLd (a0 a1 a2 : _) : (State.setPoqLd a0 a1 a2).settings = a0.settings := id rfl
theorem settings_updPoqLd (a0 a1 a2 : _) : (State.updPoqLd a0 a1 a2).settings = a0.settings := id rfl
theorem settings_setEye (a0 a1 a2 : _) : (State.setEye a0 a1 a2).settings = a0.settings := id rfl
theorem settings_updEye (a0 a1 a2 : _) : (State.updEye a0 a1 a2).settings = a0.settings := id rfl
theorem settings_setCmdLd (a0 a1 a2 : _) : (State.setCmdLd a0 a1 a2).settings = a0.settings := id rfl
theorem settings_updCmdLd (a0 a1 a2 : _) : (State.updCmdLd a0 a1 a2).settings = a0.settings := id rfl
theorem settings_setLock (a0 a1 a2 : _) : (State.setLock a0 a1 a2).settings = a0.settings := id rfl
theorem settings_updLock (a0 a1 a2 : _) : (State.updLock a0 a1 a2).settings = a0.settings := id rfl
theorem settings_setRegion (a0 a1 a2 : _) : (State.setRegion a0 a1 a2).settings = a0.settings := id rfl
theorem settings_updRegion (a0 a1 a2 : _) : (State.updRegion a0 a1 a2).settings = a0.settings := id rfl
theorem settings_setLog (a0 a1 a2 : _) : (State.setLog a0 a1 a2).settings = a0.settings := id rfl
theorem settings_setSlot (a0 a1 a2 : _) : (State.setSlot a0 a1 a2).settings = a0.settings := id rfl
theorem settings_updSlot (a0 a1 a2 : _) : (State.updSlot a0 a1 a2).settings = a0.settings := id rfl
theorem settings_setDefKey (a0 a1 a2 : _) : (State.setDefKey a0 a1 a2).settings = a0.settings := id rfl
theorem settings_setTspOf (a0 a1 a2 : _) : (State.setTspOf a0 a1 a2).settings = a0.settings := id rfl
theorem settings_updTspOf (a0 a1 a2 : _) : (State.updTspOf a0 a1 a2).settings = a0.settings := id rfl
theorem settings_setIdeStream (a0 a1 a2 : _) : (State.setIdeStream a0 a1 a2).settings = a0.settings := by
  unfold State.setIdeStream
  (try simp only [settings_mapKeys, implies_true, settings_ite, ite_self, settings_foldl']) <;>
    (repeat' (first
      | with_reducible rfl
      | (simp only [settings_mapKeys, implies_true, settings_ite, ite_self, settings_foldl']; done)
      | (with_reducible refine (settings_foldl _ ?_ _ _).trans ?_)
      | (with_reducible refine (settings_foldl2 _ ?_ _ _).trans ?_)
      | (split <;> (try (rename_i h; first | (have h2 := congrArg Prod.snd h; simp only at h2; subst h2))))
      | (intro _)
      | (simp only [settings_mapKeys, implies_true, settings_ite, ite_self, settings_foldl', *]; done)
      | (simp only [settings_mapKeys, implies_true, settings_ite, ite_self, settings_foldl'])))
theorem settings_setMap (a0 a1 a2 : _) : (State.setMap a0 a1 a2).settings = a0.settings := id rfl
theorem settings_setTableEntry (a0 a1 a2 : _) : (State.setTableEntry a0 a1 a2).settings = a0.settings := id rfl
theorem settings_updTableEntry (a0 a1 a2 : _) : (State.updTableEntry a0 a1 a2).settings = a0.settings := id rfl
theorem settings_setCacheSet (a0 a1 a2 : _) : (State.setCacheSet a0 a1 a2).settings = a0.settings := id rfl
theorem settings_updCacheSet (a0 a1 a2 : _) : (State.updCacheSet a0 a1 a2).settings = a0.settings := id rfl
theorem settings_setTracker (a0 a1 a2 : _) : (State.setTracker a0 a1 a2).settings = a0.settings := id rfl
theorem settings_setBucket (a0 a1 a2 : _) : (State.setBucket a0 a1 a2).settings = a0.settings := id rfl
theorem settings_setUnit (a0 a1 a2 : _) : (State.setUnit a0 a1 a2).settings = a0.settings := id rfl
theorem settings_setRow (a0 a1 a2 : _) : (State.setRow a0 a1 a2).settings = a0.settings := id rfl
theorem settings_updRow (a0 a1 a2 : _) : (State.updRow a0 a1 a2).settings = a0.settings := id rfl
theorem settings_setCompat (a0 a1 a2 : _) : (State.setCompat a0 a1 a2).settings = a0.settings := id rfl
theorem settings_setCore (a0 a1 a2 : _) : (State.setCore a0 a1 a2).settings = a0.settings := id rfl
theorem settings_setPageOwner (a0 a1 a2 : _) : (State.setPageOwner a0 a1 a2).settings = a0.settings := id rfl
theorem settings_setSessionOf (a0 a1 a2 : _) : (State.setSessionOf a0 a1 a2).settings = a0.settings := id rfl
theorem settings_setGate (a0 a1 a2 : _) : (State.setGate a0 a1 a2).settings = a0.settings := id rfl
theorem settings_setPerfFn (a0 a1 a2 : _) : (State.setPerfFn a0 a1 a2).settings = a0.settings := id rfl
theorem settings_updPerfFn (a0 a1 a2 : _) : (State.updPerfFn a0 a1 a2).settings = a0.settings := id rfl
theorem settings_setSampler (a0 a1 a2 : _) : (State.setSampler a0 a1 a2).settings = a0.settings := by
  unfold State.setSampler
  simp only [settings_mapPerf]
theorem settings_updSampler (a0 a1 a2 : _) : (State.updSampler a0 a1 a2).settings = a0.settings := by
  unfold State.updSampler
  simp only [settings_setSampler]
theorem settings_setInj (a0 a1 a2 : _) : (State.setInj a0 a1 a2).settings = a0.settings := by
  unfold State.setInj
  simp only [settings_mapFault]
theorem settings_raiseVector (a0 a1 a2 : _) : (State.raiseVector a0 a1 a2).settings = a0.settings := by
  unfold State.raiseVector
  (repeat' split) <;> simp only [settings_emit, settings_updFn, implies_true]
theorem settings_pm (a0 a1 a2 a3 a4 a5 : _) : (State.pm a0 a1 a2 a3 a4 a5).settings = a0.settings := by
  unfold State.pm
  simp only [settings_raiseVector, settings_setPerfFn, implies_true, settings_ite, ite_self, settings_foldl']
theorem settings_pmPort (a0 a1 a2 a3 : _) : (State.pmPort a0 a1 a2 a3).settings = a0.settings := by
  unfold State.pmPort
  simp only [settings_pm]
theorem settings_pmCxl (a0 a1 a2 a3 : _) : (State.pmCxl a0 a1 a2 a3).settings = a0.settings := by
  unfold State.pmCxl
  (try simp only [settings_pm, implies_true, settings_ite, ite_self, settings_foldl']) <;>
    (repeat' (first
      | with_reducible rfl
      | (simp only [settings_pm, implies_true, settings_ite, ite_self, settings_foldl']; done)
      | (with_reducible refine (settings_foldl _ ?_ _ _).trans ?_)
      | (with_reducible refine (settings_foldl2 _ ?_ _ _).trans ?_)
      | (split <;> (try (rename_i h; first | (have h2 := congrArg Prod.snd h; simp only at h2; subst h2))))
      | (intro _)
      | (simp only [settings_pm, implies_true, settings_ite, ite_self, settings_foldl', *]; done)
      | (simp only [settings_pm, implies_true, settings_ite, ite_self, settings_foldl'])))
theorem settings_pmLace (a0 a1 a2 a3 : _) : (State.pmLace a0 a1 a2 a3).settings = a0.settings := by
  unfold State.pmLace
  simp only [settings_pm]
theorem settings_pmChan (a0 a1 a2 a3 : _) : (State.pmChan a0 a1 a2 a3).settings = a0.settings := by
  unfold State.pmChan
  simp only [settings_pm]
theorem settings_pmCodec (a0 a1 a2 : _) : (State.pmCodec a0 a1 a2).settings = a0.settings := by
  unfold State.pmCodec
  simp only [settings_pm]
theorem settings_pmCrypto (a0 a1 a2 : _) : (State.pmCrypto a0 a1 a2).settings = a0.settings := by
  unfold State.pmCrypto
  simp only [settings_pm]
theorem settings_pmLast (a0 a1 a2 : _) : (State.pmLast a0 a1 a2).settings = a0.settings := by
  unfold State.pmLast
  simp only [settings_pm]
theorem settings_pmPoq (a0 a1 a2 a3 : _) : (State.pmPoq a0 a1 a2 a3).settings = a0.settings := by
  unfold State.pmPoq
  simp only [settings_pm]
theorem settings_pmShank (a0 a1 a2 : _) : (State.pmShank a0 a1 a2).settings = a0.settings := by
  unfold State.pmShank
  simp only [settings_pm]
theorem settings_countTier (a0 a1 a2 : _) : (State.countTier a0 a1 a2).settings = a0.settings := by
  unfold State.countTier
  simp only [settings_mapTier, implies_true]
theorem settings_countCodec (a0 a1 a2 : _) : (State.countCodec a0 a1 a2).settings = a0.settings := by
  unfold State.countCodec
  (repeat' split) <;> simp only [settings_mapCodec, settings_pmCodec, implies_true]
theorem settings_countWelt (a0 a1 a2 : _) : (State.countWelt a0 a1 a2).settings = a0.settings := by
  unfold State.countWelt
  simp only [settings_mapWelt, implies_true]
theorem settings_countShank (a0 a1 a2 : _) : (State.countShank a0 a1 a2).settings = a0.settings := by
  unfold State.countShank
  (repeat' split) <;> simp only [settings_mapShank, settings_pmShank, implies_true]
theorem settings_countReg (a0 a1 a2 : _) : (State.countReg a0 a1 a2).settings = a0.settings := by
  unfold State.countReg
  simp only [settings_mapReg, implies_true]
theorem settings_countLace (a0 a1 a2 : _) : (State.countLace a0 a1 a2).settings = a0.settings := by
  unfold State.countLace
  (repeat' split) <;> simp only [settings_pmLace, settings_updLaceMod, implies_true]
theorem settings_countChan (a0 a1 a2 : _) : (State.countChan a0 a1 a2).settings = a0.settings := by
  unfold State.countChan
  (repeat' split) <;> simp only [settings_pmChan, settings_updChan, implies_true]
theorem settings_countPoq (a0 a1 a2 a3 : _) : (State.countPoq a0 a1 a2 a3).settings = a0.settings := by
  unfold State.countPoq
  (repeat' split) <;> simp only [settings_pmPoq, settings_updPoqLd, implies_true]
theorem settings_countEye (a0 a1 a2 : _) : (State.countEye a0 a1 a2).settings = a0.settings := by
  unfold State.countEye
  simp only [settings_updCmdLd]
theorem settings_tickTime (a0 : State) : (tickTime a0).settings = a0.settings := id rfl

/-! ### Machine/Fabric.lean -/

theorem settings_countEvent (a0 a1 : _) : (countEvent a0 a1).2.settings = a1.settings := by
  unfold countEvent
  split <;> simp only [settings_setSrc]
theorem settings_insoleWrite (a0 a1 : _) : (insoleWrite a0 a1).settings = a1.settings := by
  unfold insoleWrite
  split <;> simp only [settings_mapFault]
theorem settings_insoleOther (a0 a1 a2 a3 : _) : (insoleOther a0 a1 a2 a3).settings = a3.settings := by
  unfold insoleOther
  simp only [settings_insoleWrite]
theorem settings_recordEvent (a0 a1 a2 a3 : _) : (recordEvent a0 a1 a2 a3).settings = a3.settings := by
  unfold recordEvent
  (repeat' split) <;> simp only [settings_mapFault, settings_insoleWrite, implies_true, settings_ite, ite_self]
theorem settings_putNotice (a0 a1 a2 a3 : _) : (putNotice a0 a1 a2 a3).2.settings = a3.settings := by
  unfold putNotice
  (try simp only [settings_countEye, settings_emit, settings_raiseVector, settings_updCmdLd, implies_true, settings_ite, ite_self, settings_foldl']) <;>
    (repeat' (first
      | with_reducible rfl
      | (simp only [settings_countEye, settings_emit, settings_raiseVector, settings_updCmdLd, implies_true, settings_ite, ite_self, settings_foldl']; done)
      | (with_reducible refine (settings_foldl _ ?_ _ _).trans ?_)
      | (with_reducible refine (settings_foldl2 _ ?_ _ _).trans ?_)
      | (split <;> (try (rename_i h; first | (have h2 := congrArg Prod.snd h; simp only at h2; subst h2))))
      | (intro _)
      | (simp only [settings_countEye, settings_emit, settings_raiseVector, settings_updCmdLd, implies_true, settings_ite, ite_self, settings_foldl', *]; done)
      | (simp only [settings_countEye, settings_emit, settings_raiseVector, settings_updCmdLd, implies_true, settings_ite, ite_self, settings_foldl'])))
theorem settings_postNotice (a0 a1 a2 a3 : _) : (postNotice a0 a1 a2 a3).settings = a3.settings := by
  unfold postNotice
  simp only [settings_countEvent, settings_putNotice, settings_recordEvent, implies_true, settings_ite, ite_self, settings_foldl']
theorem settings_postAll (a0 a1 a2 : _) : (postAll a0 a1 a2).settings = a2.settings := by
  unfold postAll
  exact settings_foldl _ (fun _ _ => by (repeat' split) <;> simp only [settings_postNotice, implies_true]) _ _
theorem settings_logWrite (a0 a1 a2 : _) : (logWrite a0 a1 a2).settings = a2.settings := by
  unfold logWrite
  simp only [settings_raiseVector, settings_setLog, implies_true, settings_ite, ite_self, settings_foldl']
theorem settings_fatalReaction (a0 : _) : (fatalReaction a0).settings = a0.settings := by
  unfold fatalReaction
  simp only [settings_emit, settings_mapFault, settings_mapPower, settings_mapShank, settings_updHeadOf, implies_true, settings_ite, ite_self, settings_foldl']
theorem settings_reactEvent (a0 a1 a2 : _) : (reactEvent a0 a1 a2).settings = a2.settings := by
  unfold reactEvent
  (repeat' split) <;> simp only [settings_logWrite, settings_postAll, settings_postNotice, implies_true]
theorem settings_raise (a0 a1 : _) : (raise a0 a1).settings = a1.settings := by
  unfold raise
  simp only [settings_countEvent, settings_fatalReaction, settings_reactEvent, settings_recordEvent, implies_true, settings_ite, ite_self, settings_foldl']
theorem settings_fire (a0 a1 : _) : (fire a0 a1).settings = a1.settings := by
  unfold fire
  simp only [settings_raise]
theorem settings_raiseCycle (a0 a1 : _) : (raiseCycle a0 a1).settings = a1.settings := by
  unfold raiseCycle
  (try simp only [settings_countEvent, settings_fatalReaction, settings_reactEvent, settings_recordEvent, implies_true, settings_ite, ite_self, settings_foldl']) <;>
    (repeat' (first
      | with_reducible rfl
      | (simp only [settings_countEvent, settings_fatalReaction, settings_reactEvent, settings_recordEvent, implies_true, settings_ite, ite_self, settings_foldl']; done)
      | (with_reducible refine (settings_foldl _ ?_ _ _).trans ?_)
      | (with_reducible refine (settings_foldl2 _ ?_ _ _).trans ?_)
      | (split <;> (try (rename_i h; first | (have h2 := congrArg Prod.snd h; simp only at h2; subst h2))))
      | (intro _)
      | (simp only [settings_countEvent, settings_fatalReaction, settings_reactEvent, settings_recordEvent, implies_true, settings_ite, ite_self, settings_foldl',
        *]; done)
      | (simp only [settings_countEvent, settings_fatalReaction, settings_reactEvent, settings_recordEvent, implies_true, settings_ite, ite_self, settings_foldl'])))

/-! ### Machine/Last.lean -/

theorem settings_touchWay (a0 a1 a2 : _) : (State.touchWay a0 a1 a2).settings = a0.settings := by
  unfold State.touchWay
  simp only [settings_updCacheSet]
theorem settings_putTable (a0 a1 a2 : _) : (State.putTable a0 a1 a2).settings = a0.settings := by
  unfold State.putTable
  simp only [settings_setTableEntry]
theorem settings_putWay (a0 a1 a2 a3 : _) : (State.putWay a0 a1 a2 a3).settings = a0.settings := by
  unfold State.putWay
  simp only [settings_mapLast, settings_updCacheSet]
theorem settings_cacheInsert (a0 a1 a2 a3 : _) : (State.cacheInsert a0 a1 a2 a3).settings = a0.settings := by
  unfold State.cacheInsert
  (try simp only [settings_putTable, settings_putWay, implies_true, settings_ite, ite_self, settings_foldl']) <;>
    (repeat' (first
      | with_reducible rfl
      | (simp only [settings_putTable, settings_putWay, implies_true, settings_ite, ite_self, settings_foldl']; done)
      | (with_reducible refine (settings_foldl _ ?_ _ _).trans ?_)
      | (with_reducible refine (settings_foldl2 _ ?_ _ _).trans ?_)
      | (split <;> (try (rename_i h; first | (have h2 := congrArg Prod.snd h; simp only at h2; subst h2))))
      | (intro _)
      | (simp only [settings_putTable, settings_putWay, implies_true, settings_ite, ite_self, settings_foldl', *]; done)
      | (simp only [settings_putTable, settings_putWay, implies_true, settings_ite, ite_self, settings_foldl'])))
theorem settings_putEntry (a0 a1 a2 : _) : (State.putEntry a0 a1 a2).settings = a0.settings := by
  unfold State.putEntry
  (try simp only [settings_putTable, settings_putWay, implies_true, settings_ite, ite_self, settings_foldl']) <;>
    (repeat' (first
      | with_reducible rfl
      | (simp only [settings_putTable, settings_putWay, implies_true, settings_ite, ite_self, settings_foldl']; done)
      | (with_reducible refine (settings_foldl _ ?_ _ _).trans ?_)
      | (with_reducible refine (settings_foldl2 _ ?_ _ _).trans ?_)
      | (split <;> (try (rename_i h; first | (have h2 := congrArg Prod.snd h; simp only at h2; subst h2))))
      | (intro _)
      | (simp only [settings_putTable, settings_putWay, implies_true, settings_ite, ite_self, settings_foldl', *]; done)
      | (simp only [settings_putTable, settings_putWay, implies_true, settings_ite, ite_self, settings_foldl'])))
theorem settings_touchEntry (a0 a1 a2 : _) : (State.touchEntry a0 a1 a2).settings = a0.settings := by
  unfold State.touchEntry
  (try simp only [settings_cacheInsert, settings_putTable, settings_putWay, implies_true, settings_ite, ite_self, settings_foldl']) <;>
    (repeat' (first
      | with_reducible rfl
      | (simp only [settings_cacheInsert, settings_putTable, settings_putWay, implies_true, settings_ite, ite_self, settings_foldl']; done)
      | (with_reducible refine (settings_foldl _ ?_ _ _).trans ?_)
      | (with_reducible refine (settings_foldl2 _ ?_ _ _).trans ?_)
      | (split <;> (try (rename_i h; first | (have h2 := congrArg Prod.snd h; simp only at h2; subst h2))))
      | (intro _)
      | (simp only [settings_cacheInsert, settings_putTable, settings_putWay, implies_true, settings_ite, ite_self, settings_foldl', *]; done)
      | (simp only [settings_cacheInsert, settings_putTable, settings_putWay, implies_true, settings_ite, ite_self, settings_foldl'])))
theorem settings_queueShadow (a0 a1 a2 : _) : (State.queueShadow a0 a1 a2).settings = a0.settings := by
  unfold State.queueShadow
  split <;> simp only [settings_mapShank, settings_pmShank, implies_true]
theorem settings_setDirty (a0 a1 : _) : (State.setDirty a0 a1).settings = a0.settings := by
  unfold State.setDirty
  (repeat' split) <;> simp only [settings_queueShadow, settings_touchEntry, implies_true, settings_ite, ite_self]
theorem settings_addRepair (a0 a1 a2 a3 a4 : _) : (State.addRepair a0 a1 a2 a3 a4).settings = a0.settings := by
  unfold State.addRepair
  (try simp only [settings_mapCodec, implies_true, settings_ite, ite_self, settings_foldl']) <;>
    (repeat' (first
      | with_reducible rfl
      | (simp only [settings_mapCodec, implies_true, settings_ite, ite_self, settings_foldl']; done)
      | (with_reducible refine (settings_foldl _ ?_ _ _).trans ?_)
      | (with_reducible refine (settings_foldl2 _ ?_ _ _).trans ?_)
      | (split <;> (try (rename_i h; first | (have h2 := congrArg Prod.snd h; simp only at h2; subst h2))))
      | (intro _)
      | (simp only [settings_mapCodec, implies_true, settings_ite, ite_self, settings_foldl', *]; done)
      | (simp only [settings_mapCodec, implies_true, settings_ite, ite_self, settings_foldl'])))

/-! ### Machine/Lines.lean -/

theorem settings_setRaw (a0 a1 a2 a3 : _) : (State.setRaw a0 a1 a2 a3).settings = a0.settings := by
  unfold State.setRaw
  simp only [settings_mapDram]
theorem settings_setFrameRec (a0 a1 a2 : _) : (State.setFrameRec a0 a1 a2).settings = a0.settings := by
  unfold State.setFrameRec
  rw [settings_mapLast]
theorem settings_updFrameRec (a0 a1 a2 : _) : (State.updFrameRec a0 a1 a2).settings = a0.settings := by
  unfold State.updFrameRec
  rw [settings_setFrameRec]
theorem settings_markMember (a0 a1 a2 : _) : (State.markMember a0 a1 a2).settings = a0.settings := by
  unfold State.markMember
  split <;> simp only [settings_setUnit]
theorem settings_setParityRaw (a0 a1 a2 a3 a4 : _) : (State.setParityRaw a0 a1 a2 a3 a4).settings = a0.settings := by
  unfold State.setParityRaw
  (try simp only [settings_setRaw, implies_true, settings_ite, ite_self, settings_foldl']) <;>
    (repeat' (first
      | with_reducible rfl
      | (simp only [settings_setRaw, implies_true, settings_ite, ite_self, settings_foldl']; done)
      | (with_reducible refine (settings_foldl _ ?_ _ _).trans ?_)
      | (with_reducible refine (settings_foldl2 _ ?_ _ _).trans ?_)
      | (split <;> (try (rename_i h; first | (have h2 := congrArg Prod.snd h; simp only at h2; subst h2))))
      | (intro _)
      | (simp only [settings_setRaw, implies_true, settings_ite, ite_self, settings_foldl', *]; done)
      | (simp only [settings_setRaw, implies_true, settings_ite, ite_self, settings_foldl'])))
theorem settings_lineStored (a0 a1 a2 a3 : _) : (State.lineStored a0 a1 a2 a3).settings = a0.settings := by
  unfold State.lineStored
  (try simp only [settings_mapWelt, implies_true, settings_ite, ite_self, settings_foldl']) <;>
    (repeat' (first
      | with_reducible rfl
      | (simp only [settings_mapWelt, implies_true, settings_ite, ite_self, settings_foldl']; done)
      | (with_reducible refine (settings_foldl _ ?_ _ _).trans ?_)
      | (with_reducible refine (settings_foldl2 _ ?_ _ _).trans ?_)
      | (split <;> (try (rename_i h; first | (have h2 := congrArg Prod.snd h; simp only at h2; subst h2))))
      | (intro _)
      | (simp only [settings_mapWelt, implies_true, settings_ite, ite_self, settings_foldl', *]; done)
      | (simp only [settings_mapWelt, implies_true, settings_ite, ite_self, settings_foldl'])))
theorem settings_dropParity (a0 a1 a2 : _) : (State.dropParity a0 a1 a2).settings = a0.settings := by
  unfold State.dropParity
  (try simp only [settings_mapWelt, implies_true, settings_ite, ite_self, settings_foldl']) <;>
    (repeat' (first
      | with_reducible rfl
      | (simp only [settings_mapWelt, implies_true, settings_ite, ite_self, settings_foldl']; done)
      | (with_reducible refine (settings_foldl _ ?_ _ _).trans ?_)
      | (with_reducible refine (settings_foldl2 _ ?_ _ _).trans ?_)
      | (split <;> (try (rename_i h; first | (have h2 := congrArg Prod.snd h; simp only at h2; subst h2))))
      | (intro _)
      | (simp only [settings_mapWelt, implies_true, settings_ite, ite_self, settings_foldl', *]; done)
      | (simp only [settings_mapWelt, implies_true, settings_ite, ite_self, settings_foldl'])))
theorem settings_writeBackParity (a0 a1 : _) : (State.writeBackParity a0 a1).settings = a0.settings := by
  unfold State.writeBackParity
  (try simp only [settings_lineStored, settings_mapWelt, settings_markMember, settings_setRaw, implies_true, settings_ite, ite_self, settings_foldl']) <;>
    (repeat' (first
      | with_reducible rfl
      | (simp only [settings_lineStored, settings_mapWelt, settings_markMember, settings_setRaw, implies_true, settings_ite, ite_self, settings_foldl']; done)
      | (with_reducible refine (settings_foldl _ ?_ _ _).trans ?_)
      | (with_reducible refine (settings_foldl2 _ ?_ _ _).trans ?_)
      | (split <;> (try (rename_i h; first | (have h2 := congrArg Prod.snd h; simp only at h2; subst h2))))
      | (intro _)
      | (simp only [settings_lineStored, settings_mapWelt, settings_markMember, settings_setRaw, implies_true, settings_ite, ite_self, settings_foldl', *]; done)
      | (simp only [settings_lineStored, settings_mapWelt, settings_markMember, settings_setRaw, implies_true, settings_ite, ite_self, settings_foldl'])))
theorem settings_touchParity (a0 a1 a2 : _) : (State.touchParity a0 a1 a2).settings = a0.settings := by
  unfold State.touchParity
  (try simp only [settings_mapWelt, implies_true, settings_ite, ite_self, settings_foldl']) <;>
    (repeat' (first
      | with_reducible rfl
      | (simp only [settings_mapWelt, implies_true, settings_ite, ite_self, settings_foldl']; done)
      | (with_reducible refine (settings_foldl _ ?_ _ _).trans ?_)
      | (with_reducible refine (settings_foldl2 _ ?_ _ _).trans ?_)
      | (split <;> (try (rename_i h; first | (have h2 := congrArg Prod.snd h; simp only at h2; subst h2))))
      | (intro _)
      | (simp only [settings_mapWelt, implies_true, settings_ite, ite_self, settings_foldl', *]; done)
      | (simp only [settings_mapWelt, implies_true, settings_ite, ite_self, settings_foldl'])))
theorem settings_evictParity (a0 a1 a2 : _) : (State.evictParity a0 a1 a2).settings = a0.settings := by
  unfold State.evictParity
  (try simp only [settings_dropParity, settings_writeBackParity, implies_true, settings_ite, ite_self, settings_foldl']) <;>
    (repeat' (first
      | with_reducible rfl
      | (simp only [settings_dropParity, settings_writeBackParity, implies_true, settings_ite, ite_self, settings_foldl']; done)
      | (with_reducible refine (settings_foldl _ ?_ _ _).trans ?_)
      | (with_reducible refine (settings_foldl2 _ ?_ _ _).trans ?_)
      | (split <;> (try (rename_i h; first | (have h2 := congrArg Prod.snd h; simp only at h2; subst h2))))
      | (intro _)
      | (simp only [settings_dropParity, settings_writeBackParity, implies_true, settings_ite, ite_self, settings_foldl', *]; done)
      | (simp only [settings_dropParity, settings_writeBackParity, implies_true, settings_ite, ite_self, settings_foldl'])))
theorem settings_putParity (a0 a1 a2 a3 : _) : (State.putParity a0 a1 a2 a3).settings = a0.settings := by
  unfold State.putParity
  (try simp only [settings_evictParity, settings_mapWelt, settings_touchParity, implies_true, settings_ite, ite_self, settings_foldl']) <;>
    (repeat' (first
      | with_reducible rfl
      | (simp only [settings_evictParity, settings_mapWelt, settings_touchParity, implies_true, settings_ite, ite_self, settings_foldl']; done)
      | (with_reducible refine (settings_foldl _ ?_ _ _).trans ?_)
      | (with_reducible refine (settings_foldl2 _ ?_ _ _).trans ?_)
      | (split <;> (try (rename_i h; first | (have h2 := congrArg Prod.snd h; simp only at h2; subst h2))))
      | (intro _)
      | (simp only [settings_evictParity, settings_mapWelt, settings_touchParity, implies_true, settings_ite, ite_self, settings_foldl', *]; done)
      | (simp only [settings_evictParity, settings_mapWelt, settings_touchParity, implies_true, settings_ite, ite_self, settings_foldl'])))
theorem settings_withParity (s : State) (g line : Nat) (f : State → State) (h : ∀ u, (f u).settings = u.settings) :
    (State.withParity s g line f).settings = s.settings := by
  unfold State.withParity
  split
  · rfl
  · split
    · exact h s
    · rw [settings_markMember, settings_dropParity]
    · rfl
    · rfl
theorem settings_deltaParity (a0 a1 a2 a3 : _) : (State.deltaParity a0 a1 a2 a3).settings = a0.settings := by
  unfold State.deltaParity
  refine settings_withParity _ _ _ _ fun u => ?_
  (repeat' split) <;> simp only [settings_putParity]
theorem settings_storeMember (a0 a1 a2 a3 : _) : (State.storeMember a0 a1 a2 a3).settings = a0.settings := by
  unfold State.storeMember
  split <;> simp only [settings_lineStored, settings_markMember, settings_setRaw]
theorem settings_deltaWrite (a0 a1 a2 a3 a4 a5 : _) : (State.deltaWrite a0 a1 a2 a3 a4 a5).settings = a0.settings := by
  unfold State.deltaWrite
  simp only [settings_deltaParity, settings_storeMember]
theorem settings_coverParity (a0 a1 a2 a3 : _) : (State.coverParity a0 a1 a2 a3).settings = a0.settings := by
  unfold State.coverParity
  (try simp only [settings_putParity, settings_withParity, implies_true, settings_ite, ite_self, settings_foldl']) <;>
    (repeat' (first
      | with_reducible rfl
      | (simp only [settings_putParity, settings_withParity, implies_true, settings_ite, ite_self, settings_foldl']; done)
      | (with_reducible refine (settings_foldl _ ?_ _ _).trans ?_)
      | (with_reducible refine (settings_foldl2 _ ?_ _ _).trans ?_)
      | (split <;> (try (rename_i h; first | (have h2 := congrArg Prod.snd h; simp only at h2; subst h2))))
      | (intro _)
      | (simp only [settings_putParity, settings_withParity, implies_true, settings_ite, ite_self, settings_foldl', *]; done)
      | (simp only [settings_putParity, settings_withParity, implies_true, settings_ite, ite_self, settings_foldl'])))
theorem settings_rebuildFails (a0 a1 a2 a3 : _) : (State.rebuildFails a0 a1 a2 a3).settings = a0.settings := by
  unfold State.rebuildFails
  (try simp only [settings_countWelt, settings_raise, implies_true, settings_ite, ite_self, settings_foldl']) <;>
    (repeat' (first
      | with_reducible rfl
      | (simp only [settings_countWelt, settings_raise, implies_true, settings_ite, ite_self, settings_foldl']; done)
      | (with_reducible refine (settings_foldl _ ?_ _ _).trans ?_)
      | (with_reducible refine (settings_foldl2 _ ?_ _ _).trans ?_)
      | (split <;> (try (rename_i h; first | (have h2 := congrArg Prod.snd h; simp only at h2; subst h2))))
      | (intro _)
      | (simp only [settings_countWelt, settings_raise, implies_true, settings_ite, ite_self, settings_foldl', *]; done)
      | (simp only [settings_countWelt, settings_raise, implies_true, settings_ite, ite_self, settings_foldl'])))
theorem settings_poisonForm (a0 a1 a2 a3 : _) : (State.poisonForm a0 a1 a2 a3).2.settings = a0.settings := by
  unfold State.poisonForm
  (try simp only [settings_draw, implies_true, settings_ite, ite_self, settings_foldl']) <;>
    (repeat' (first
      | with_reducible rfl
      | (simp only [settings_draw, implies_true, settings_ite, ite_self, settings_foldl']; done)
      | (with_reducible refine (settings_foldl _ ?_ _ _).trans ?_)
      | (with_reducible refine (settings_foldl2 _ ?_ _ _).trans ?_)
      | (split <;> (try (rename_i h; first | (have h2 := congrArg Prod.snd h; simp only at h2; subst h2))))
      | (intro _)
      | (simp only [settings_draw, implies_true, settings_ite, ite_self, settings_foldl', *]; done)
      | (simp only [settings_draw, implies_true, settings_ite, ite_self, settings_foldl'])))
theorem settings_poisonMember (a0 a1 a2 : _) : (State.poisonMember a0 a1 a2).settings = a0.settings := by
  unfold State.poisonMember
  (try simp only [settings_addRepair, settings_poisonForm, settings_setDirty, settings_storeMember, implies_true, settings_ite, ite_self, settings_foldl']) <;>
    (repeat' (first
      | with_reducible rfl
      | (simp only [settings_addRepair, settings_poisonForm, settings_setDirty, settings_storeMember, implies_true, settings_ite, ite_self, settings_foldl']; done)
      | (with_reducible refine (settings_foldl _ ?_ _ _).trans ?_)
      | (with_reducible refine (settings_foldl2 _ ?_ _ _).trans ?_)
      | (split <;> (try (rename_i h; first | (have h2 := congrArg Prod.snd h; simp only at h2; subst h2))))
      | (intro _)
      | (simp only [settings_addRepair, settings_poisonForm, settings_setDirty, settings_storeMember, implies_true, settings_ite, ite_self, settings_foldl', *]; done)
      | (simp only [settings_addRepair, settings_poisonForm, settings_setDirty, settings_storeMember, implies_true, settings_ite, ite_self, settings_foldl'])))
theorem settings_writeOverLost (a0 a1 a2 a3 a4 a5 : _) : (State.writeOverLost a0 a1 a2 a3 a4 a5).settings = a0.settings := by
  unfold State.writeOverLost
  (try simp only [settings_poisonMember, settings_coverParity, settings_draw, settings_putParity, settings_storeMember, implies_true, settings_ite, ite_self,
    settings_foldl']) <;>
    (repeat' (first
      | with_reducible rfl
      | (simp only [settings_poisonMember, settings_coverParity, settings_draw, settings_putParity, settings_storeMember, implies_true, settings_ite, ite_self,
        settings_foldl']; done)
      | (with_reducible refine (settings_foldl _ ?_ _ _).trans ?_)
      | (with_reducible refine (settings_foldl2 _ ?_ _ _).trans ?_)
      | (split <;> (try (rename_i h; first | (have h2 := congrArg Prod.snd h; simp only at h2; subst h2))))
      | (intro _)
      | (simp only [settings_poisonMember, settings_coverParity, settings_draw, settings_putParity, settings_storeMember, implies_true, settings_ite, ite_self,
        settings_foldl', *]; done)
      | (simp only [settings_poisonMember, settings_coverParity, settings_draw, settings_putParity, settings_storeMember, implies_true, settings_ite, ite_self,
        settings_foldl'])))
theorem settings_writeLine (a0 a1 a2 a3 a4 : _) : (State.writeLine a0 a1 a2 a3 a4).settings = a0.settings := by
  unfold State.writeLine
  split <;> simp only [settings_writeOverLost, settings_rebuildFails, settings_deltaWrite, settings_storeMember]
theorem settings_poisonLine (a0 a1 a2 a3 : _) : (State.poisonLine a0 a1 a2 a3).settings = a0.settings := by
  unfold State.poisonLine
  (try simp only [settings_coverParity, settings_deltaParity, settings_poisonForm, settings_storeMember, implies_true, settings_ite, ite_self, settings_foldl']) <;>
    (repeat' (first
      | with_reducible rfl
      | (simp only [settings_coverParity, settings_deltaParity, settings_poisonForm, settings_storeMember, implies_true, settings_ite, ite_self, settings_foldl']; done)
      | (with_reducible refine (settings_foldl _ ?_ _ _).trans ?_)
      | (with_reducible refine (settings_foldl2 _ ?_ _ _).trans ?_)
      | (split <;> (try (rename_i h; first | (have h2 := congrArg Prod.snd h; simp only at h2; subst h2))))
      | (intro _)
      | (simp only [settings_coverParity, settings_deltaParity, settings_poisonForm, settings_storeMember, implies_true, settings_ite, ite_self, settings_foldl',
        *]; done)
      | (simp only [settings_coverParity, settings_deltaParity, settings_poisonForm, settings_storeMember, implies_true, settings_ite, ite_self, settings_foldl'])))
theorem settings_zeroFrame (a0 a1 : _) : (State.zeroFrame a0 a1).settings = a0.settings := by
  unfold State.zeroFrame
  exact settings_foldl _ (fun _ _ => by (repeat' split) <;> simp only [settings_writeLine, implies_true]) _ _

/-! ### Machine/Image.lean -/

theorem settings_writeImage (a0 a1 : _) : (State.writeImage a0 a1).settings = a0.settings := by
  unfold State.writeImage
  (try simp only [settings_emit, implies_true, settings_ite, ite_self, settings_foldl']) <;>
    (repeat' (first
      | with_reducible rfl
      | (simp only [settings_emit, implies_true, settings_ite, ite_self, settings_foldl']; done)
      | (with_reducible refine (settings_foldl _ ?_ _ _).trans ?_)
      | (with_reducible refine (settings_foldl2 _ ?_ _ _).trans ?_)
      | (split <;> (try (rename_i h; first | (have h2 := congrArg Prod.snd h; simp only at h2; subst h2))))
      | (intro _)
      | (simp only [settings_emit, implies_true, settings_ite, ite_self, settings_foldl', *]; done)
      | (simp only [settings_emit, implies_true, settings_ite, ite_self, settings_foldl'])))

/-! ### Machine/Pages.lean -/

theorem settings_breakSpan (a0 a1 : _) : (State.breakSpan a0 a1).settings = a0.settings := by
  unfold State.breakSpan
  generalize spanPages a1 = l
  split
  · generalize hu : List.foldl (fun (s : State) d => s.putEntry d { s.entry d with span := false }) a0 l = u
    have h : u.settings = a0.settings := by rw [← hu]; exact settings_foldl _ (fun _ _ => settings_putEntry _ _ _) _ _
    clear hu
    dsimp only
    split
    · exact (settings_updCacheSet _ _ _).trans h
    · exact h
  · rfl
theorem settings_formSpan (a0 a1 : _) : (State.formSpan a0 a1).settings = a0.settings := by
  unfold State.formSpan
  simp only [settings_cacheInsert, settings_putEntry, implies_true, settings_ite, ite_self, settings_foldl']
theorem settings_setReserved (a0 a1 a2 : _) : (State.setReserved a0 a1 a2).settings = a0.settings := by
  unfold State.setReserved
  (try simp only [settings_mapTier, implies_true, settings_ite, ite_self, settings_foldl']) <;>
    (repeat' (first
      | with_reducible rfl
      | (simp only [settings_mapTier, implies_true, settings_ite, ite_self, settings_foldl']; done)
      | (with_reducible refine (settings_foldl _ ?_ _ _).trans ?_)
      | (with_reducible refine (settings_foldl2 _ ?_ _ _).trans ?_)
      | (split <;> (try (rename_i h; first | (have h2 := congrArg Prod.snd h; simp only at h2; subst h2))))
      | (intro _)
      | (simp only [settings_mapTier, implies_true, settings_ite, ite_self, settings_foldl', *]; done)
      | (simp only [settings_mapTier, implies_true, settings_ite, ite_self, settings_foldl'])))
theorem settings_reserveRun (a0 a1 : _) : (State.reserveRun a0 a1).settings = a0.settings := by
  unfold State.reserveRun
  (try simp only [settings_setReserved, implies_true, settings_ite, ite_self, settings_foldl']) <;>
    (repeat' (first
      | with_reducible rfl
      | (simp only [settings_setReserved, implies_true, settings_ite, ite_self, settings_foldl']; done)
      | (with_reducible refine (settings_foldl _ ?_ _ _).trans ?_)
      | (with_reducible refine (settings_foldl2 _ ?_ _ _).trans ?_)
      | (split <;> (try (rename_i h; first | (have h2 := congrArg Prod.snd h; simp only at h2; subst h2))))
      | (intro _)
      | (simp only [settings_setReserved, implies_true, settings_ite, ite_self, settings_foldl', *]; done)
      | (simp only [settings_setReserved, implies_true, settings_ite, ite_self, settings_foldl'])))
theorem settings_afterFree (a0 : _) : (State.afterFree a0).settings = a0.settings := by
  unfold State.afterFree
  simp only [settings_mapTier, implies_true]
theorem settings_endReserved (a0 a1 a2 : _) : (State.endReserved a0 a1 a2).settings = a0.settings := by
  unfold State.endReserved
  (try simp only [settings_setReserved, implies_true, settings_ite, ite_self, settings_foldl']) <;>
    (repeat' (first
      | with_reducible rfl
      | (simp only [settings_setReserved, implies_true, settings_ite, ite_self, settings_foldl']; done)
      | (with_reducible refine (settings_foldl _ ?_ _ _).trans ?_)
      | (with_reducible refine (settings_foldl2 _ ?_ _ _).trans ?_)
      | (split <;> (try (rename_i h; first | (have h2 := congrArg Prod.snd h; simp only at h2; subst h2))))
      | (intro _)
      | (simp only [settings_setReserved, implies_true, settings_ite, ite_self, settings_foldl', *]; done)
      | (simp only [settings_setReserved, implies_true, settings_ite, ite_self, settings_foldl'])))
theorem settings_takeFrame {s : State} {a b : _} {r : Nat × State} (h : s.takeFrame a b = some r) : r.2.settings = s.settings := by
  unfold State.takeFrame at h
  split at h; · simp only [reduceCtorEq] at h
  split at h; · simp only [reduceCtorEq] at h
  simp only [Option.some.injEq] at h; subst h
  simp only [settings_endReserved, settings_afterFree, settings_setFrameRec, settings_mapTier, implies_true]
theorem settings_takeEmergency {s : State} {a b : _} {r : Nat × State} (h : s.takeEmergency a b = some r) : r.2.settings = s.settings := by
  unfold State.takeEmergency at h
  split at h; · simp only [reduceCtorEq] at h
  split at h; · simp only [reduceCtorEq] at h
  simp only [Option.some.injEq] at h; subst h
  simp only [settings_endReserved, settings_setFrameRec, settings_mapTier, implies_true]
theorem settings_freeFrame (a0 a1 : _) : (State.freeFrame a0 a1).settings = a0.settings := by
  unfold State.freeFrame
  (repeat' split) <;> simp only [settings_mapWelt, settings_afterFree, settings_mapTier, settings_setFrameRec, settings_zeroFrame, implies_true, settings_ite, ite_self]
theorem settings_addToBin (a0 a1 a2 a3 : _) : (State.addToBin a0 a1 a2 a3).settings = a0.settings := by
  unfold State.addToBin
  simp only [settings_updFrameRec]
theorem settings_removeFromBin (a0 a1 a2 a3 : _) : (State.removeFromBin a0 a1 a2 a3).settings = a0.settings := by
  unfold State.removeFromBin
  (repeat' split) <;> simp only [settings_freeFrame, settings_setFrameRec, implies_true, settings_ite, ite_self]
theorem settings_releaseStorage (a0 a1 a2 : _) : (State.releaseStorage a0 a1 a2).settings = a0.settings := by
  unfold State.releaseStorage
  (repeat' split) <;> simp only [settings_freeFrame, settings_removeFromBin, implies_true]
theorem settings_abandon (a0 a1 : _) : (State.abandon a0 a1).settings = a0.settings := by
  unfold State.abandon
  (repeat' split) <;> simp only [settings_freeFrame, settings_pmLast, settings_putEntry, settings_removeFromBin, settings_setTracker, implies_true]
theorem settings_keyPages (a0 a1 a2 : _) : (State.keyPages a0 a1 a2).settings = a0.settings := by
  unfold State.keyPages
  simp only [settings_updSlot]
theorem settings_wrapKeys (a0 : _) : (State.wrapKeys a0).settings = a0.settings := by
  unfold State.wrapKeys
  simp only [settings_writeImage, settings_mapImage, settings_updSlot, implies_true, settings_ite, ite_self, settings_foldl']
theorem settings_emptySlot (a0 a1 : _) : (State.emptySlot a0 a1).settings = a0.settings := by
  unfold State.emptySlot
  (repeat' split) <;> simp only [settings_setSlot, settings_wrapKeys, implies_true, settings_ite, ite_self]
theorem settings_slotZero (a0 a1 : _) : (State.slotZero a0 a1).settings = a0.settings := by
  unfold State.slotZero
  (repeat' split) <;> simp only [settings_emptySlot, settings_setSlot, implies_true, settings_ite, ite_self]
theorem settings_dropPage (a0 a1 a2 : _) : (State.dropPage a0 a1 a2).settings = a0.settings := by
  unfold State.dropPage
  split <;> simp only [settings_mapCodec, settings_mapTier, implies_true]
theorem settings_clearCompat (a0 a1 : _) : (State.clearCompat a0 a1).settings = a0.settings := by
  unfold State.clearCompat
  exact settings_foldl _ (fun _ _ => by (repeat' split) <;> simp only [settings_setCompat, implies_true]) _ _
theorem settings_toUnwritten (a0 a1 a2 : _) : (State.toUnwritten a0 a1 a2).settings = a0.settings := by
  unfold State.toUnwritten
  (repeat' split) <;> simp only [settings_abandon, settings_breakSpan, settings_clearCompat, settings_dropPage, settings_keyPages, settings_putEntry,
    settings_queueShadow, settings_releaseStorage, settings_slotZero, implies_true, settings_ite, ite_self]
theorem settings_toLost (a0 a1 : _) : (State.toLost a0 a1).settings = a0.settings := by
  unfold State.toLost
  (repeat' split) <;> simp only [settings_abandon, settings_breakSpan, settings_dropPage, settings_putEntry, settings_queueShadow, settings_releaseStorage,
    implies_true, settings_ite, ite_self]
theorem settings_toZero (a0 a1 a2 a3 a4 : _) : (State.toZero a0 a1 a2 a3 a4).settings = a0.settings := by
  unfold State.toZero
  (try simp only [settings_abandon, settings_breakSpan, settings_clearCompat, settings_dropPage, settings_keyPages, settings_putEntry, settings_releaseStorage,
    settings_setDirty, implies_true, settings_ite, ite_self, settings_foldl']) <;>
    (repeat' (first
      | with_reducible rfl
      | (simp only [settings_abandon, settings_breakSpan, settings_clearCompat, settings_dropPage, settings_keyPages, settings_putEntry, settings_releaseStorage,
        settings_setDirty, implies_true, settings_ite, ite_self, settings_foldl']; done)
      | (with_reducible refine (settings_foldl _ ?_ _ _).trans ?_)
      | (with_reducible refine (settings_foldl2 _ ?_ _ _).trans ?_)
      | (split <;> (try (rename_i h; first | (have h2 := congrArg Prod.snd h; simp only at h2; subst h2))))
      | (intro _)
      | (simp only [settings_abandon, settings_breakSpan, settings_clearCompat, settings_dropPage, settings_keyPages, settings_putEntry, settings_releaseStorage,
        settings_setDirty, implies_true, settings_ite, ite_self, settings_foldl', *]; done)
      | (simp only [settings_abandon, settings_breakSpan, settings_clearCompat, settings_dropPage, settings_keyPages, settings_putEntry, settings_releaseStorage,
        settings_setDirty, implies_true, settings_ite, ite_self, settings_foldl'])))
theorem settings_toHot (a0 a1 a2 a3 a4 a5 : _) : (State.toHot a0 a1 a2 a3 a4 a5).settings = a0.settings := by
  unfold State.toHot
  (try simp only [settings_formSpan, settings_keyPages, settings_poisonLine, settings_putEntry, implies_true, settings_ite, ite_self, settings_foldl']) <;>
    (repeat' (first
      | with_reducible rfl
      | (simp only [settings_formSpan, settings_keyPages, settings_poisonLine, settings_putEntry, implies_true, settings_ite, ite_self, settings_foldl']; done)
      | (with_reducible refine (settings_foldl _ ?_ _ _).trans ?_)
      | (with_reducible refine (settings_foldl2 _ ?_ _ _).trans ?_)
      | (split <;> (try (rename_i h; first | (have h2 := congrArg Prod.snd h; simp only at h2; subst h2))))
      | (intro _)
      | (simp only [settings_formSpan, settings_keyPages, settings_poisonLine, settings_putEntry, implies_true, settings_ite, ite_self, settings_foldl', *]; done)
      | (simp only [settings_formSpan, settings_keyPages, settings_poisonLine, settings_putEntry, implies_true, settings_ite, ite_self, settings_foldl'])))
theorem settings_writeHotLine (a0 a1 a2 a3 a4 a5 : _) : (State.writeHotLine a0 a1 a2 a3 a4 a5).settings = a0.settings := by
  unfold State.writeHotLine
  split <;> simp only [settings_pmCrypto, settings_poisonLine, settings_writeLine]
theorem settings_fillHot (a0 a1 a2 a3 a4 : _) : (State.fillHot a0 a1 a2 a3 a4).settings = a0.settings := by
  unfold State.fillHot
  exact settings_foldl _ (fun _ _ => by (repeat' split) <;> simp only [settings_writeHotLine, implies_true]) _ _
theorem settings_fillChunk (a0 a1 a2 a3 a4 a5 a6 : _) : (State.fillChunk a0 a1 a2 a3 a4 a5 a6).settings = a0.settings := by
  unfold State.fillChunk
  (try simp only [settings_pmCrypto, settings_poisonLine, settings_writeLine, implies_true, settings_ite, ite_self, settings_foldl']) <;>
    (repeat' (first
      | with_reducible rfl
      | (simp only [settings_pmCrypto, settings_poisonLine, settings_writeLine, implies_true, settings_ite, ite_self, settings_foldl']; done)
      | (with_reducible refine (settings_foldl _ ?_ _ _).trans ?_)
      | (with_reducible refine (settings_foldl2 _ ?_ _ _).trans ?_)
      | (split <;> (try (rename_i h; first | (have h2 := congrArg Prod.snd h; simp only at h2; subst h2))))
      | (intro _)
      | (simp only [settings_pmCrypto, settings_poisonLine, settings_writeLine, implies_true, settings_ite, ite_self, settings_foldl', *]; done)
      | (simp only [settings_pmCrypto, settings_poisonLine, settings_writeLine, implies_true, settings_ite, ite_self, settings_foldl'])))

/-! ### Machine/Wire.lean -/

theorem settings_updSide (a0 a1 a2 a3 : _) : (State.updSide a0 a1 a2 a3).settings = a0.settings := by
  unfold State.updSide
  simp only [settings_updLaceMod]
theorem settings_updBoth (a0 a1 a2 : _) : (State.updBoth a0 a1 a2).settings = a0.settings := by
  unfold State.updBoth
  simp only [settings_updSide]
theorem settings_sendFlit (a0 a1 a2 a3 : _) : (State.sendFlit a0 a1 a2 a3).settings = a0.settings := by
  unfold State.sendFlit
  (try simp only [settings_emit, implies_true, settings_ite, ite_self, settings_foldl']) <;>
    (repeat' (first
      | with_reducible rfl
      | (simp only [settings_emit, implies_true, settings_ite, ite_self, settings_foldl']; done)
      | (with_reducible refine (settings_foldl _ ?_ _ _).trans ?_)
      | (with_reducible refine (settings_foldl2 _ ?_ _ _).trans ?_)
      | (split <;> (try (rename_i h; first | (have h2 := congrArg Prod.snd h; simp only at h2; subst h2))))
      | (intro _)
      | (simp only [settings_emit, implies_true, settings_ite, ite_self, settings_foldl', *]; done)
      | (simp only [settings_emit, implies_true, settings_ite, ite_self, settings_foldl'])))
theorem settings_fillSlots (n : Nat) (s : State) : (State.fillSlots n s).settings = s.settings := by
  induction n generalizing s with
  | zero => rfl
  | succ n ih =>
    unfold State.fillSlots
    split; · rfl
    dsimp only
    split; · rfl
    split; · rfl
    split; · rfl
    simp only [ih, settings_pmPoq, settings_updPoqLd, settings_setCtx]
theorem settings_sendNext (a0 a1 a2 : _) : (State.sendNext a0 a1 a2).settings = a0.settings := by
  unfold State.sendNext
  (try simp only [settings_fillSlots, settings_pmLace, settings_sendFlit, settings_updSide, implies_true, settings_ite, ite_self, settings_foldl']) <;>
    (repeat' (first
      | with_reducible rfl
      | (simp only [settings_fillSlots, settings_pmLace, settings_sendFlit, settings_updSide, implies_true, settings_ite, ite_self, settings_foldl']; done)
      | (with_reducible refine (settings_foldl _ ?_ _ _).trans ?_)
      | (with_reducible refine (settings_foldl2 _ ?_ _ _).trans ?_)
      | (split <;> (try (rename_i h; first | (have h2 := congrArg Prod.snd h; simp only at h2; subst h2))))
      | (intro _)
      | (simp only [settings_fillSlots, settings_pmLace, settings_sendFlit, settings_updSide, implies_true, settings_ite, ite_self, settings_foldl', *]; done)
      | (simp only [settings_fillSlots, settings_pmLace, settings_sendFlit, settings_updSide, implies_true, settings_ite, ite_self, settings_foldl'])))
theorem settings_sendSome (a0 a1 a2 a3 : _) : (State.sendSome a0 a1 a2 a3).settings = a0.settings := by
  unfold State.sendSome
  (try simp only [settings_sendNext, implies_true, settings_ite, ite_self, settings_foldl']) <;>
    (repeat' (first
      | with_reducible rfl
      | (simp only [settings_sendNext, implies_true, settings_ite, ite_self, settings_foldl']; done)
      | (with_reducible refine (settings_foldl _ ?_ _ _).trans ?_)
      | (with_reducible refine (settings_foldl2 _ ?_ _ _).trans ?_)
      | (split <;> (try (rename_i h; first | (have h2 := congrArg Prod.snd h; simp only at h2; subst h2))))
      | (intro _)
      | (simp only [settings_sendNext, implies_true, settings_ite, ite_self, settings_foldl', *]; done)
      | (simp only [settings_sendNext, implies_true, settings_ite, ite_self, settings_foldl'])))
theorem settings_sendReady (a0 a1 a2 : _) : (State.sendReady a0 a1 a2).settings = a0.settings := by
  unfold State.sendReady
  (try simp only [settings_sendSome, implies_true, settings_ite, ite_self, settings_foldl']) <;>
    (repeat' (first
      | with_reducible rfl
      | (simp only [settings_sendSome, implies_true, settings_ite, ite_self, settings_foldl']; done)
      | (with_reducible refine (settings_foldl _ ?_ _ _).trans ?_)
      | (with_reducible refine (settings_foldl2 _ ?_ _ _).trans ?_)
      | (split <;> (try (rename_i h; first | (have h2 := congrArg Prod.snd h; simp only at h2; subst h2))))
      | (intro _)
      | (simp only [settings_sendSome, implies_true, settings_ite, ite_self, settings_foldl', *]; done)
      | (simp only [settings_sendSome, implies_true, settings_ite, ite_self, settings_foldl'])))
theorem settings_post (a0 a1 a2 a3 : _) : (State.post a0 a1 a2 a3).settings = a0.settings := by
  unfold State.post
  (try simp only [settings_sendReady, settings_updSide, implies_true, settings_ite, ite_self, settings_foldl']) <;>
    (repeat' (first
      | with_reducible rfl
      | (simp only [settings_sendReady, settings_updSide, implies_true, settings_ite, ite_self, settings_foldl']; done)
      | (with_reducible refine (settings_foldl _ ?_ _ _).trans ?_)
      | (with_reducible refine (settings_foldl2 _ ?_ _ _).trans ?_)
      | (split <;> (try (rename_i h; first | (have h2 := congrArg Prod.snd h; simp only at h2; subst h2))))
      | (intro _)
      | (simp only [settings_sendReady, settings_updSide, implies_true, settings_ite, ite_self, settings_foldl', *]; done)
      | (simp only [settings_sendReady, settings_updSide, implies_true, settings_ite, ite_self, settings_foldl'])))
theorem settings_sendCtrl (a0 a1 a2 a3 a4 a5 : _) : (State.sendCtrl a0 a1 a2 a3 a4 a5).settings = a0.settings := by
  unfold State.sendCtrl
  simp only [settings_updSide, settings_sendFlit, settings_emit, settings_updLaceMod]
theorem settings_sendTrain (a0 a1 a2 a3 a4 : _) : (State.sendTrain a0 a1 a2 a3 a4).settings = a0.settings := by
  unfold State.sendTrain
  (try simp only [settings_sendFlit, implies_true, settings_ite, ite_self, settings_foldl']) <;>
    (repeat' (first
      | with_reducible rfl
      | (simp only [settings_sendFlit, implies_true, settings_ite, ite_self, settings_foldl']; done)
      | (with_reducible refine (settings_foldl _ ?_ _ _).trans ?_)
      | (with_reducible refine (settings_foldl2 _ ?_ _ _).trans ?_)
      | (split <;> (try (rename_i h; first | (have h2 := congrArg Prod.snd h; simp only at h2; subst h2))))
      | (intro _)
      | (simp only [settings_sendFlit, implies_true, settings_ite, ite_self, settings_foldl', *]; done)
      | (simp only [settings_sendFlit, implies_true, settings_ite, ite_self, settings_foldl'])))
theorem settings_beginTraining (a0 a1 : _) : (State.beginTraining a0 a1).settings = a0.settings := by
  unfold State.beginTraining
  (try simp only [settings_sendTrain, implies_true, settings_ite, ite_self, settings_foldl']) <;>
    (repeat' (first
      | with_reducible rfl
      | (simp only [settings_sendTrain, implies_true, settings_ite, ite_self, settings_foldl']; done)
      | (with_reducible refine (settings_foldl _ ?_ _ _).trans ?_)
      | (with_reducible refine (settings_foldl2 _ ?_ _ _).trans ?_)
      | (split <;> (try (rename_i h; first | (have h2 := congrArg Prod.snd h; simp only at h2; subst h2))))
      | (intro _)
      | (simp only [settings_sendTrain, implies_true, settings_ite, ite_self, settings_foldl', *]; done)
      | (simp only [settings_sendTrain, implies_true, settings_ite, ite_self, settings_foldl'])))

/-! ### Machine/Load.lean -/

theorem settings_recomputeUsable (a0 : _) : (State.recomputeUsable a0).settings = a0.settings := by
  unfold State.recomputeUsable
  simp only [settings_mapReg, implies_true]
theorem settings_charge (a0 a1 a2 : _) : (State.charge a0 a1 a2).settings = a0.settings := by
  unfold State.charge
  simp only [settings_updMaster]
theorem settings_issue (a0 a1 : _) : (State.issue a0 a1).settings = a0.settings := by
  unfold State.issue
  dsimp only
  rw [settings_emit, settings_post, settings_mapReg, settings_updMaster, settings_charge]
  split
  · exact settings_mapReg _ _ (fun _ => rfl) (fun _ => rfl) (fun _ => rfl)
  · rfl
  all_goals exact fun _ => rfl
theorem settings_arbitrate (n : Nat) (s : State) : (State.arbitrate n s).settings = s.settings := by
  induction n generalizing s with
  | zero => rfl
  | succ n ih => unfold State.arbitrate; split <;> simp only [ih, settings_issue]
theorem settings_enterArbiter (a0 a1 : _) : (State.enterArbiter a0 a1).settings = a0.settings := by
  unfold State.enterArbiter
  simp only [settings_arbitrate, settings_mapReg, implies_true]
theorem settings_completeOne (a0 a1 : _) : (State.completeOne a0 a1).settings = a0.settings := by
  unfold State.completeOne
  simp only [settings_arbitrate, settings_updMaster]
theorem settings_respond (a0 a1 a2 : _) : (State.respond a0 a1 a2).settings = a0.settings := by
  unfold State.respond
  (repeat' split) <;> simp only [settings_countReg, settings_emit, implies_true, settings_ite, ite_self]
theorem settings_respondData (a0 a1 a2 a3 : _) : (State.respondData a0 a1 a2 a3).settings = a0.settings := by
  unfold State.respondData
  split <;> simp only [settings_pmCxl, settings_draw, settings_respond]
theorem settings_respondDone (a0 a1 a2 : _) : (State.respondDone a0 a1 a2).settings = a0.settings := by
  unfold State.respondDone
  simp only [settings_pmCxl, settings_respond]
theorem settings_writeSample (a0 a1 a2 a3 : _) : (State.writeSample a0 a1 a2 a3).settings = a0.settings := by
  unfold State.writeSample
  split
  · rfl
  · dsimp only
    split
    · exact settings_updPerfFn _ _ _
    · exact (settings_updPerfFn _ _ _).trans ((settings_emit _ _).trans (settings_draw _))
theorem settings_updReq (a0 a1 a2 : _) : (State.updReq a0 a1 a2).settings = a0.settings := by
  unfold State.updReq
  simp only [settings_mapPath]
theorem settings_dropReq (a0 a1 : _) : (State.dropReq a0 a1).settings = a0.settings := by
  unfold State.dropReq
  simp only [settings_mapPath]
theorem settings_setPhase (a0 a1 a2 : _) : (State.setPhase a0 a1 a2).settings = a0.settings := by
  unfold State.setPhase
  simp only [settings_updReq]
theorem settings_finishRead (a0 a1 a2 a3 : _) : (State.finishRead a0 a1 a2 a3).settings = a0.settings := by
  unfold State.finishRead
  (repeat' split) <;> simp only [settings_dropReq, settings_pmPort, settings_respondData, settings_writeSample, implies_true]
theorem settings_finishWrite (a0 a1 : _) : (State.finishWrite a0 a1).settings = a0.settings := by
  unfold State.finishWrite
  simp only [settings_dropReq, settings_respondDone, settings_writeSample]
theorem settings_failReq (a0 a1 : _) : (State.failReq a0 a1).settings = a0.settings := by
  unfold State.failReq
  split <;> simp only [settings_finishRead, settings_finishWrite]

/-! ### Machine/L2.lean -/

theorem settings_setL2 (a0 a1 a2 : _) : (State.setL2 a0 a1 a2).settings = a0.settings := by
  unfold State.setL2
  (try simp only [settings_mapWorld, implies_true, settings_ite, ite_self, settings_foldl']) <;>
    (repeat' (first
      | with_reducible rfl
      | (simp only [settings_mapWorld, implies_true, settings_ite, ite_self, settings_foldl']; done)
      | (with_reducible refine (settings_foldl _ ?_ _ _).trans ?_)
      | (with_reducible refine (settings_foldl2 _ ?_ _ _).trans ?_)
      | (split <;> (try (rename_i h; first | (have h2 := congrArg Prod.snd h; simp only at h2; subst h2))))
      | (intro _)
      | (simp only [settings_mapWorld, implies_true, settings_ite, ite_self, settings_foldl', *]; done)
      | (simp only [settings_mapWorld, implies_true, settings_ite, ite_self, settings_foldl'])))
theorem settings_l2Charge (a0 a1 a2 : _) : (State.l2Charge a0 a1 a2).settings = a0.settings := by
  unfold State.l2Charge
  (try simp only [settings_charge, implies_true, settings_ite, ite_self, settings_foldl']) <;>
    (repeat' (first
      | with_reducible rfl
      | (simp only [settings_charge, implies_true, settings_ite, ite_self, settings_foldl']; done)
      | (with_reducible refine (settings_foldl _ ?_ _ _).trans ?_)
      | (with_reducible refine (settings_foldl2 _ ?_ _ _).trans ?_)
      | (split <;> (try (rename_i h; first | (have h2 := congrArg Prod.snd h; simp only at h2; subst h2))))
      | (intro _)
      | (simp only [settings_charge, implies_true, settings_ite, ite_self, settings_foldl', *]; done)
      | (simp only [settings_charge, implies_true, settings_ite, ite_self, settings_foldl'])))
theorem settings_l2Drop (a0 a1 a2 : _) : (State.l2Drop a0 a1 a2).settings = a0.settings := by
  unfold State.l2Drop
  (try simp only [settings_l2Charge, settings_setL2, implies_true, settings_ite, ite_self, settings_foldl']) <;>
    (repeat' (first
      | with_reducible rfl
      | (simp only [settings_l2Charge, settings_setL2, implies_true, settings_ite, ite_self, settings_foldl']; done)
      | (with_reducible refine (settings_foldl _ ?_ _ _).trans ?_)
      | (with_reducible refine (settings_foldl2 _ ?_ _ _).trans ?_)
      | (split <;> (try (rename_i h; first | (have h2 := congrArg Prod.snd h; simp only at h2; subst h2))))
      | (intro _)
      | (simp only [settings_l2Charge, settings_setL2, implies_true, settings_ite, ite_self, settings_foldl', *]; done)
      | (simp only [settings_l2Charge, settings_setL2, implies_true, settings_ite, ite_self, settings_foldl'])))
theorem settings_l2Clear (a0 a1 a2 : _) : (State.l2Clear a0 a1 a2).settings = a0.settings := by
  unfold State.l2Clear
  (try simp only [settings_l2Drop, implies_true, settings_ite, ite_self, settings_foldl']) <;>
    (repeat' (first
      | with_reducible rfl
      | (simp only [settings_l2Drop, implies_true, settings_ite, ite_self, settings_foldl']; done)
      | (with_reducible refine (settings_foldl _ ?_ _ _).trans ?_)
      | (with_reducible refine (settings_foldl2 _ ?_ _ _).trans ?_)
      | (split <;> (try (rename_i h; first | (have h2 := congrArg Prod.snd h; simp only at h2; subst h2))))
      | (intro _)
      | (simp only [settings_l2Drop, implies_true, settings_ite, ite_self, settings_foldl', *]; done)
      | (simp only [settings_l2Drop, implies_true, settings_ite, ite_self, settings_foldl'])))
theorem settings_l2Page (a0 a1 : _) : (State.l2Page a0 a1).settings = a0.settings := by
  unfold State.l2Page
  (try simp only [settings_l2Clear, implies_true, settings_ite, ite_self, settings_foldl']) <;>
    (repeat' (first
      | with_reducible rfl
      | (simp only [settings_l2Clear, implies_true, settings_ite, ite_self, settings_foldl']; done)
      | (with_reducible refine (settings_foldl _ ?_ _ _).trans ?_)
      | (with_reducible refine (settings_foldl2 _ ?_ _ _).trans ?_)
      | (split <;> (try (rename_i h; first | (have h2 := congrArg Prod.snd h; simp only at h2; subst h2))))
      | (intro _)
      | (simp only [settings_l2Clear, implies_true, settings_ite, ite_self, settings_foldl', *]; done)
      | (simp only [settings_l2Clear, implies_true, settings_ite, ite_self, settings_foldl'])))
theorem settings_l2SecureOut (a0 : _) : (State.l2SecureOut a0).settings = a0.settings := by
  unfold State.l2SecureOut
  (try simp only [settings_l2Clear, implies_true, settings_ite, ite_self, settings_foldl']) <;>
    (repeat' (first
      | with_reducible rfl
      | (simp only [settings_l2Clear, implies_true, settings_ite, ite_self, settings_foldl']; done)
      | (with_reducible refine (settings_foldl _ ?_ _ _).trans ?_)
      | (with_reducible refine (settings_foldl2 _ ?_ _ _).trans ?_)
      | (split <;> (try (rename_i h; first | (have h2 := congrArg Prod.snd h; simp only at h2; subst h2))))
      | (intro _)
      | (simp only [settings_l2Clear, implies_true, settings_ite, ite_self, settings_foldl', *]; done)
      | (simp only [settings_l2Clear, implies_true, settings_ite, ite_self, settings_foldl'])))
theorem settings_l2NormalOut (a0 : _) : (State.l2NormalOut a0).settings = a0.settings := by
  unfold State.l2NormalOut
  (try simp only [settings_l2Clear, implies_true, settings_ite, ite_self, settings_foldl']) <;>
    (repeat' (first
      | with_reducible rfl
      | (simp only [settings_l2Clear, implies_true, settings_ite, ite_self, settings_foldl']; done)
      | (with_reducible refine (settings_foldl _ ?_ _ _).trans ?_)
      | (with_reducible refine (settings_foldl2 _ ?_ _ _).trans ?_)
      | (split <;> (try (rename_i h; first | (have h2 := congrArg Prod.snd h; simp only at h2; subst h2))))
      | (intro _)
      | (simp only [settings_l2Clear, implies_true, settings_ite, ite_self, settings_foldl', *]; done)
      | (simp only [settings_l2Clear, implies_true, settings_ite, ite_self, settings_foldl'])))
theorem settings_l2Room (a0 a1 a2 a3 : _) : (State.l2Room a0 a1 a2 a3).2.settings = a0.settings := by
  unfold State.l2Room
  (try simp only [settings_draw, settings_l2Drop, implies_true, settings_ite, ite_self, settings_foldl']) <;>
    (repeat' (first
      | with_reducible rfl
      | (simp only [settings_draw, settings_l2Drop, implies_true, settings_ite, ite_self, settings_foldl']; done)
      | (with_reducible refine (settings_foldl _ ?_ _ _).trans ?_)
      | (with_reducible refine (settings_foldl2 _ ?_ _ _).trans ?_)
      | (split <;> (try (rename_i h; first | (have h2 := congrArg Prod.snd h; simp only at h2; subst h2))))
      | (intro _)
      | (simp only [settings_draw, settings_l2Drop, implies_true, settings_ite, ite_self, settings_foldl', *]; done)
      | (simp only [settings_draw, settings_l2Drop, implies_true, settings_ite, ite_self, settings_foldl'])))
theorem settings_l2Access (a0 a1 a2 a3 : _) : (State.l2Access a0 a1 a2 a3).settings = a0.settings := by
  unfold State.l2Access
  (try simp only [settings_l2Charge, settings_l2Room, settings_setL2, implies_true, settings_ite, ite_self, settings_foldl']) <;>
    (repeat' (first
      | with_reducible rfl
      | (simp only [settings_l2Charge, settings_l2Room, settings_setL2, implies_true, settings_ite, ite_self, settings_foldl']; done)
      | (with_reducible refine (settings_foldl _ ?_ _ _).trans ?_)
      | (with_reducible refine (settings_foldl2 _ ?_ _ _).trans ?_)
      | (split <;> (try (rename_i h; first | (have h2 := congrArg Prod.snd h; simp only at h2; subst h2))))
      | (intro _)
      | (simp only [settings_l2Charge, settings_l2Room, settings_setL2, implies_true, settings_ite, ite_self, settings_foldl', *]; done)
      | (simp only [settings_l2Charge, settings_l2Room, settings_setL2, implies_true, settings_ite, ite_self, settings_foldl'])))

/-! ### Machine/Units.lean -/

theorem settings_countApplied (a0 : _) : (State.countApplied a0).settings = a0.settings := by
  unfold State.countApplied
  simp only [settings_mapFault]
theorem settings_spendInj (a0 a1 a2 : _) : (State.spendInj a0 a1 a2).settings = a0.settings := by
  unfold State.spendInj
  simp only [settings_countApplied, settings_setInj]
theorem settings_giveEngine (a0 a1 : _) : (State.giveEngine a0 a1).settings = a0.settings := by
  unfold State.giveEngine
  (try simp only [settings_mapCodec, implies_true, settings_ite, ite_self, settings_foldl']) <;>
    (repeat' (first
      | with_reducible rfl
      | (simp only [settings_mapCodec, implies_true, settings_ite, ite_self, settings_foldl']; done)
      | (with_reducible refine (settings_foldl _ ?_ _ _).trans ?_)
      | (with_reducible refine (settings_foldl2 _ ?_ _ _).trans ?_)
      | (split <;> (try (rename_i h; first | (have h2 := congrArg Prod.snd h; simp only at h2; subst h2))))
      | (intro _)
      | (simp only [settings_mapCodec, implies_true, settings_ite, ite_self, settings_foldl', *]; done)
      | (simp only [settings_mapCodec, implies_true, settings_ite, ite_self, settings_foldl'])))
theorem settings_giveEngines (a0 : _) : (State.giveEngines a0).settings = a0.settings := by
  unfold State.giveEngines
  (try simp only [settings_giveEngine, settings_mapCodec, implies_true, settings_ite, ite_self, settings_foldl']) <;>
    (repeat' (first
      | with_reducible rfl
      | (simp only [settings_giveEngine, settings_mapCodec, implies_true, settings_ite, ite_self, settings_foldl']; done)
      | (with_reducible refine (settings_foldl _ ?_ _ _).trans ?_)
      | (with_reducible refine (settings_foldl2 _ ?_ _ _).trans ?_)
      | (split <;> (try (rename_i h; first | (have h2 := congrArg Prod.snd h; simp only at h2; subst h2))))
      | (intro _)
      | (simp only [settings_giveEngine, settings_mapCodec, implies_true, settings_ite, ite_self, settings_foldl', *]; done)
      | (simp only [settings_giveEngine, settings_mapCodec, implies_true, settings_ite, ite_self, settings_foldl'])))
theorem settings_startJob (a0 a1 a2 a3 a4 a5 a6 : _) : (State.startJob a0 a1 a2 a3 a4 a5 a6).settings = a0.settings := by
  unfold State.startJob
  (try simp only [settings_giveEngines, settings_mapCodec, implies_true, settings_ite, ite_self, settings_foldl']) <;>
    (repeat' (first
      | with_reducible rfl
      | (simp only [settings_giveEngines, settings_mapCodec, implies_true, settings_ite, ite_self, settings_foldl']; done)
      | (with_reducible refine (settings_foldl _ ?_ _ _).trans ?_)
      | (with_reducible refine (settings_foldl2 _ ?_ _ _).trans ?_)
      | (split <;> (try (rename_i h; first | (have h2 := congrArg Prod.snd h; simp only at h2; subst h2))))
      | (intro _)
      | (simp only [settings_giveEngines, settings_mapCodec, implies_true, settings_ite, ite_self, settings_foldl', *]; done)
      | (simp only [settings_giveEngines, settings_mapCodec, implies_true, settings_ite, ite_self, settings_foldl'])))
theorem settings_endJobs (a0 a1 : _) : (State.endJobs a0 a1).settings = a0.settings := by
  unfold State.endJobs
  simp only [settings_giveEngines, settings_mapCodec]
theorem settings_dropLate (a0 a1 : _) : (State.dropLate a0 a1).settings = a0.settings := by
  unfold State.dropLate
  (try simp only [settings_countCodec, settings_mapCodec, implies_true, settings_ite, ite_self, settings_foldl']) <;>
    (repeat' (first
      | with_reducible rfl
      | (simp only [settings_countCodec, settings_mapCodec, implies_true, settings_ite, ite_self, settings_foldl']; done)
      | (with_reducible refine (settings_foldl _ ?_ _ _).trans ?_)
      | (with_reducible refine (settings_foldl2 _ ?_ _ _).trans ?_)
      | (split <;> (try (rename_i h; first | (have h2 := congrArg Prod.snd h; simp only at h2; subst h2))))
      | (intro _)
      | (simp only [settings_countCodec, settings_mapCodec, implies_true, settings_ite, ite_self, settings_foldl', *]; done)
      | (simp only [settings_countCodec, settings_mapCodec, implies_true, settings_ite, ite_self, settings_foldl'])))
theorem settings_fenceEngine (a0 a1 : _) : (State.fenceEngine a0 a1).settings = a0.settings := by
  unfold State.fenceEngine
  (repeat' split) <;> simp only [settings_giveEngines, settings_mapCodec, settings_fire, settings_raise, implies_true, settings_ite, ite_self]
theorem settings_endSessions (a0 : _) : (State.endSessions a0).settings = a0.settings := by
  unfold State.endSessions
  simp only [settings_mapWorld, implies_true]
theorem settings_secureRestart (a0 a1 : _) : (State.secureRestart a0 a1).settings = a0.settings := by
  unfold State.secureRestart
  (repeat' split) <;> simp only [settings_l2SecureOut, settings_endSessions, settings_mapWorld, settings_fire, implies_true]
theorem settings_supplyHeartbeat (a0 : _) : (State.supplyHeartbeat a0).settings = a0.settings := by
  unfold State.supplyHeartbeat
  (try simp only [settings_mapFault, implies_true, settings_ite, ite_self, settings_foldl']) <;>
    (repeat' (first
      | with_reducible rfl
      | (simp only [settings_mapFault, implies_true, settings_ite, ite_self, settings_foldl']; done)
      | (with_reducible refine (settings_foldl _ ?_ _ _).trans ?_)
      | (with_reducible refine (settings_foldl2 _ ?_ _ _).trans ?_)
      | (split <;> (try (rename_i h; first | (have h2 := congrArg Prod.snd h; simp only at h2; subst h2))))
      | (intro _)
      | (simp only [settings_mapFault, implies_true, settings_ite, ite_self, settings_foldl', *]; done)
      | (simp only [settings_mapFault, implies_true, settings_ite, ite_self, settings_foldl'])))
theorem settings_normalRestart (a0 : _) : (State.normalRestart a0).settings = a0.settings := by
  unfold State.normalRestart
  split <;> simp only [settings_supplyHeartbeat, settings_l2NormalOut, settings_mapWorld, settings_fire, implies_true]
theorem settings_secureDown (a0 : _) : (State.secureDown a0).settings = a0.settings := by
  unfold State.secureDown
  simp only [settings_mapWorld, settings_fire, implies_true]
theorem settings_fenceCore (a0 a1 : _) : (State.fenceCore a0 a1).settings = a0.settings := by
  unfold State.fenceCore
  (repeat' split) <;> simp only [settings_mapWorld, settings_normalRestart, settings_secureDown, settings_secureRestart, settings_setCore, settings_raise,
    implies_true, settings_ite, ite_self]
theorem settings_placeCopies (a0 : _) : (State.placeCopies a0).settings = a0.settings := by
  unfold State.placeCopies
  (try simp only [settings_mapWelt, settings_setUnit, implies_true, settings_ite, ite_self, settings_foldl']) <;>
    (repeat' (first
      | with_reducible rfl
      | (simp only [settings_mapWelt, settings_setUnit, implies_true, settings_ite, ite_self, settings_foldl']; done)
      | (with_reducible refine (settings_foldl _ ?_ _ _).trans ?_)
      | (with_reducible refine (settings_foldl2 _ ?_ _ _).trans ?_)
      | (split <;> (try (rename_i h; first | (have h2 := congrArg Prod.snd h; simp only at h2; subst h2))))
      | (intro _)
      | (simp only [settings_mapWelt, settings_setUnit, implies_true, settings_ite, ite_self, settings_foldl', *]; done)
      | (simp only [settings_mapWelt, settings_setUnit, implies_true, settings_ite, ite_self, settings_foldl'])))
theorem settings_loseFree (a0 a1 : _) : (State.loseFree a0 a1).settings = a0.settings := by
  unfold State.loseFree
  simp only [settings_afterFree, settings_mapTier, implies_true]
theorem settings_loseFrame (a0 a1 : _) : (State.loseFrame a0 a1).settings = a0.settings := by
  unfold State.loseFrame
  exact settings_foldl _ (fun _ _ => by (repeat' split) <;> simp only [settings_toLost, implies_true]) _ _
theorem settings_recordRanges (a0 a1 : _) : (recordRanges a0 a1).settings = a1.settings := by
  unfold recordRanges
  (try simp only [settings_insoleOther, implies_true, settings_ite, ite_self, settings_foldl']) <;>
    (repeat' (first
      | with_reducible rfl
      | (simp only [settings_insoleOther, implies_true, settings_ite, ite_self, settings_foldl']; done)
      | (with_reducible refine (settings_foldl _ ?_ _ _).trans ?_)
      | (with_reducible refine (settings_foldl2 _ ?_ _ _).trans ?_)
      | (split <;> (try (rename_i h; first | (have h2 := congrArg Prod.snd h; simp only at h2; subst h2))))
      | (intro _)
      | (simp only [settings_insoleOther, implies_true, settings_ite, ite_self, settings_foldl', *]; done)
      | (simp only [settings_insoleOther, implies_true, settings_ite, ite_self, settings_foldl'])))
theorem settings_dataLoss (a0 : _) : (State.dataLoss a0).settings = a0.settings := by
  unfold State.dataLoss
  simp only [settings_recordRanges, settings_loseFrame, settings_fire, settings_raise, implies_true, settings_ite, ite_self, settings_foldl']
theorem settings_recordUnit (a0 a1 a2 : _) : (State.recordUnit a0 a1 a2).settings = a0.settings := by
  unfold State.recordUnit
  simp only [settings_mapWelt, implies_true]
theorem settings_forgetUnit (a0 a1 : _) : (State.forgetUnit a0 a1).settings = a0.settings := by
  unfold State.forgetUnit
  simp only [settings_mapWelt, implies_true]
theorem settings_takeFreeSlot (a0 : _) : (State.takeFreeSlot a0).settings = a0.settings := by
  unfold State.takeFreeSlot
  (try simp only [settings_setUnit, implies_true, settings_ite, ite_self, settings_foldl']) <;>
    (repeat' (first
      | with_reducible rfl
      | (simp only [settings_setUnit, implies_true, settings_ite, ite_self, settings_foldl']; done)
      | (with_reducible refine (settings_foldl _ ?_ _ _).trans ?_)
      | (with_reducible refine (settings_foldl2 _ ?_ _ _).trans ?_)
      | (split <;> (try (rename_i h; first | (have h2 := congrArg Prod.snd h; simp only at h2; subst h2))))
      | (intro _)
      | (simp only [settings_setUnit, implies_true, settings_ite, ite_self, settings_foldl', *]; done)
      | (simp only [settings_setUnit, implies_true, settings_ite, ite_self, settings_foldl'])))
theorem settings_unitFails (a0 a1 a2 a3 : _) : (State.unitFails a0 a1 a2 a3).settings = a0.settings := by
  unfold State.unitFails
  (try simp only [settings_dataLoss, settings_loseFree, settings_raise, settings_recomputeUsable, settings_recordUnit, settings_setRow, settings_setUnit,
    settings_updChan, implies_true, settings_ite, ite_self, settings_foldl']) <;>
    (repeat' (first
      | with_reducible rfl
      | (simp only [settings_dataLoss, settings_loseFree, settings_raise, settings_recomputeUsable, settings_recordUnit, settings_setRow, settings_setUnit,
        settings_updChan, implies_true, settings_ite, ite_self, settings_foldl']; done)
      | (with_reducible refine (settings_foldl _ ?_ _ _).trans ?_)
      | (with_reducible refine (settings_foldl2 _ ?_ _ _).trans ?_)
      | (split <;> (try (rename_i h; first | (have h2 := congrArg Prod.snd h; simp only at h2; subst h2))))
      | (intro _)
      | (simp only [settings_dataLoss, settings_loseFree, settings_raise, settings_recomputeUsable, settings_recordUnit, settings_setRow, settings_setUnit,
        settings_updChan, implies_true, settings_ite, ite_self, settings_foldl', *]; done)
      | (simp only [settings_dataLoss, settings_loseFree, settings_raise, settings_recomputeUsable, settings_recordUnit, settings_setRow, settings_setUnit,
        settings_updChan, implies_true, settings_ite, ite_self, settings_foldl'])))
theorem settings_unitOut (a0 a1 a2 a3 : _) : (State.unitOut a0 a1 a2 a3).settings = a0.settings := by
  unfold State.unitOut
  (try simp only [settings_takeFreeSlot, settings_placeCopies, settings_dataLoss, settings_loseFree, settings_recomputeUsable, settings_recordUnit, settings_setUnit,
    settings_unitFails, settings_updChan, settings_raise, implies_true, settings_ite, ite_self, settings_foldl']) <;>
    (repeat' (first
      | with_reducible rfl
      | (simp only [settings_takeFreeSlot, settings_placeCopies, settings_dataLoss, settings_loseFree, settings_recomputeUsable, settings_recordUnit, settings_setUnit,
        settings_unitFails, settings_updChan, settings_raise, implies_true, settings_ite, ite_self, settings_foldl']; done)
      | (with_reducible refine (settings_foldl _ ?_ _ _).trans ?_)
      | (with_reducible refine (settings_foldl2 _ ?_ _ _).trans ?_)
      | (split <;> (try (rename_i h; first | (have h2 := congrArg Prod.snd h; simp only at h2; subst h2))))
      | (intro _)
      | (simp only [settings_takeFreeSlot, settings_placeCopies, settings_dataLoss, settings_loseFree, settings_recomputeUsable, settings_recordUnit, settings_setUnit,
        settings_unitFails, settings_updChan, settings_raise, implies_true, settings_ite, ite_self, settings_foldl', *]; done)
      | (simp only [settings_takeFreeSlot, settings_placeCopies, settings_dataLoss, settings_loseFree, settings_recomputeUsable, settings_recordUnit, settings_setUnit,
        settings_unitFails, settings_updChan, settings_raise, implies_true, settings_ite, ite_self, settings_foldl'])))
theorem settings_unitIn (a0 a1 a2 : _) : (State.unitIn a0 a1 a2).settings = a0.settings := by
  unfold State.unitIn
  (try simp only [settings_forgetUnit, settings_mapWelt, settings_placeCopies, settings_recomputeUsable, settings_setUnit, settings_takeFreeSlot, settings_updChan,
    implies_true, settings_ite, ite_self, settings_foldl']) <;>
    (repeat' (first
      | with_reducible rfl
      | (simp only [settings_forgetUnit, settings_mapWelt, settings_placeCopies, settings_recomputeUsable, settings_setUnit, settings_takeFreeSlot, settings_updChan,
        implies_true, settings_ite, ite_self, settings_foldl']; done)
      | (with_reducible refine (settings_foldl _ ?_ _ _).trans ?_)
      | (with_reducible refine (settings_foldl2 _ ?_ _ _).trans ?_)
      | (split <;> (try (rename_i h; first | (have h2 := congrArg Prod.snd h; simp only at h2; subst h2))))
      | (intro _)
      | (simp only [settings_forgetUnit, settings_mapWelt, settings_placeCopies, settings_recomputeUsable, settings_setUnit, settings_takeFreeSlot, settings_updChan,
        implies_true, settings_ite, ite_self, settings_foldl', *]; done)
      | (simp only [settings_forgetUnit, settings_mapWelt, settings_placeCopies, settings_recomputeUsable, settings_setUnit, settings_takeFreeSlot, settings_updChan,
        implies_true, settings_ite, ite_self, settings_foldl'])))
theorem settings_dieDown (a0 a1 : _) : (State.dieDown a0 a1).settings = a0.settings := by
  unfold State.dieDown
  simp only [settings_mapLace, settings_recomputeUsable, settings_updLaceMod, settings_fire, implies_true, settings_ite, ite_self, settings_foldl']
theorem settings_moduleDown (a0 a1 : _) : (State.moduleDown a0 a1).settings = a0.settings := by
  unfold State.moduleDown
  (repeat' split) <;> simp only [settings_dieDown, settings_recomputeUsable, settings_sendCtrl, settings_updLaceMod, settings_fire, implies_true, settings_ite, ite_self]
theorem settings_doFence (a0 a1 a2 : _) : (State.doFence a0 a1 a2).settings = a0.settings := by
  unfold State.doFence
  split <;> simp only [settings_fenceCore, settings_fenceEngine, settings_moduleDown, settings_unitOut]
theorem settings_raiseFencing (a0 a1 a2 : _) : (raiseFencing a0 a1 a2).settings = a2.settings := by
  unfold raiseFencing
  (repeat' split) <;> simp only [settings_doFence, settings_raise, implies_true, settings_ite, ite_self]
theorem settings_engineParity (a0 a1 a2 : _) : (State.engineParity a0 a1 a2).settings = a0.settings := by
  unfold State.engineParity
  (repeat' split) <;> simp only [settings_fenceEngine, settings_mapCodec, settings_raiseFencing, implies_true, settings_ite, ite_self]
theorem settings_coreParity (a0 a1 a2 : _) : (State.coreParity a0 a1 a2).settings = a0.settings := by
  unfold State.coreParity
  (repeat' split) <;> simp only [settings_fenceCore, settings_secureRestart, settings_setCore, settings_raiseFencing, implies_true, settings_ite, ite_self]

/-! ### Machine/Migrate.lean -/

theorem settings_copyHotLine (a0 a1 a2 a3 a4 : _) : (State.copyHotLine a0 a1 a2 a3 a4).settings = a0.settings := by
  unfold State.copyHotLine
  (repeat' split) <;> simp only [settings_poisonLine, settings_writeHotLine, settings_writeLine, implies_true]
theorem settings_copyGranules (a0 a1 a2 a3 : _) : (State.copyGranules a0 a1 a2 a3).settings = a0.settings := by
  unfold State.copyGranules
  (try simp only [settings_poisonLine, settings_writeLine, implies_true, settings_ite, ite_self, settings_foldl']) <;>
    (repeat' (first
      | with_reducible rfl
      | (simp only [settings_poisonLine, settings_writeLine, implies_true, settings_ite, ite_self, settings_foldl']; done)
      | (with_reducible refine (settings_foldl _ ?_ _ _).trans ?_)
      | (with_reducible refine (settings_foldl2 _ ?_ _ _).trans ?_)
      | (split <;> (try (rename_i h; first | (have h2 := congrArg Prod.snd h; simp only at h2; subst h2))))
      | (intro _)
      | (simp only [settings_poisonLine, settings_writeLine, implies_true, settings_ite, ite_self, settings_foldl', *]; done)
      | (simp only [settings_poisonLine, settings_writeLine, implies_true, settings_ite, ite_self, settings_foldl'])))
theorem settings_mismatchTail (a0 a1 a2 a3 : _) : (State.mismatchTail a0 a1 a2 a3).2.settings = a0.settings := by
  unfold State.mismatchTail
  (try simp only [settings_addRepair, settings_toLost, implies_true, settings_ite, ite_self, settings_foldl']) <;>
    (repeat' (first
      | with_reducible rfl
      | (simp only [settings_addRepair, settings_toLost, implies_true, settings_ite, ite_self, settings_foldl']; done)
      | (with_reducible refine (settings_foldl _ ?_ _ _).trans ?_)
      | (with_reducible refine (settings_foldl2 _ ?_ _ _).trans ?_)
      | (split <;> (try (rename_i h; first | (have h2 := congrArg Prod.snd h; simp only at h2; subst h2))))
      | (intro _)
      | (simp only [settings_addRepair, settings_toLost, implies_true, settings_ite, ite_self, settings_foldl', *]; done)
      | (simp only [settings_addRepair, settings_toLost, implies_true, settings_ite, ite_self, settings_foldl'])))
theorem settings_countMismatch (a0 a1 a2 a3 : _) : (countMismatch a0 a1 a2 a3).settings = a2.settings := by
  unfold countMismatch
  simp only [settings_countCodec, settings_raise]
theorem settings_decodeSpoiled (a0 a1 : _) : (State.decodeSpoiled a0 a1).2.settings = a0.settings := by
  unfold State.decodeSpoiled
  (try simp only [settings_spendInj, implies_true, settings_ite, ite_self, settings_foldl']) <;>
    (repeat' (first
      | with_reducible rfl
      | (simp only [settings_spendInj, implies_true, settings_ite, ite_self, settings_foldl']; done)
      | (with_reducible refine (settings_foldl _ ?_ _ _).trans ?_)
      | (with_reducible refine (settings_foldl2 _ ?_ _ _).trans ?_)
      | (split <;> (try (rename_i h; first | (have h2 := congrArg Prod.snd h; simp only at h2; subst h2))))
      | (intro _)
      | (simp only [settings_spendInj, implies_true, settings_ite, ite_self, settings_foldl', *]; done)
      | (simp only [settings_spendInj, implies_true, settings_ite, ite_self, settings_foldl'])))
theorem settings_internalDecode (a0 a1 : _) : (State.internalDecode a0 a1).2.settings = a0.settings := by
  unfold State.internalDecode
  (try simp only [settings_decodeSpoiled, implies_true, settings_ite, ite_self, settings_foldl']) <;>
    (repeat' (first
      | with_reducible rfl
      | (simp only [settings_decodeSpoiled, implies_true, settings_ite, ite_self, settings_foldl']; done)
      | (with_reducible refine (settings_foldl _ ?_ _ _).trans ?_)
      | (with_reducible refine (settings_foldl2 _ ?_ _ _).trans ?_)
      | (split <;> (try (rename_i h; first | (have h2 := congrArg Prod.snd h; simp only at h2; subst h2))))
      | (intro _)
      | (simp only [settings_decodeSpoiled, implies_true, settings_ite, ite_self, settings_foldl', *]; done)
      | (simp only [settings_decodeSpoiled, implies_true, settings_ite, ite_self, settings_foldl'])))
theorem settings_granuleLost (a0 a1 a2 a3 a4 : _) : (State.granuleLost a0 a1 a2 a3 a4).settings = a0.settings := by
  unfold State.granuleLost
  (repeat' split) <;> simp only [settings_addRepair, settings_poisonLine, settings_setDirty, implies_true, settings_ite, ite_self]
theorem settings_chunkFor (a0 a1 a2 a3 a4 : _) : (State.chunkFor a0 a1 a2 a3 a4).2.settings = a0.settings := by
  unfold State.chunkFor
  dsimp only
  split; · rfl
  split; · rfl
  split
  · exact settings_foldl _ (fun _ _ => settings_granuleLost _ _ _ _ _) _ _
  split
  · exact settings_internalDecode _ _
  split
  · rw [settings_countCodec, settings_countMismatch]; exact settings_internalDecode _ _
  split <;> (rw [settings_mismatchTail, settings_countMismatch]; exact settings_internalDecode _ _)
theorem settings_warmLines (a0 a1 a2 a3 : _) : (State.warmLines a0 a1 a2 a3).2.settings = a0.settings := by
  unfold State.warmLines
  refine (settings_foldl2 _ (fun s x => ?_) _ _).trans rfl
  have h := settings_chunkFor s.2 a1 x a2 a3
  (repeat' split) <;> simp_all
theorem settings_hotDest {s : State} {a b c d : _} {r : Nat × State} (h : s.hotDest a b c d = some r) : r.2.settings = s.settings := by
  unfold State.hotDest at h
  split at h; · simp only [reduceCtorEq] at h
  exact settings_takeFrame h
theorem settings_binDest {s : State} {a b c d e : _} {r : Nat × List Chunk × State} (h : s.binDest a b c d e = some r) : r.2.2.settings = s.settings := by
  unfold State.binDest at h
  split at h
  · simp only [Option.some.injEq] at h; subst h; simp only [settings_takeFrame, settings_addToBin]
  split at h; rotate_left; · simp only [reduceCtorEq] at h
  split at h
  · rename_i h1 h2; have h3 := settings_takeFrame h1
    simp only [Option.some.injEq] at h; subst h; simp only [settings_takeFrame, settings_addToBin, h3]
  · simp only [reduceCtorEq] at h
theorem settings_enterMotion (a0 a1 a2 a3 a4 a5 a6 : _) : (State.enterMotion a0 a1 a2 a3 a4 a5 a6).settings = a0.settings := by
  unfold State.enterMotion
  simp only [settings_breakSpan, settings_pmLast, settings_putEntry, settings_setTracker]
theorem settings_chargeMig (a0 a1 a2 a3 : _) : (State.chargeMig a0 a1 a2 a3).settings = a0.settings := by
  unfold State.chargeMig
  simp only [settings_charge]
theorem settings_startMigration {s : State} {a b c : _} {r : State} (h : s.startMigration a b c = some r) : r.settings = s.settings := by
  unfold State.startMigration at h
  split at h; · simp only [reduceCtorEq] at h
  split at h; · simp only [reduceCtorEq] at h
  dsimp only at h
  split at h
  · split at h; · simp only [reduceCtorEq] at h
    simp only [Option.some.injEq] at h; subst h
    rw [settings_foldl _ (fun _ _ => settings_startJob _ _ _ _ _ _ _)]; simp only [settings_enterMotion, settings_chargeMig]
  split at h
  · split at h; · simp only [reduceCtorEq] at h
    rename_i h1; have h2 := settings_binDest h1
    simp only [Option.some.injEq] at h; subst h; simp only [settings_enterMotion, settings_chargeMig, settings_copyGranules]; exact h2
  split at h; · simp only [reduceCtorEq] at h
  rename_i h1; have h2 := settings_hotDest h1
  simp only at h2
  split at h
  · split at h
    · rename_i h3; have h4 := congrArg (fun p => p.2.settings) h3
      rw [settings_warmLines, settings_foldl _ (fun _ _ => settings_startJob _ _ _ _ _ _ _), settings_chargeMig, settings_enterMotion] at h4
      simp only [Option.some.injEq] at h; subst h; simp only [settings_fillHot, ← h4, h2]
    · rename_i h3; have h4 := congrArg (fun p => p.2.settings) h3
      rw [settings_warmLines, settings_foldl _ (fun _ _ => settings_startJob _ _ _ _ _ _ _), settings_chargeMig, settings_enterMotion] at h4
      simp only [Option.some.injEq] at h; subst h; simp only [← h4, h2]
  · simp only [Option.some.injEq] at h; subst h
    simp only [settings_enterMotion]
    rw [settings_foldl _ (fun _ _ => settings_copyHotLine _ _ _ _ _), settings_chargeMig, settings_breakSpan, h2]
theorem settings_started (s : State) (k : MigKind) (d : Dpn) (h : Frame) :
    (match s.startMigration k d h with | some s => s | none => s).settings = s.settings := by
  split
  · rename_i h1; exact settings_startMigration h1
  · rfl
theorem settings_startOrWait (a0 a1 a2 a3 : _) : (State.startOrWait a0 a1 a2 a3).settings = a0.settings := by
  unfold State.startOrWait
  split
  · rename_i h1; exact settings_startMigration h1
  · exact settings_if (settings_mapLast _ _) rfl
theorem settings_startWaiting (a0 : _) : (State.startWaiting a0).settings = a0.settings := by
  unfold State.startWaiting
  refine settings_foldl _ (fun s x => ?_) _ _
  dsimp only
  split
  · rfl
  · exact (settings_started _ _ _ _).trans (settings_mapLast _ _)
theorem settings_flip (a0 a1 a2 a3 : _) : (State.flip a0 a1 a2 a3).settings = a0.settings := by
  unfold State.flip
  (repeat' split) <;> simp only [settings_countTier, settings_formSpan, settings_pmLast, settings_putEntry, settings_setTracker, implies_true]
theorem settings_addException (a0 a1 a2 : _) : (State.addException a0 a1 a2).settings = a0.settings := by
  unfold State.addException
  (repeat' split) <;> simp only [settings_mapWelt, settings_fire, implies_true, settings_ite, ite_self]
theorem settings_withdrawFrame (a0 a1 : _) : (State.withdrawFrame a0 a1).settings = a0.settings := by
  unfold State.withdrawFrame
  (try simp only [settings_coverParity, settings_addException, settings_countWelt, settings_deltaParity, settings_setFrameRec, implies_true, settings_ite, ite_self,
    settings_foldl']) <;>
    (repeat' (first
      | with_reducible rfl
      | (simp only [settings_coverParity, settings_addException, settings_countWelt, settings_deltaParity, settings_setFrameRec, implies_true, settings_ite, ite_self,
        settings_foldl']; done)
      | (with_reducible refine (settings_foldl _ ?_ _ _).trans ?_)
      | (with_reducible refine (settings_foldl2 _ ?_ _ _).trans ?_)
      | (split <;> (try (rename_i h; first | (have h2 := congrArg Prod.snd h; simp only at h2; subst h2))))
      | (intro _)
      | (simp only [settings_coverParity, settings_addException, settings_countWelt, settings_deltaParity, settings_setFrameRec, implies_true, settings_ite, ite_self,
        settings_foldl', *]; done)
      | (simp only [settings_coverParity, settings_addException, settings_countWelt, settings_deltaParity, settings_setFrameRec, implies_true, settings_ite, ite_self,
        settings_foldl'])))
theorem settings_releaseSource (a0 a1 a2 : _) : (State.releaseSource a0 a1 a2).settings = a0.settings := by
  unfold State.releaseSource
  (repeat' split) <;> simp only [settings_freeFrame, settings_removeFromBin, settings_setFrameRec, settings_setTracker, settings_withdrawFrame, implies_true,
    settings_ite, ite_self]
theorem settings_tryRelease (a0 a1 : _) : (State.tryRelease a0 a1).settings = a0.settings := by
  unfold State.tryRelease
  (repeat' split) <;> simp only [settings_releaseSource, implies_true]
theorem settings_putChunks (a0 a1 a2 a3 a4 a5 : _) : (State.putChunks a0 a1 a2 a3 a4 a5).settings = a0.settings := by
  unfold State.putChunks
  exact settings_foldl _ (fun _ _ => by (repeat' split) <;> simp only [settings_fillChunk, implies_true]) _ _
theorem settings_takeCandidate (s : State) (n : Nat) : (State.takeCandidate s n).2.settings = s.settings := by
  induction n generalizing s with
  | zero => rfl
  | succ n ih =>
    unfold State.takeCandidate
    split; · rfl
    split; · rfl
    dsimp only; split <;> simp only [ih, settings_setBucket]
theorem settings_gather (a0 : _) : (State.gather a0).2.settings = a0.settings := by
  unfold State.gather
  (try simp only [settings_mapTier, settings_takeCandidate, implies_true, settings_ite, ite_self, settings_foldl']) <;>
    (repeat' (first
      | with_reducible rfl
      | (simp only [settings_mapTier, settings_takeCandidate, implies_true, settings_ite, ite_self, settings_foldl']; done)
      | (with_reducible refine (settings_foldl _ ?_ _ _).trans ?_)
      | (with_reducible refine (settings_foldl2 _ ?_ _ _).trans ?_)
      | (split <;> (try (rename_i h; first | (have h2 := congrArg Prod.snd h; simp only at h2; subst h2))))
      | (intro _)
      | (simp only [settings_mapTier, settings_takeCandidate, implies_true, settings_ite, ite_self, settings_foldl', *]; done)
      | (simp only [settings_mapTier, settings_takeCandidate, implies_true, settings_ite, ite_self, settings_foldl'])))
theorem settings_emergencyDemote (a0 a1 : _) : (State.emergencyDemote a0 a1).settings = a0.settings := by
  unfold State.emergencyDemote
  split; · rfl
  split
  · split
    · rfl
    · simp only [settings_fire, settings_mapTier, implies_true]
  · dsimp only
    have h := settings_gather ((fire 32 (a0.countTier 4)).mapTier fun t => { t with emergencyBin := none })
    have h2 : ((fire 32 (a0.countTier 4)).mapTier fun t => { t with emergencyBin := none }).settings = a0.settings :=
      (settings_mapTier _ _ (fun _ => rfl) (fun _ => rfl) (fun _ => rfl)).trans ((settings_fire _ _).trans (settings_countTier _ _ _))
    rw [h2] at h
    generalize ((fire 32 (a0.countTier 4)).mapTier fun t => { t with emergencyBin := none }).gather = p at h ⊢
    exact (settings_foldl _ (fun s x => settings_started _ _ _ _) _ _).trans h

/-! ### Machine/Path.lean -/

theorem settings_samplePick (a0 a1 a2 : _) : (State.samplePick a0 a1 a2).2.settings = a0.settings := by
  unfold State.samplePick
  (try simp only [settings_draw, settings_setSampler, implies_true, settings_ite, ite_self, settings_foldl']) <;>
    (repeat' (first
      | with_reducible rfl
      | (simp only [settings_draw, settings_setSampler, implies_true, settings_ite, ite_self, settings_foldl']; done)
      | (with_reducible refine (settings_foldl _ ?_ _ _).trans ?_)
      | (with_reducible refine (settings_foldl2 _ ?_ _ _).trans ?_)
      | (split <;> (try (rename_i h; first | (have h2 := congrArg Prod.snd h; simp only at h2; subst h2))))
      | (intro _)
      | (simp only [settings_draw, settings_setSampler, implies_true, settings_ite, ite_self, settings_foldl', *]; done)
      | (simp only [settings_draw, settings_setSampler, implies_true, settings_ite, ite_self, settings_foldl'])))
theorem settings_sampleFor (a0 a1 a2 : _) : (State.sampleFor a0 a1 a2).2.settings = a0.settings := by
  unfold State.sampleFor
  (try simp only [settings_samplePick, settings_setSampler, implies_true, settings_ite, ite_self, settings_foldl']) <;>
    (repeat' (first
      | with_reducible rfl
      | (simp only [settings_samplePick, settings_setSampler, implies_true, settings_ite, ite_self, settings_foldl']; done)
      | (with_reducible refine (settings_foldl _ ?_ _ _).trans ?_)
      | (with_reducible refine (settings_foldl2 _ ?_ _ _).trans ?_)
      | (split <;> (try (rename_i h; first | (have h2 := congrArg Prod.snd h; simp only at h2; subst h2))))
      | (intro _)
      | (simp only [settings_samplePick, settings_setSampler, implies_true, settings_ite, ite_self, settings_foldl', *]; done)
      | (simp only [settings_samplePick, settings_setSampler, implies_true, settings_ite, ite_self, settings_foldl'])))
theorem settings_heatSample (a0 a1 : _) : (State.heatSample a0 a1).settings = a0.settings := by
  unfold State.heatSample
  (try simp only [settings_countTier, settings_draw, settings_touchEntry, implies_true, settings_ite, ite_self, settings_foldl']) <;>
    (repeat' (first
      | with_reducible rfl
      | (simp only [settings_countTier, settings_draw, settings_touchEntry, implies_true, settings_ite, ite_self, settings_foldl']; done)
      | (with_reducible refine (settings_foldl _ ?_ _ _).trans ?_)
      | (with_reducible refine (settings_foldl2 _ ?_ _ _).trans ?_)
      | (split <;> (try (rename_i h; first | (have h2 := congrArg Prod.snd h; simp only at h2; subst h2))))
      | (intro _)
      | (simp only [settings_countTier, settings_draw, settings_touchEntry, implies_true, settings_ite, ite_self, settings_foldl', *]; done)
      | (simp only [settings_countTier, settings_draw, settings_touchEntry, implies_true, settings_ite, ite_self, settings_foldl'])))
theorem settings_triggerPromotion (a0 a1 : _) : (State.triggerPromotion a0 a1).settings = a0.settings := by
  unfold State.triggerPromotion
  (repeat' split) <;> simp only [settings_countTier, settings_mapTier, implies_true, settings_ite, ite_self]
theorem settings_readDram (a0 a1 a2 a3 a4 a5 : _) : (State.readDram a0 a1 a2 a3 a4 a5).settings = a0.settings := by
  unfold State.readDram
  (try simp only [settings_charge, settings_enterArbiter, settings_mapWelt, settings_setPhase, settings_updReq, implies_true, settings_ite, ite_self,
    settings_foldl']) <;>
    (repeat' (first
      | with_reducible rfl
      | (simp only [settings_charge, settings_enterArbiter, settings_mapWelt, settings_setPhase, settings_updReq, implies_true, settings_ite, ite_self,
        settings_foldl']; done)
      | (with_reducible refine (settings_foldl _ ?_ _ _).trans ?_)
      | (with_reducible refine (settings_foldl2 _ ?_ _ _).trans ?_)
      | (split <;> (try (rename_i h; first | (have h2 := congrArg Prod.snd h; simp only at h2; subst h2))))
      | (intro _)
      | (simp only [settings_charge, settings_enterArbiter, settings_mapWelt, settings_setPhase, settings_updReq, implies_true, settings_ite, ite_self,
        settings_foldl', *]; done)
      | (simp only [settings_charge, settings_enterArbiter, settings_mapWelt, settings_setPhase, settings_updReq, implies_true, settings_ite, ite_self,
        settings_foldl'])))
theorem settings_readHot (a0 a1 a2 : _) : (State.readHot a0 a1 a2).settings = a0.settings := by
  unfold State.readHot
  (repeat' split) <;> simp only [settings_finishRead, settings_pmCrypto, settings_readDram, settings_setCompat, settings_fire, implies_true]
theorem settings_readWarm (a0 a1 a2 : _) : (State.readWarm a0 a1 a2).settings = a0.settings := by
  unfold State.readWarm
  (repeat' split) <;> simp only [settings_finishRead, settings_readDram, settings_updReq, implies_true, settings_ite, ite_self]
theorem settings_serveRead (a0 a1 : _) : (State.serveRead a0 a1).settings = a0.settings := by
  unfold State.serveRead
  (try simp only [settings_finishRead, settings_pmPort, settings_readHot, settings_readWarm, settings_triggerPromotion, implies_true, settings_ite, ite_self,
    settings_foldl']) <;>
    (repeat' (first
      | with_reducible rfl
      | (simp only [settings_finishRead, settings_pmPort, settings_readHot, settings_readWarm, settings_triggerPromotion, implies_true, settings_ite, ite_self,
        settings_foldl']; done)
      | (with_reducible refine (settings_foldl _ ?_ _ _).trans ?_)
      | (with_reducible refine (settings_foldl2 _ ?_ _ _).trans ?_)
      | (split <;> (try (rename_i h; first | (have h2 := congrArg Prod.snd h; simp only at h2; subst h2))))
      | (intro _)
      | (simp only [settings_finishRead, settings_pmPort, settings_readHot, settings_readWarm, settings_triggerPromotion, implies_true, settings_ite, ite_self,
        settings_foldl', *]; done)
      | (simp only [settings_finishRead, settings_pmPort, settings_readHot, settings_readWarm, settings_triggerPromotion, implies_true, settings_ite, ite_self,
        settings_foldl'])))
theorem settings_bufferLine (a0 a1 a2 a3 a4 a5 : _) : (State.bufferLine a0 a1 a2 a3 a4 a5).settings = a0.settings := by
  unfold State.bufferLine
  (try simp only [settings_mapPath, settings_setDirty, settings_setTracker, implies_true, settings_ite, ite_self, settings_foldl']) <;>
    (repeat' (first
      | with_reducible rfl
      | (simp only [settings_mapPath, settings_setDirty, settings_setTracker, implies_true, settings_ite, ite_self, settings_foldl']; done)
      | (with_reducible refine (settings_foldl _ ?_ _ _).trans ?_)
      | (with_reducible refine (settings_foldl2 _ ?_ _ _).trans ?_)
      | (split <;> (try (rename_i h; first | (have h2 := congrArg Prod.snd h; simp only at h2; subst h2))))
      | (intro _)
      | (simp only [settings_mapPath, settings_setDirty, settings_setTracker, implies_true, settings_ite, ite_self, settings_foldl', *]; done)
      | (simp only [settings_mapPath, settings_setDirty, settings_setTracker, implies_true, settings_ite, ite_self, settings_foldl'])))
theorem settings_dropMerge (a0 a1 a2 : _) : (State.dropMerge a0 a1 a2).settings = a0.settings := by
  unfold State.dropMerge
  simp only [settings_mapPath]
theorem settings_completeMerge (a0 a1 : _) : (State.completeMerge a0 a1).settings = a0.settings := by
  unfold State.completeMerge
  exact settings_foldl _ (fun _ _ => by (repeat' split) <;> simp only [settings_finishWrite, implies_true]) _ _
theorem settings_applyFull (a0 a1 a2 : _) : (State.applyFull a0 a1 a2).settings = a0.settings := by
  unfold State.applyFull
  split <;> simp only [settings_bufferLine, settings_completeMerge, settings_dropMerge, settings_finishWrite]
theorem settings_applyPartial (a0 a1 a2 : _) : (State.applyPartial a0 a1 a2).settings = a0.settings := by
  unfold State.applyPartial
  (repeat' split) <;> simp only [settings_bufferLine, settings_charge, settings_finishWrite, settings_mapPath, settings_setPhase, implies_true]
theorem settings_applyWrite (a0 a1 a2 : _) : (State.applyWrite a0 a1 a2).settings = a0.settings := by
  unfold State.applyWrite
  split <;> simp only [settings_applyFull, settings_applyPartial]
theorem settings_softHold (a0 a1 : _) : (State.softHold a0 a1).settings = a0.settings := by
  unfold State.softHold
  (repeat' split) <;> simp only [settings_countReg, settings_updMaster, implies_true, settings_ite, ite_self]
theorem settings_frameForWrite (a0 a1 a2 : _) : (State.frameForWrite a0 a1 a2).2.settings = a0.settings := by
  unfold State.frameForWrite
  have h : (if a0.tier.freeFrames = 0 then a0.emergencyDemote a1.hint else a0.reserveRun a1.dpn).settings = a0.settings :=
    settings_if (settings_emergencyDemote _ _) (settings_reserveRun _ _)
  dsimp only
  split
  · rename_i h1; exact (settings_takeFrame h1).trans h
  · exact h
theorem settings_writeFirst (a0 a1 a2 : _) : (State.writeFirst a0 a1 a2).settings = a0.settings := by
  unfold State.writeFirst
  (try simp only [settings_applyWrite, settings_frameForWrite, settings_setPhase, settings_softHold, settings_toHot, implies_true, settings_ite, ite_self,
    settings_foldl']) <;>
    (repeat' (first
      | with_reducible rfl
      | (simp only [settings_applyWrite, settings_frameForWrite, settings_setPhase, settings_softHold, settings_toHot, implies_true, settings_ite, ite_self,
        settings_foldl']; done)
      | (with_reducible refine (settings_foldl _ ?_ _ _).trans ?_)
      | (with_reducible refine (settings_foldl2 _ ?_ _ _).trans ?_)
      | (split <;> (try (rename_i h; first | (have h2 := congrArg Prod.snd h; simp only at h2; subst h2))))
      | (intro _)
      | (simp only [settings_applyWrite, settings_frameForWrite, settings_setPhase, settings_softHold, settings_toHot, implies_true, settings_ite, ite_self,
        settings_foldl', *]; done)
      | (simp only [settings_applyWrite, settings_frameForWrite, settings_setPhase, settings_softHold, settings_toHot, implies_true, settings_ite, ite_self,
        settings_foldl'])))
theorem settings_writeWarm (a0 a1 : _) : (State.writeWarm a0 a1).settings = a0.settings := by
  unfold State.writeWarm
  dsimp only
  have h : ∀ u : State, (if (if u.tier.freeFrames = 0 then u.emergencyDemote a1.hint else u).tier.freeFrames = 0
      then (if u.tier.freeFrames = 0 then u.emergencyDemote a1.hint else u).setPhase a1.tag .frame
      else match (if u.tier.freeFrames = 0 then u.emergencyDemote a1.hint else u).startMigration .writePromotion a1.dpn a1.hint with
        | some s => s
        | none => (if u.tier.freeFrames = 0 then u.emergencyDemote a1.hint else u)).settings = u.settings := by
    intro u
    have h0 : (if u.tier.freeFrames = 0 then u.emergencyDemote a1.hint else u).settings = u.settings := settings_if (settings_emergencyDemote _ _) rfl
    exact settings_if ((settings_setPhase _ _ _).trans h0) ((settings_started _ _ _ _).trans h0)
  split
  · split
    · exact settings_setPhase _ _ _
    · exact (h _).trans ((settings_abandon _ _).trans (settings_setPhase _ _ _))
  · exact (h _).trans (settings_setPhase _ _ _)
theorem settings_writeHot (a0 a1 a2 : _) : (State.writeHot a0 a1 a2).settings = a0.settings := by
  unfold State.writeHot
  (repeat' split) <;> simp only [settings_applyWrite, settings_setPhase, settings_softHold, implies_true]
theorem settings_serveWrite (a0 a1 a2 : _) : (State.serveWrite a0 a1 a2).settings = a0.settings := by
  unfold State.serveWrite
  (try simp only [settings_countShank, settings_failReq, settings_setPhase, settings_writeFirst, settings_writeHot, settings_writeWarm, settings_fire, implies_true,
    settings_ite, ite_self, settings_foldl']) <;>
    (repeat' (first
      | with_reducible rfl
      | (simp only [settings_countShank, settings_failReq, settings_setPhase, settings_writeFirst, settings_writeHot, settings_writeWarm, settings_fire, implies_true,
        settings_ite, ite_self, settings_foldl']; done)
      | (with_reducible refine (settings_foldl _ ?_ _ _).trans ?_)
      | (with_reducible refine (settings_foldl2 _ ?_ _ _).trans ?_)
      | (split <;> (try (rename_i h; first | (have h2 := congrArg Prod.snd h; simp only at h2; subst h2))))
      | (intro _)
      | (simp only [settings_countShank, settings_failReq, settings_setPhase, settings_writeFirst, settings_writeHot, settings_writeWarm, settings_fire, implies_true,
        settings_ite, ite_self, settings_foldl', *]; done)
      | (simp only [settings_countShank, settings_failReq, settings_setPhase, settings_writeFirst, settings_writeHot, settings_writeWarm, settings_fire, implies_true,
        settings_ite, ite_self, settings_foldl'])))
theorem settings_touchLast (a0 a1 : _) : (State.touchLast a0 a1).settings = a0.settings := by
  unfold State.touchLast
  (repeat' split) <;> simp only [settings_touchWay, implies_true]
theorem settings_missLast (a0 a1 : _) : (State.missLast a0 a1).settings = a0.settings := by
  unfold State.missLast
  (repeat' split) <;> simp only [settings_charge, settings_mapLast, settings_setPhase, implies_true, settings_ite, ite_self]
theorem settings_serve (a0 a1 : _) : (State.serve a0 a1).settings = a0.settings := by
  unfold State.serve
  (try simp only [settings_failReq, settings_heatSample, settings_pmCrypto, settings_pmPort, settings_serveRead, settings_serveWrite, settings_touchLast,
    settings_updReq, settings_raise, implies_true, settings_ite, ite_self, settings_foldl']) <;>
    (repeat' (first
      | with_reducible rfl
      | (simp only [settings_failReq, settings_heatSample, settings_pmCrypto, settings_pmPort, settings_serveRead, settings_serveWrite, settings_touchLast,
        settings_updReq, settings_raise, implies_true, settings_ite, ite_self, settings_foldl']; done)
      | (with_reducible refine (settings_foldl _ ?_ _ _).trans ?_)
      | (with_reducible refine (settings_foldl2 _ ?_ _ _).trans ?_)
      | (split <;> (try (rename_i h; first | (have h2 := congrArg Prod.snd h; simp only at h2; subst h2))))
      | (intro _)
      | (simp only [settings_failReq, settings_heatSample, settings_pmCrypto, settings_pmPort, settings_serveRead, settings_serveWrite, settings_touchLast,
        settings_updReq, settings_raise, implies_true, settings_ite, ite_self, settings_foldl', *]; done)
      | (simp only [settings_failReq, settings_heatSample, settings_pmCrypto, settings_pmPort, settings_serveRead, settings_serveWrite, settings_touchLast,
        settings_updReq, settings_raise, implies_true, settings_ite, ite_self, settings_foldl'])))
theorem settings_countLookup (a0 a1 a2 : _) : (State.countLookup a0 a1 a2).settings = a0.settings := by
  unfold State.countLookup
  (repeat' split) <;> simp only [settings_pmLast, settings_pmPort, implies_true, settings_ite, ite_self]
theorem settings_dispatch (a0 a1 a2 : _) : (State.dispatch a0 a1 a2).settings = a0.settings := by
  unfold State.dispatch
  (repeat' split) <;> simp only [settings_countLookup, settings_missLast, settings_serve, settings_setPhase, implies_true, settings_ite, ite_self]
theorem settings_acceptTag (a0 a1 a2 a3 a4 a5 : _) : (State.acceptTag a0 a1 a2 a3 a4 a5).settings = a0.settings := by
  unfold State.acceptTag
  (try simp only [settings_dispatch, settings_failReq, settings_mapPath, settings_pmCxl, settings_pmPort, settings_raise, settings_sampleFor, settings_setPhase,
    implies_true, settings_ite, ite_self, settings_foldl']) <;>
    (repeat' (first
      | with_reducible rfl
      | (simp only [settings_dispatch, settings_failReq, settings_mapPath, settings_pmCxl, settings_pmPort, settings_raise, settings_sampleFor, settings_setPhase,
        implies_true, settings_ite, ite_self, settings_foldl']; done)
      | (with_reducible refine (settings_foldl _ ?_ _ _).trans ?_)
      | (with_reducible refine (settings_foldl2 _ ?_ _ _).trans ?_)
      | (split <;> (try (rename_i h; first | (have h2 := congrArg Prod.snd h; simp only at h2; subst h2))))
      | (intro _)
      | (simp only [settings_dispatch, settings_failReq, settings_mapPath, settings_pmCxl, settings_pmPort, settings_raise, settings_sampleFor, settings_setPhase,
        implies_true, settings_ite, ite_self, settings_foldl', *]; done)
      | (simp only [settings_dispatch, settings_failReq, settings_mapPath, settings_pmCxl, settings_pmPort, settings_raise, settings_sampleFor, settings_setPhase,
        implies_true, settings_ite, ite_self, settings_foldl'])))
theorem settings_holdRequest (a0 a1 : _) : (State.holdRequest a0 a1).settings = a0.settings := by
  unfold State.holdRequest
  (try simp only [settings_mapPath, implies_true, settings_ite, ite_self, settings_foldl']) <;>
    (repeat' (first
      | with_reducible rfl
      | (simp only [settings_mapPath, implies_true, settings_ite, ite_self, settings_foldl']; done)
      | (with_reducible refine (settings_foldl _ ?_ _ _).trans ?_)
      | (with_reducible refine (settings_foldl2 _ ?_ _ _).trans ?_)
      | (split <;> (try (rename_i h; first | (have h2 := congrArg Prod.snd h; simp only at h2; subst h2))))
      | (intro _)
      | (simp only [settings_mapPath, implies_true, settings_ite, ite_self, settings_foldl', *]; done)
      | (simp only [settings_mapPath, implies_true, settings_ite, ite_self, settings_foldl'])))
theorem settings_accept (a0 a1 a2 a3 a4 : _) : (State.accept a0 a1 a2 a3 a4).settings = a0.settings := by
  unfold State.accept
  (repeat' split) <;> simp only [settings_acceptTag, settings_holdRequest]
theorem settings_takeHeld (a0 : _) : (State.takeHeld a0).settings = a0.settings := by
  unfold State.takeHeld
  refine settings_foldl _ (fun s x => ?_) _ _
  split
  · rfl
  · exact settings_if ((settings_acceptTag _ _ _ _ _ _).trans (settings_mapPath _ _)) (settings_mapPath _ _)
theorem settings_windowNotice (a0 : _) : (State.windowNotice a0).settings = a0.settings := by
  unfold State.windowNotice
  (repeat' split) <;> simp only [settings_mapShank, settings_postAll, implies_true, settings_ite, ite_self]
theorem settings_wake (a0 : _) : (State.wake a0).settings = a0.settings := by
  unfold State.wake
  (try simp only [settings_takeHeld, settings_startWaiting, settings_giveEngines, settings_dispatch, settings_windowNotice, implies_true, settings_ite, ite_self,
    settings_foldl']) <;>
    (repeat' (first
      | with_reducible rfl
      | (simp only [settings_takeHeld, settings_startWaiting, settings_giveEngines, settings_dispatch, settings_windowNotice, implies_true, settings_ite, ite_self,
        settings_foldl']; done)
      | (with_reducible refine (settings_foldl _ ?_ _ _).trans ?_)
      | (with_reducible refine (settings_foldl2 _ ?_ _ _).trans ?_)
      | (split <;> (try (rename_i h; first | (have h2 := congrArg Prod.snd h; simp only at h2; subst h2))))
      | (intro _)
      | (simp only [settings_takeHeld, settings_startWaiting, settings_giveEngines, settings_dispatch, settings_windowNotice, implies_true, settings_ite, ite_self,
        settings_foldl', *]; done)
      | (simp only [settings_takeHeld, settings_startWaiting, settings_giveEngines, settings_dispatch, settings_windowNotice, implies_true, settings_ite, ite_self,
        settings_foldl'])))

/-! ### Machine/Repair.lean -/

theorem settings_rebuildLost (a0 a1 a2 : _) : (State.rebuildLost a0 a1 a2).settings = a0.settings := by
  unfold State.rebuildLost
  (repeat' split) <;> simp only [settings_granuleLost, settings_poisonLine, settings_writeLine, settings_fire, implies_true, settings_ite, ite_self]
theorem settings_parityPairLost (a0 a1 a2 a3 a4 : _) : (State.parityPairLost a0 a1 a2 a3 a4).settings = a0.settings := by
  unfold State.parityPairLost
  (try simp only [settings_dropParity, settings_putParity, settings_rebuildFails, settings_rebuildLost, settings_withParity, implies_true, settings_ite, ite_self,
    settings_foldl']) <;>
    (repeat' (first
      | with_reducible rfl
      | (simp only [settings_dropParity, settings_putParity, settings_rebuildFails, settings_rebuildLost, settings_withParity, implies_true, settings_ite, ite_self,
        settings_foldl']; done)
      | (with_reducible refine (settings_foldl _ ?_ _ _).trans ?_)
      | (with_reducible refine (settings_foldl2 _ ?_ _ _).trans ?_)
      | (split <;> (try (rename_i h; first | (have h2 := congrArg Prod.snd h; simp only at h2; subst h2))))
      | (intro _)
      | (simp only [settings_dropParity, settings_putParity, settings_rebuildFails, settings_rebuildLost, settings_withParity, implies_true, settings_ite, ite_self,
        settings_foldl', *]; done)
      | (simp only [settings_dropParity, settings_putParity, settings_rebuildFails, settings_rebuildLost, settings_withParity, implies_true, settings_ite, ite_self,
        settings_foldl'])))
theorem settings_moveLine (a0 a1 a2 a3 a4 : _) : (State.moveLine a0 a1 a2 a3 a4).settings = a0.settings := by
  unfold State.moveLine
  (try simp only [settings_setParityRaw, settings_rebuildFails, settings_parityPairLost, settings_fire, settings_coverParity, settings_deltaParity, settings_draw,
    settings_setRaw, implies_true, settings_ite, ite_self, settings_foldl']) <;>
    (repeat' (first
      | with_reducible rfl
      | (simp only [settings_setParityRaw, settings_rebuildFails, settings_parityPairLost, settings_fire, settings_coverParity, settings_deltaParity, settings_draw,
        settings_setRaw, implies_true, settings_ite, ite_self, settings_foldl']; done)
      | (with_reducible refine (settings_foldl _ ?_ _ _).trans ?_)
      | (with_reducible refine (settings_foldl2 _ ?_ _ _).trans ?_)
      | (split <;> (try (rename_i h; first | (have h2 := congrArg Prod.snd h; simp only at h2; subst h2))))
      | (intro _)
      | (simp only [settings_setParityRaw, settings_rebuildFails, settings_parityPairLost, settings_fire, settings_coverParity, settings_deltaParity, settings_draw,
        settings_setRaw, implies_true, settings_ite, ite_self, settings_foldl', *]; done)
      | (simp only [settings_setParityRaw, settings_rebuildFails, settings_parityPairLost, settings_fire, settings_coverParity, settings_deltaParity, settings_draw,
        settings_setRaw, implies_true, settings_ite, ite_self, settings_foldl'])))
theorem settings_moveLines (a0 a1 a2 a3 : _) : (State.moveLines a0 a1 a2 a3).settings = a0.settings := by
  unfold State.moveLines
  exact settings_foldl _ (fun _ _ => by (repeat' split) <;> simp only [settings_moveLine, implies_true]) _ _
theorem settings_raiseDoubled (a0 a1 : _) : (raiseDoubled a0 a1).settings = a1.settings := by
  unfold raiseDoubled
  split <;> simp only [settings_fire]
theorem settings_spareMember (a0 a1 a2 a3 : _) : (State.spareMember a0 a1 a2 a3).settings = a0.settings := by
  unfold State.spareMember
  simp only [settings_markMember, settings_moveLines, settings_raiseDoubled]
theorem settings_exceptFrame (a0 a1 a2 : _) : (State.exceptFrame a0 a1 a2).settings = a0.settings := by
  unfold State.exceptFrame
  simp only [settings_placeCopies, settings_addException, settings_moveLines, settings_raiseDoubled]
theorem settings_reSpare (a0 a1 a2 : _) : (State.reSpare a0 a1 a2).settings = a0.settings := by
  unfold State.reSpare
  (try simp only [settings_mapWelt, settings_moveLine, settings_setUnit, implies_true, settings_ite, ite_self, settings_foldl']) <;>
    (repeat' (first
      | with_reducible rfl
      | (simp only [settings_mapWelt, settings_moveLine, settings_setUnit, implies_true, settings_ite, ite_self, settings_foldl']; done)
      | (with_reducible refine (settings_foldl _ ?_ _ _).trans ?_)
      | (with_reducible refine (settings_foldl2 _ ?_ _ _).trans ?_)
      | (split <;> (try (rename_i h; first | (have h2 := congrArg Prod.snd h; simp only at h2; subst h2))))
      | (intro _)
      | (simp only [settings_mapWelt, settings_moveLine, settings_setUnit, implies_true, settings_ite, ite_self, settings_foldl', *]; done)
      | (simp only [settings_mapWelt, settings_moveLine, settings_setUnit, implies_true, settings_ite, ite_self, settings_foldl'])))
theorem settings_retireFrame (a0 a1 : _) : (State.retireFrame a0 a1).settings = a0.settings := by
  unfold State.retireFrame
  (try simp only [settings_placeCopies, settings_countWelt, settings_exceptFrame, settings_loseFree, settings_reSpare, settings_setFrameRec, settings_withdrawFrame,
    implies_true, settings_ite, ite_self, settings_foldl']) <;>
    (repeat' (first
      | with_reducible rfl
      | (simp only [settings_placeCopies, settings_countWelt, settings_exceptFrame, settings_loseFree, settings_reSpare, settings_setFrameRec, settings_withdrawFrame,
        implies_true, settings_ite, ite_self, settings_foldl']; done)
      | (with_reducible refine (settings_foldl _ ?_ _ _).trans ?_)
      | (with_reducible refine (settings_foldl2 _ ?_ _ _).trans ?_)
      | (split <;> (try (rename_i h; first | (have h2 := congrArg Prod.snd h; simp only at h2; subst h2))))
      | (intro _)
      | (simp only [settings_placeCopies, settings_countWelt, settings_exceptFrame, settings_loseFree, settings_reSpare, settings_setFrameRec, settings_withdrawFrame,
        implies_true, settings_ite, ite_self, settings_foldl', *]; done)
      | (simp only [settings_placeCopies, settings_countWelt, settings_exceptFrame, settings_loseFree, settings_reSpare, settings_setFrameRec, settings_withdrawFrame,
        implies_true, settings_ite, ite_self, settings_foldl'])))
theorem settings_relocateRow (a0 a1 a2 : _) : (State.relocateRow a0 a1 a2).settings = a0.settings := by
  unfold State.relocateRow
  simp only [settings_retireFrame, settings_setRow, implies_true, settings_ite, ite_self, settings_foldl']
theorem settings_rowHard (a0 a1 a2 a3 : _) : (State.rowHard a0 a1 a2 a3).settings = a0.settings := by
  unfold State.rowHard
  (repeat' split) <;> simp only [settings_countWelt, settings_relocateRow, settings_setRow, implies_true, settings_ite, ite_self]
theorem settings_newRow {s : State} {a : Nat} {r : Nat × State} (h : s.newRow a = some r) : r.2.settings = s.settings := by
  unfold State.newRow at h
  generalize List.range 256 = l at h
  dsimp only at h
  split at h; · cases h; rfl
  split at h; · cases h; exact settings_setRow _ _ _
  rw [Option.map_eq_some_iff] at h
  obtain ⟨i, h1, rfl⟩ := h
  refine settings_foldl _ ?_ _ _
  intro s i; split
  · exact settings_setRow _ _ _
  · rfl
theorem settings_rowFailure (a0 a1 a2 a3 a4 : _) : (State.rowFailure a0 a1 a2 a3 a4).settings = a0.settings := by
  unfold State.rowFailure
  (try simp only [settings_newRow, settings_countWelt, settings_relocateRow, settings_rowHard, settings_setRow, settings_fire, implies_true, settings_ite, ite_self,
    settings_foldl']) <;>
    (repeat' (first
      | with_reducible rfl
      | (simp only [settings_newRow, settings_countWelt, settings_relocateRow, settings_rowHard, settings_setRow, settings_fire, implies_true, settings_ite, ite_self,
        settings_foldl']; done)
      | (with_reducible refine (settings_foldl _ ?_ _ _).trans ?_)
      | (with_reducible refine (settings_foldl2 _ ?_ _ _).trans ?_)
      | (split <;> (try (rename_i h; first | (have h2 := congrArg Prod.snd h; simp only at h2; subst h2) | (have h2 := settings_newRow h; simp only [settings_newRow,
        settings_countWelt, settings_relocateRow, settings_rowHard, settings_setRow, settings_fire, implies_true, settings_ite, ite_self, settings_foldl'] at h2))))
      | (intro _)
      | (simp only [settings_newRow, settings_countWelt, settings_relocateRow, settings_rowHard, settings_setRow, settings_fire, implies_true, settings_ite, ite_self,
        settings_foldl', *]; done)
      | (simp only [settings_newRow, settings_countWelt, settings_relocateRow, settings_rowHard, settings_setRow, settings_fire, implies_true, settings_ite, ite_self,
        settings_foldl'])))
theorem settings_noteFail (a0 a1 a2 : _) : (State.noteFail a0 a1 a2).settings = a0.settings := by
  unfold State.noteFail
  (try simp only [settings_mapWelt, implies_true, settings_ite, ite_self, settings_foldl']) <;>
    (repeat' (first
      | with_reducible rfl
      | (simp only [settings_mapWelt, implies_true, settings_ite, ite_self, settings_foldl']; done)
      | (with_reducible refine (settings_foldl _ ?_ _ _).trans ?_)
      | (with_reducible refine (settings_foldl2 _ ?_ _ _).trans ?_)
      | (split <;> (try (rename_i h; first | (have h2 := congrArg Prod.snd h; simp only at h2; subst h2))))
      | (intro _)
      | (simp only [settings_mapWelt, implies_true, settings_ite, ite_self, settings_foldl', *]; done)
      | (simp only [settings_mapWelt, implies_true, settings_ite, ite_self, settings_foldl'])))
theorem settings_lineFailure (a0 a1 a2 a3 a4 : _) : (State.lineFailure a0 a1 a2 a3 a4).settings = a0.settings := by
  unfold State.lineFailure
  (repeat' split) <;> simp only [settings_noteFail, settings_rowFailure, settings_unitOut, implies_true, settings_ite, ite_self]
theorem settings_endChannelInj (a0 a1 : _) : (State.endChannelInj a0 a1).settings = a0.settings := by
  unfold State.endChannelInj
  exact settings_foldl _ (fun _ _ => by (repeat' split) <;> simp only [settings_setInj, implies_true]) _ _
theorem settings_clearLineInj (a0 a1 a2 : _) : (State.clearLineInj a0 a1 a2).settings = a0.settings := by
  unfold State.clearLineInj
  exact settings_foldl _ (fun _ _ => by (repeat' split) <;> simp only [settings_setInj, implies_true]) _ _
theorem settings_endLine (a0 a1 a2 : _) : (State.endLine a0 a1 a2).settings = a0.settings := by
  unfold State.endLine
  (repeat' split) <;> simp only [settings_finishRead, settings_pmCrypto, implies_true]
theorem settings_gathered (a0 a1 : _) : (State.gathered a0 a1).settings = a0.settings := by
  unfold State.gathered
  (repeat' split) <;> simp only [settings_endLine, settings_setPhase, settings_startJob, implies_true, settings_ite, ite_self]
theorem settings_deliver (a0 a1 a2 a3 a4 : _) : (State.deliver a0 a1 a2 a3 a4).settings = a0.settings := by
  unfold State.deliver
  (try simp only [settings_gathered, settings_updReq, implies_true, settings_ite, ite_self, settings_foldl']) <;>
    (repeat' (first
      | with_reducible rfl
      | (simp only [settings_gathered, settings_updReq, implies_true, settings_ite, ite_self, settings_foldl']; done)
      | (with_reducible refine (settings_foldl _ ?_ _ _).trans ?_)
      | (with_reducible refine (settings_foldl2 _ ?_ _ _).trans ?_)
      | (split <;> (try (rename_i h; first | (have h2 := congrArg Prod.snd h; simp only at h2; subst h2))))
      | (intro _)
      | (simp only [settings_gathered, settings_updReq, implies_true, settings_ite, ite_self, settings_foldl', *]; done)
      | (simp only [settings_gathered, settings_updReq, implies_true, settings_ite, ite_self, settings_foldl'])))
theorem settings_queueVerify (a0 a1 a2 a3 : _) : (State.queueVerify a0 a1 a2 a3).settings = a0.settings := by
  unfold State.queueVerify
  (try simp only [settings_charge, settings_mapWelt, implies_true, settings_ite, ite_self, settings_foldl']) <;>
    (repeat' (first
      | with_reducible rfl
      | (simp only [settings_charge, settings_mapWelt, implies_true, settings_ite, ite_self, settings_foldl']; done)
      | (with_reducible refine (settings_foldl _ ?_ _ _).trans ?_)
      | (with_reducible refine (settings_foldl2 _ ?_ _ _).trans ?_)
      | (split <;> (try (rename_i h; first | (have h2 := congrArg Prod.snd h; simp only at h2; subst h2))))
      | (intro _)
      | (simp only [settings_charge, settings_mapWelt, implies_true, settings_ite, ite_self, settings_foldl', *]; done)
      | (simp only [settings_charge, settings_mapWelt, implies_true, settings_ite, ite_self, settings_foldl'])))
theorem settings_writeBack (a0 a1 a2 a3 : _) : (State.writeBack a0 a1 a2 a3).settings = a0.settings := by
  unfold State.writeBack
  (repeat' split) <;> simp only [settings_queueVerify, settings_lineStored, settings_charge, settings_clearLineInj, settings_mapWelt, settings_setRaw, implies_true,
    settings_ite, ite_self]
theorem settings_flushBacks (a0 : _) : (State.flushBacks a0).settings = a0.settings := by
  unfold State.flushBacks
  (try simp only [settings_mapWelt, settings_writeBack, implies_true, settings_ite, ite_self, settings_foldl']) <;>
    (repeat' (first
      | with_reducible rfl
      | (simp only [settings_mapWelt, settings_writeBack, implies_true, settings_ite, ite_self, settings_foldl']; done)
      | (with_reducible refine (settings_foldl _ ?_ _ _).trans ?_)
      | (with_reducible refine (settings_foldl2 _ ?_ _ _).trans ?_)
      | (split <;> (try (rename_i h; first | (have h2 := congrArg Prod.snd h; simp only at h2; subst h2))))
      | (intro _)
      | (simp only [settings_mapWelt, settings_writeBack, implies_true, settings_ite, ite_self, settings_foldl', *]; done)
      | (simp only [settings_mapWelt, settings_writeBack, implies_true, settings_ite, ite_self, settings_foldl'])))
theorem settings_writeParity (a0 a1 a2 a3 : _) : (State.writeParity a0 a1 a2 a3).settings = a0.settings := by
  unfold State.writeParity
  (try simp only [settings_charge, settings_dropParity, settings_lineStored, settings_putParity, settings_queueVerify, settings_setParityRaw, settings_withParity,
    implies_true, settings_ite, ite_self, settings_foldl']) <;>
    (repeat' (first
      | with_reducible rfl
      | (simp only [settings_charge, settings_dropParity, settings_lineStored, settings_putParity, settings_queueVerify, settings_setParityRaw, settings_withParity,
        implies_true, settings_ite, ite_self, settings_foldl']; done)
      | (with_reducible refine (settings_foldl _ ?_ _ _).trans ?_)
      | (with_reducible refine (settings_foldl2 _ ?_ _ _).trans ?_)
      | (split <;> (try (rename_i h; first | (have h2 := congrArg Prod.snd h; simp only at h2; subst h2))))
      | (intro _)
      | (simp only [settings_charge, settings_dropParity, settings_lineStored, settings_putParity, settings_queueVerify, settings_setParityRaw, settings_withParity,
        implies_true, settings_ite, ite_self, settings_foldl', *]; done)
      | (simp only [settings_charge, settings_dropParity, settings_lineStored, settings_putParity, settings_queueVerify, settings_setParityRaw, settings_withParity,
        implies_true, settings_ite, ite_self, settings_foldl'])))
theorem settings_finishRebuild (a0 a1 a2 a3 a4 a5 : _) : (State.finishRebuild a0 a1 a2 a3 a4 a5).2.settings = a0.settings := by
  unfold State.finishRebuild
  (try simp only [settings_writeParity, settings_rebuildFails, settings_parityPairLost, settings_mapWelt, settings_countWelt, settings_lineFailure, settings_putParity,
    settings_rebuildLost, settings_writeBack, settings_raise, implies_true, settings_ite, ite_self, settings_foldl']) <;>
    (repeat' (first
      | with_reducible rfl
      | (simp only [settings_writeParity, settings_rebuildFails, settings_parityPairLost, settings_mapWelt, settings_countWelt, settings_lineFailure,
        settings_putParity, settings_rebuildLost, settings_writeBack, settings_raise, implies_true, settings_ite, ite_self, settings_foldl']; done)
      | (with_reducible refine (settings_foldl _ ?_ _ _).trans ?_)
      | (with_reducible refine (settings_foldl2 _ ?_ _ _).trans ?_)
      | (split <;> (try (rename_i h; first | (have h2 := congrArg Prod.snd h; simp only at h2; subst h2))))
      | (intro _)
      | (simp only [settings_writeParity, settings_rebuildFails, settings_parityPairLost, settings_mapWelt, settings_countWelt, settings_lineFailure,
        settings_putParity, settings_rebuildLost, settings_writeBack, settings_raise, implies_true, settings_ite, ite_self, settings_foldl', *]; done)
      | (simp only [settings_writeParity, settings_rebuildFails, settings_parityPairLost, settings_mapWelt, settings_countWelt, settings_lineFailure,
        settings_putParity, settings_rebuildLost, settings_writeBack, settings_raise, implies_true, settings_ite, ite_self, settings_foldl'])))

/-! ### Machine/HostOps.lean -/

theorem settings_chargeRebuild (a0 a1 a2 a3 a4 : _) : (State.chargeRebuild a0 a1 a2 a3 a4).settings = a0.settings := by
  unfold State.chargeRebuild
  (try simp only [settings_charge, implies_true, settings_ite, ite_self, settings_foldl']) <;>
    (repeat' (first
      | with_reducible rfl
      | (simp only [settings_charge, implies_true, settings_ite, ite_self, settings_foldl']; done)
      | (with_reducible refine (settings_foldl _ ?_ _ _).trans ?_)
      | (with_reducible refine (settings_foldl2 _ ?_ _ _).trans ?_)
      | (split <;> (try (rename_i h; first | (have h2 := congrArg Prod.snd h; simp only at h2; subst h2))))
      | (intro _)
      | (simp only [settings_charge, implies_true, settings_ite, ite_self, settings_foldl', *]; done)
      | (simp only [settings_charge, implies_true, settings_ite, ite_self, settings_foldl'])))
theorem settings_oldLine (a0 a1 a2 a3 : _) : (State.oldLine a0 a1 a2 a3).2.settings = a0.settings := by
  unfold State.oldLine
  split <;> simp only [settings_finishRebuild]
theorem settings_fillMissQueue (a0 : _) : (State.fillMissQueue a0).settings = a0.settings := by
  unfold State.fillMissQueue
  exact settings_foldl _ (fun _ _ => by (repeat' split) <;> simp only [settings_missLast, implies_true]) _ _
theorem settings_cleanWay (a0 a1 : _) : (State.cleanWay a0 a1).settings = a0.settings := by
  unfold State.cleanWay
  simp only [settings_mapLast, settings_putTable, settings_updCacheSet]
theorem settings_bufferForm (a0 a1 a2 : _) : (State.bufferForm a0 a1 a2).2.2.settings = a0.settings := by
  unfold State.bufferForm
  split <;> simp only [settings_draw, settings_pmCrypto]
theorem settings_deltaLine (a0 a1 a2 a3 a4 a5 a6 : _) : (State.deltaLine a0 a1 a2 a3 a4 a5 a6).settings = a0.settings := by
  unfold State.deltaLine
  (try simp only [settings_rebuildFails, settings_queueVerify, settings_clearLineInj, settings_countWelt, settings_deltaWrite, settings_lineFailure, settings_mapWelt,
    settings_writeOverLost, settings_raise, implies_true, settings_ite, ite_self, settings_foldl']) <;>
    (repeat' (first
      | with_reducible rfl
      | (simp only [settings_rebuildFails, settings_queueVerify, settings_clearLineInj, settings_countWelt, settings_deltaWrite, settings_lineFailure,
        settings_mapWelt, settings_writeOverLost, settings_raise, implies_true, settings_ite, ite_self, settings_foldl']; done)
      | (with_reducible refine (settings_foldl _ ?_ _ _).trans ?_)
      | (with_reducible refine (settings_foldl2 _ ?_ _ _).trans ?_)
      | (split <;> (try (rename_i h; first | (have h2 := congrArg Prod.snd h; simp only at h2; subst h2))))
      | (intro _)
      | (simp only [settings_rebuildFails, settings_queueVerify, settings_clearLineInj, settings_countWelt, settings_deltaWrite, settings_lineFailure,
        settings_mapWelt, settings_writeOverLost, settings_raise, implies_true, settings_ite, ite_self, settings_foldl', *]; done)
      | (simp only [settings_rebuildFails, settings_queueVerify, settings_clearLineInj, settings_countWelt, settings_deltaWrite, settings_lineFailure,
        settings_mapWelt, settings_writeOverLost, settings_raise, implies_true, settings_ite, ite_self, settings_foldl'])))
theorem settings_sendWrite (a0 a1 a2 a3 : _) : (State.sendWrite a0 a1 a2 a3).settings = a0.settings := by
  unfold State.sendWrite
  (try simp only [settings_post, implies_true, settings_ite, ite_self, settings_foldl']) <;>
    (repeat' (first
      | with_reducible rfl
      | (simp only [settings_post, implies_true, settings_ite, ite_self, settings_foldl']; done)
      | (with_reducible refine (settings_foldl _ ?_ _ _).trans ?_)
      | (with_reducible refine (settings_foldl2 _ ?_ _ _).trans ?_)
      | (split <;> (try (rename_i h; first | (have h2 := congrArg Prod.snd h; simp only at h2; subst h2))))
      | (intro _)
      | (simp only [settings_post, implies_true, settings_ite, ite_self, settings_foldl', *]; done)
      | (simp only [settings_post, implies_true, settings_ite, ite_self, settings_foldl'])))
theorem settings_drainLine (a0 a1 a2 a3 : _) : (State.drainLine a0 a1 a2 a3).settings = a0.settings := by
  unfold State.drainLine
  (try simp only [settings_sendWrite, settings_chargeRebuild, settings_bufferForm, settings_charge, settings_deltaLine, settings_dropMerge, settings_mapPath,
    settings_setCompat, implies_true, settings_ite, ite_self, settings_foldl']) <;>
    (repeat' (first
      | with_reducible rfl
      | (simp only [settings_sendWrite, settings_chargeRebuild, settings_bufferForm, settings_charge, settings_deltaLine, settings_dropMerge, settings_mapPath,
        settings_setCompat, implies_true, settings_ite, ite_self, settings_foldl']; done)
      | (with_reducible refine (settings_foldl _ ?_ _ _).trans ?_)
      | (with_reducible refine (settings_foldl2 _ ?_ _ _).trans ?_)
      | (split <;> (try (rename_i h; first | (have h2 := congrArg Prod.snd h; simp only at h2; subst h2))))
      | (intro _)
      | (simp only [settings_sendWrite, settings_chargeRebuild, settings_bufferForm, settings_charge, settings_deltaLine, settings_dropMerge, settings_mapPath,
        settings_setCompat, implies_true, settings_ite, ite_self, settings_foldl', *]; done)
      | (simp only [settings_sendWrite, settings_chargeRebuild, settings_bufferForm, settings_charge, settings_deltaLine, settings_dropMerge, settings_mapPath,
        settings_setCompat, implies_true, settings_ite, ite_self, settings_foldl'])))
theorem settings_takeLine (a0 a1 : _) : (State.takeLine a0 a1).settings = a0.settings := by
  unfold State.takeLine
  (try simp only [settings_charge, settings_completeOne, settings_flip, settings_gathered, settings_mapWelt, settings_pmChan, settings_setPhase, settings_updReq,
    implies_true, settings_ite, ite_self, settings_foldl']) <;>
    (repeat' (first
      | with_reducible rfl
      | (simp only [settings_charge, settings_completeOne, settings_flip, settings_gathered, settings_mapWelt, settings_pmChan, settings_setPhase, settings_updReq,
        implies_true, settings_ite, ite_self, settings_foldl']; done)
      | (with_reducible refine (settings_foldl _ ?_ _ _).trans ?_)
      | (with_reducible refine (settings_foldl2 _ ?_ _ _).trans ?_)
      | (split <;> (try (rename_i h; first | (have h2 := congrArg Prod.snd h; simp only at h2; subst h2))))
      | (intro _)
      | (simp only [settings_charge, settings_completeOne, settings_flip, settings_gathered, settings_mapWelt, settings_pmChan, settings_setPhase, settings_updReq,
        implies_true, settings_ite, ite_self, settings_foldl', *]; done)
      | (simp only [settings_charge, settings_completeOne, settings_flip, settings_gathered, settings_mapWelt, settings_pmChan, settings_setPhase, settings_updReq,
        implies_true, settings_ite, ite_self, settings_foldl'])))
theorem settings_chunkDecoded (a0 a1 : _) : (State.chunkDecoded a0 a1).settings = a0.settings := by
  unfold State.chunkDecoded
  simp only [settings_pmCodec, settings_pmCrypto]

/-! ### Machine/Tiers.lean -/

theorem settings_migrationTaken (a0 a1 a2 : _) : (State.migrationTaken a0 a1 a2).settings = a0.settings := by
  unfold State.migrationTaken
  (try simp only [settings_mapLast, settings_mapTier, settings_setBucket, implies_true, settings_ite, ite_self, settings_foldl']) <;>
    (repeat' (first
      | with_reducible rfl
      | (simp only [settings_mapLast, settings_mapTier, settings_setBucket, implies_true, settings_ite, ite_self, settings_foldl']; done)
      | (with_reducible refine (settings_foldl _ ?_ _ _).trans ?_)
      | (with_reducible refine (settings_foldl2 _ ?_ _ _).trans ?_)
      | (split <;> (try (rename_i h; first | (have h2 := congrArg Prod.snd h; simp only at h2; subst h2))))
      | (intro _)
      | (simp only [settings_mapLast, settings_mapTier, settings_setBucket, implies_true, settings_ite, ite_self, settings_foldl', *]; done)
      | (simp only [settings_mapLast, settings_mapTier, settings_setBucket, implies_true, settings_ite, ite_self, settings_foldl'])))
theorem settings_abandonDemotion (a0 a1 : _) : (State.abandonDemotion a0 a1).settings = a0.settings := by
  unfold State.abandonDemotion
  simp only [settings_giveEngines, settings_abandon, settings_countTier, settings_endJobs]
theorem settings_recodeRound (a0 a1 a2 : _) : (State.recodeRound a0 a1 a2).settings = a0.settings := by
  unfold State.recodeRound
  exact settings_foldl _ (fun _ _ => by (repeat' split) <;> simp only [settings_setTracker, settings_startJob, implies_true]) _ _
theorem settings_closeDemotionRound (a0 a1 a2 a3 : _) : (State.closeDemotionRound a0 a1 a2 a3).settings = a0.settings := by
  unfold State.closeDemotionRound
  (repeat' split) <;> simp only [settings_giveEngines, settings_abandonDemotion, settings_endJobs, settings_flip, settings_recodeRound, implies_true]
theorem settings_emergencyDest {s : State} {a b c : _} {r : Nat × List Chunk × State} (h : s.emergencyDest a b c = some r) : r.2.2.settings = s.settings := by
  unfold State.emergencyDest at h
  split at h
  · dsimp only at h
    split at h
    · obtain ⟨cs, -, rfl⟩ := Option.map_eq_some_iff.mp h
      exact settings_addToBin _ _ _ _
    · simp only [reduceCtorEq] at h
  · split at h
    · rename_i h1 _
      simp only [Option.some.injEq] at h; subst h
      have h2 := settings_takeEmergency h1
      simp only [settings_addToBin, settings_mapTier, implies_true]; exact h2
    · simp only [reduceCtorEq] at h
theorem settings_placeDemotion (a0 a1 a2 a3 a4 : _) : (State.placeDemotion a0 a1 a2 a3 a4).settings = a0.settings := by
  unfold State.placeDemotion
  dsimp only
  split; · exact settings_closeDemotionRound _ _ _ _
  split; · exact settings_abandonDemotion _ _
  split
  · split
    · exact settings_abandonDemotion _ _
    · rfl
  · rename_i h1
    rw [settings_closeDemotionRound, settings_setTracker, settings_chargeMig, settings_putChunks]
    split at h1
    · exact settings_emergencyDest h1
    · exact settings_binDest h1
theorem settings_replaceChunks (a0 a1 a2 a3 : _) : (State.replaceChunks a0 a1 a2 a3).settings = a0.settings := by
  unfold State.replaceChunks
  (repeat' split) <;> simp only [settings_abandonDemotion, settings_chargeMig, settings_closeDemotionRound, settings_putChunks, settings_removeFromBin,
    settings_setTracker, settings_updFrameRec, implies_true, settings_ite, ite_self]
theorem settings_endDecodes (a0 a1 : _) : (State.endDecodes a0 a1).settings = a0.settings := by
  unfold State.endDecodes
  dsimp only
  rw [settings_endJobs]
  refine settings_foldl _ (fun s j => ?_) _ _
  have h := settings_decodeSpoiled s ((j.engine.getD 0).val - 8)
  split
  · rename_i h1; rw [h1] at h; rw [settings_countCodec, settings_countMismatch]; exact h
  · rename_i h1; rw [h1] at h; exact h
theorem settings_closeCopyRound (a0 a1 a2 : _) : (State.closeCopyRound a0 a1 a2).settings = a0.settings := by
  unfold State.closeCopyRound
  simp only [settings_chargeMig, settings_copyHotLine, settings_flip, settings_setTracker, implies_true, settings_ite, ite_self, settings_foldl']
theorem settings_enterCandidate (a0 a1 a2 : _) : (State.enterCandidate a0 a1 a2).settings = a0.settings := by
  unfold State.enterCandidate
  (try simp only [settings_setBucket, implies_true, settings_ite, ite_self, settings_foldl']) <;>
    (repeat' (first
      | with_reducible rfl
      | (simp only [settings_setBucket, implies_true, settings_ite, ite_self, settings_foldl']; done)
      | (with_reducible refine (settings_foldl _ ?_ _ _).trans ?_)
      | (with_reducible refine (settings_foldl2 _ ?_ _ _).trans ?_)
      | (split <;> (try (rename_i h; first | (have h2 := congrArg Prod.snd h; simp only at h2; subst h2))))
      | (intro _)
      | (simp only [settings_setBucket, implies_true, settings_ite, ite_self, settings_foldl', *]; done)
      | (simp only [settings_setBucket, implies_true, settings_ite, ite_self, settings_foldl'])))
theorem settings_writeHeatMap (a0 : _) : (State.writeHeatMap a0).settings = a0.settings := by
  unfold State.writeHeatMap
  split <;> simp only [settings_writeImage, settings_mapImage, settings_mapTier, implies_true]
theorem settings_chargeSweep (a0 a1 a2 : _) : (State.chargeSweep a0 a1 a2).settings = a0.settings := by
  unfold State.chargeSweep
  (try simp only [settings_charge, settings_mapTier, implies_true, settings_ite, ite_self, settings_foldl']) <;>
    (repeat' (first
      | with_reducible rfl
      | (simp only [settings_charge, settings_mapTier, implies_true, settings_ite, ite_self, settings_foldl']; done)
      | (with_reducible refine (settings_foldl _ ?_ _ _).trans ?_)
      | (with_reducible refine (settings_foldl2 _ ?_ _ _).trans ?_)
      | (split <;> (try (rename_i h; first | (have h2 := congrArg Prod.snd h; simp only at h2; subst h2))))
      | (intro _)
      | (simp only [settings_charge, settings_mapTier, implies_true, settings_ite, ite_self, settings_foldl', *]; done)
      | (simp only [settings_charge, settings_mapTier, implies_true, settings_ite, ite_self, settings_foldl'])))
theorem settings_takeOnchip (a0 a1 : _) : (State.takeOnchip a0 a1).2.settings = a0.settings := by
  unfold State.takeOnchip
  split <;> simp only [settings_spendInj]
theorem settings_hubParity (a0 a1 : _) : (hubParity a0 a1).settings = a1.settings := by
  unfold hubParity
  simp only [settings_raise]
theorem settings_parityLost (s : State) (g l r i : _) : (State.parityLost s g l r i).settings = s.settings := by
  unfold State.parityLost
  dsimp only
  split
  · rw [settings_putParity, settings_raise, settings_countWelt]
  · rw [settings_parityPairLost, settings_raise, settings_countWelt]
theorem settings_bufferLost (a0 a1 : _) : (State.bufferLost a0 a1).settings = a0.settings := by
  unfold State.bufferLost
  simp only [settings_drainLine, settings_setDirty, settings_raise]
theorem settings_cacheFieldsLost (a0 a1 a2 a3 a4 : _) : (State.cacheFieldsLost a0 a1 a2 a3 a4).settings = a0.settings := by
  unfold State.cacheFieldsLost
  (repeat' split) <;> simp only [settings_putWay, settings_queueShadow, settings_raise, implies_true, settings_ite, ite_self]

/-! ### Machine/Sender.lean -/

theorem settings_eyeletDone (a0 a1 a2 a3 a4 a5 a6 a7 a8 : _) : (State.eyeletDone a0 a1 a2 a3 a4 a5 a6 a7 a8).settings = a0.settings := by
  unfold State.eyeletDone
  (repeat' split) <;> simp only [settings_countEye, settings_emit, settings_raiseVector, settings_updEye, settings_postNotice, implies_true, settings_ite, ite_self]
theorem settings_eyeletAnswer (a0 a1 a2 a3 a4 a5 a6 a7 a8 : _) : (State.eyeletAnswer a0 a1 a2 a3 a4 a5 a6 a7 a8).settings = a0.settings := by
  unfold State.eyeletAnswer
  split <;> simp only [settings_eyeletDone, settings_updEye]
theorem settings_reply (a0 a1 a2 a3 a4 : _) : (State.reply a0 a1 a2 a3 a4).settings = a0.settings := by
  unfold State.reply
  (repeat' split) <;> simp only [settings_emit, settings_eyeletAnswer, implies_true]
theorem settings_respStd (a0 a1 a2 a3 a4 : _) : (State.respStd a0 a1 a2 a3 a4).settings = a0.settings := by
  unfold State.respStd
  split <;> simp only [settings_emit, settings_eyeletAnswer]

/-! ### Machine/WeltOps.lean -/

theorem settings_rejoinStale (a0 a1 a2 : _) : (State.rejoinStale a0 a1 a2).settings = a0.settings := by
  unfold State.rejoinStale
  (try simp only [settings_markMember, settings_setUnit, implies_true, settings_ite, ite_self, settings_foldl']) <;>
    (repeat' (first
      | with_reducible rfl
      | (simp only [settings_markMember, settings_setUnit, implies_true, settings_ite, ite_self, settings_foldl']; done)
      | (with_reducible refine (settings_foldl _ ?_ _ _).trans ?_)
      | (with_reducible refine (settings_foldl2 _ ?_ _ _).trans ?_)
      | (split <;> (try (rename_i h; first | (have h2 := congrArg Prod.snd h; simp only at h2; subst h2))))
      | (intro _)
      | (simp only [settings_markMember, settings_setUnit, implies_true, settings_ite, ite_self, settings_foldl', *]; done)
      | (simp only [settings_markMember, settings_setUnit, implies_true, settings_ite, ite_self, settings_foldl'])))
theorem settings_scrubOn (a0 : _) : (State.scrubOn a0).settings = a0.settings := by
  unfold State.scrubOn
  split <;> simp only [settings_countWelt, settings_mapWelt, implies_true]
theorem settings_spareShort (a0 a1 a2 : _) : (State.spareShort a0 a1 a2).settings = a0.settings := by
  unfold State.spareShort
  split <;> simp only [settings_setUnit, settings_fire]
theorem settings_rebuildOn (a0 a1 a2 : _) : (State.rebuildOn a0 a1 a2).settings = a0.settings := by
  unfold State.rebuildOn
  (try simp only [settings_setUnit, implies_true, settings_ite, ite_self, settings_foldl']) <;>
    (repeat' (first
      | with_reducible rfl
      | (simp only [settings_setUnit, implies_true, settings_ite, ite_self, settings_foldl']; done)
      | (with_reducible refine (settings_foldl _ ?_ _ _).trans ?_)
      | (with_reducible refine (settings_foldl2 _ ?_ _ _).trans ?_)
      | (split <;> (try (rename_i h; first | (have h2 := congrArg Prod.snd h; simp only at h2; subst h2))))
      | (intro _)
      | (simp only [settings_setUnit, implies_true, settings_ite, ite_self, settings_foldl', *]; done)
      | (simp only [settings_setUnit, implies_true, settings_ite, ite_self, settings_foldl'])))
theorem settings_rebuildEnds (a0 a1 a2 : _) : (State.rebuildEnds a0 a1 a2).settings = a0.settings := by
  unfold State.rebuildEnds
  (try simp only [settings_setUnit, implies_true, settings_ite, ite_self, settings_foldl']) <;>
    (repeat' (first
      | with_reducible rfl
      | (simp only [settings_setUnit, implies_true, settings_ite, ite_self, settings_foldl']; done)
      | (with_reducible refine (settings_foldl _ ?_ _ _).trans ?_)
      | (with_reducible refine (settings_foldl2 _ ?_ _ _).trans ?_)
      | (split <;> (try (rename_i h; first | (have h2 := congrArg Prod.snd h; simp only at h2; subst h2))))
      | (intro _)
      | (simp only [settings_setUnit, implies_true, settings_ite, ite_self, settings_foldl', *]; done)
      | (simp only [settings_setUnit, implies_true, settings_ite, ite_self, settings_foldl'])))
theorem settings_spareOne {s : State} {a b : _} {r : State} (h : s.spareOne a b = some r) : r.settings = s.settings := by
  simp only [State.spareOne, Option.map_eq_some_iff] at h
  obtain ⟨o, -, rfl⟩ := h
  simp only [settings_charge, settings_spareMember]
theorem settings_relocateFold (s : State) (k : MigKind) (f : Frame) (l : List Dpn) (acc : Option State) (ha : ∀ t, acc = some t → t.settings = s.settings) :
    ∀ t, l.foldl (fun acc d => match (acc.getD s).startMigration k d f with | some t => some t | none => acc) acc = some t → t.settings = s.settings := by
  induction l generalizing acc with
  | nil => exact ha
  | cons d l ih =>
    rw [List.foldl_cons]; refine ih _ ?_
    intro t ht
    split at ht
    · rename_i h1; have h2 := settings_startMigration h1
      simp only [Option.some.injEq] at ht; subst ht; rw [h2]
      cases acc with
      | none => rfl
      | some u => exact ha u rfl
    · exact ha t ht
theorem settings_relocatePages (a0 a1 : _) : (State.relocatePages a0 a1).settings = a0.settings := by
  unfold State.relocatePages
  (try simp only [settings_startOrWait, implies_true, settings_ite, ite_self, settings_foldl']) <;>
    (repeat' (first
      | with_reducible rfl
      | (simp only [settings_startOrWait, implies_true, settings_ite, ite_self, settings_foldl']; done)
      | (with_reducible refine (settings_foldl _ ?_ _ _).trans ?_)
      | (with_reducible refine (settings_foldl2 _ ?_ _ _).trans ?_)
      | (split <;> (try (rename_i h; first | (have h2 := congrArg Prod.snd h; simp only at h2; subst h2))))
      | (intro _)
      | (simp only [settings_startOrWait, implies_true, settings_ite, ite_self, settings_foldl', *]; done)
      | (simp only [settings_startOrWait, implies_true, settings_ite, ite_self, settings_foldl'])))
theorem settings_resolveLine (a0 a1 a2 a3 a4 : _) : (State.resolveLine a0 a1 a2 a3 a4).settings = a0.settings := by
  unfold State.resolveLine
  (try simp only [settings_moveLine, settings_countWelt, settings_deltaParity, settings_draw, settings_setRaw, implies_true, settings_ite, ite_self, settings_foldl']) <;>
    (repeat' (first
      | with_reducible rfl
      | (simp only [settings_moveLine, settings_countWelt, settings_deltaParity, settings_draw, settings_setRaw, implies_true, settings_ite, ite_self,
        settings_foldl']; done)
      | (with_reducible refine (settings_foldl _ ?_ _ _).trans ?_)
      | (with_reducible refine (settings_foldl2 _ ?_ _ _).trans ?_)
      | (split <;> (try (rename_i h; first | (have h2 := congrArg Prod.snd h; simp only at h2; subst h2))))
      | (intro _)
      | (simp only [settings_moveLine, settings_countWelt, settings_deltaParity, settings_draw, settings_setRaw, implies_true, settings_ite, ite_self, settings_foldl',
        *]; done)
      | (simp only [settings_moveLine, settings_countWelt, settings_deltaParity, settings_draw, settings_setRaw, implies_true, settings_ite, ite_self, settings_foldl'])))
theorem settings_unretire (a0 a1 : _) : (State.unretire a0 a1).settings = a0.settings := by
  unfold State.unretire
  (try simp only [settings_moveLine, settings_deltaParity, settings_mapWelt, settings_setFrameRec, settings_setRaw, implies_true, settings_ite, ite_self,
    settings_foldl']) <;>
    (repeat' (first
      | with_reducible rfl
      | (simp only [settings_moveLine, settings_deltaParity, settings_mapWelt, settings_setFrameRec, settings_setRaw, implies_true, settings_ite, ite_self,
        settings_foldl']; done)
      | (with_reducible refine (settings_foldl _ ?_ _ _).trans ?_)
      | (with_reducible refine (settings_foldl2 _ ?_ _ _).trans ?_)
      | (split <;> (try (rename_i h; first | (have h2 := congrArg Prod.snd h; simp only at h2; subst h2))))
      | (intro _)
      | (simp only [settings_moveLine, settings_deltaParity, settings_mapWelt, settings_setFrameRec, settings_setRaw, implies_true, settings_ite, ite_self,
        settings_foldl', *]; done)
      | (simp only [settings_moveLine, settings_deltaParity, settings_mapWelt, settings_setFrameRec, settings_setRaw, implies_true, settings_ite, ite_self,
        settings_foldl'])))
theorem settings_poolGains (a0 a1 : _) : (State.poolGains a0 a1).settings = a0.settings := by
  unfold State.poolGains
  split <;> simp only [settings_afterFree, settings_mapTier, implies_true]
theorem settings_resolveGroup (a0 a1 a2 a3 : _) : (State.resolveGroup a0 a1 a2 a3).settings = a0.settings := by
  unfold State.resolveGroup
  (try simp only [settings_charge, settings_poolGains, settings_resolveLine, settings_setUnit, settings_unretire, implies_true, settings_ite, ite_self,
    settings_foldl']) <;>
    (repeat' (first
      | with_reducible rfl
      | (simp only [settings_charge, settings_poolGains, settings_resolveLine, settings_setUnit, settings_unretire, implies_true, settings_ite, ite_self,
        settings_foldl']; done)
      | (with_reducible refine (settings_foldl _ ?_ _ _).trans ?_)
      | (with_reducible refine (settings_foldl2 _ ?_ _ _).trans ?_)
      | (split <;> (try (rename_i h; first | (have h2 := congrArg Prod.snd h; simp only at h2; subst h2))))
      | (intro _)
      | (simp only [settings_charge, settings_poolGains, settings_resolveLine, settings_setUnit, settings_unretire, implies_true, settings_ite, ite_self,
        settings_foldl', *]; done)
      | (simp only [settings_charge, settings_poolGains, settings_resolveLine, settings_setUnit, settings_unretire, implies_true, settings_ite, ite_self,
        settings_foldl'])))

/-! ### Machine/Channels.lean -/

theorem settings_refreshOne (a0 a1 a2 : _) : (State.refreshOne a0 a1 a2).settings = a0.settings := by
  unfold State.refreshOne
  (try simp only [settings_emit, settings_updChan, implies_true, settings_ite, ite_self, settings_foldl']) <;>
    (repeat' (first
      | with_reducible rfl
      | (simp only [settings_emit, settings_updChan, implies_true, settings_ite, ite_self, settings_foldl']; done)
      | (with_reducible refine (settings_foldl _ ?_ _ _).trans ?_)
      | (with_reducible refine (settings_foldl2 _ ?_ _ _).trans ?_)
      | (split <;> (try (rename_i h; first | (have h2 := congrArg Prod.snd h; simp only at h2; subst h2))))
      | (intro _)
      | (simp only [settings_emit, settings_updChan, implies_true, settings_ite, ite_self, settings_foldl', *]; done)
      | (simp only [settings_emit, settings_updChan, implies_true, settings_ite, ite_self, settings_foldl'])))
theorem settings_refreshRank (a0 a1 a2 a3 : _) : (State.refreshRank a0 a1 a2 a3).settings = a0.settings := by
  unfold State.refreshRank
  (try simp only [settings_pmChan, settings_refreshOne, implies_true, settings_ite, ite_self, settings_foldl']) <;>
    (repeat' (first
      | with_reducible rfl
      | (simp only [settings_pmChan, settings_refreshOne, implies_true, settings_ite, ite_self, settings_foldl']; done)
      | (with_reducible refine (settings_foldl _ ?_ _ _).trans ?_)
      | (with_reducible refine (settings_foldl2 _ ?_ _ _).trans ?_)
      | (split <;> (try (rename_i h; first | (have h2 := congrArg Prod.snd h; simp only at h2; subst h2))))
      | (intro _)
      | (simp only [settings_pmChan, settings_refreshOne, implies_true, settings_ite, ite_self, settings_foldl', *]; done)
      | (simp only [settings_pmChan, settings_refreshOne, implies_true, settings_ite, ite_self, settings_foldl'])))
theorem settings_setSelfRefresh (a0 a1 a2 : _) : (State.setSelfRefresh a0 a1 a2).settings = a0.settings := by
  unfold State.setSelfRefresh
  (try simp only [settings_emit, settings_updChan, implies_true, settings_ite, ite_self, settings_foldl']) <;>
    (repeat' (first
      | with_reducible rfl
      | (simp only [settings_emit, settings_updChan, implies_true, settings_ite, ite_self, settings_foldl']; done)
      | (with_reducible refine (settings_foldl _ ?_ _ _).trans ?_)
      | (with_reducible refine (settings_foldl2 _ ?_ _ _).trans ?_)
      | (split <;> (try (rename_i h; first | (have h2 := congrArg Prod.snd h; simp only at h2; subst h2))))
      | (intro _)
      | (simp only [settings_emit, settings_updChan, implies_true, settings_ite, ite_self, settings_foldl', *]; done)
      | (simp only [settings_emit, settings_updChan, implies_true, settings_ite, ite_self, settings_foldl'])))
theorem settings_relocateAggressor (a0 a1 a2 : _) : (State.relocateAggressor a0 a1 a2).settings = a0.settings := by
  unfold State.relocateAggressor
  (try simp only [settings_startOrWait, implies_true, settings_ite, ite_self, settings_foldl']) <;>
    (repeat' (first
      | with_reducible rfl
      | (simp only [settings_startOrWait, implies_true, settings_ite, ite_self, settings_foldl']; done)
      | (with_reducible refine (settings_foldl _ ?_ _ _).trans ?_)
      | (with_reducible refine (settings_foldl2 _ ?_ _ _).trans ?_)
      | (split <;> (try (rename_i h; first | (have h2 := congrArg Prod.snd h; simp only at h2; subst h2))))
      | (intro _)
      | (simp only [settings_startOrWait, implies_true, settings_ite, ite_self, settings_foldl', *]; done)
      | (simp only [settings_startOrWait, implies_true, settings_ite, ite_self, settings_foldl'])))
theorem settings_countRaa (a0 a1 a2 : _) : (State.countRaa a0 a1 a2).settings = a0.settings := by
  unfold State.countRaa
  (try simp only [settings_countChan, settings_emit, settings_updChan, implies_true, settings_ite, ite_self, settings_foldl']) <;>
    (repeat' (first
      | with_reducible rfl
      | (simp only [settings_countChan, settings_emit, settings_updChan, implies_true, settings_ite, ite_self, settings_foldl']; done)
      | (with_reducible refine (settings_foldl _ ?_ _ _).trans ?_)
      | (with_reducible refine (settings_foldl2 _ ?_ _ _).trans ?_)
      | (split <;> (try (rename_i h; first | (have h2 := congrArg Prod.snd h; simp only at h2; subst h2))))
      | (intro _)
      | (simp only [settings_countChan, settings_emit, settings_updChan, implies_true, settings_ite, ite_self, settings_foldl', *]; done)
      | (simp only [settings_countChan, settings_emit, settings_updChan, implies_true, settings_ite, ite_self, settings_foldl'])))
theorem settings_activate (a0 a1 a2 a3 : _) : (State.activate a0 a1 a2 a3).settings = a0.settings := by
  unfold State.activate
  (repeat' split) <;> simp only [settings_countRaa, settings_countChan, settings_countReg, settings_emit, settings_relocateAggressor, settings_updChan,
    settings_updMaster, settings_raise, implies_true, settings_ite, ite_self]
theorem settings_moveBurst (a0 a1 a2 a3 : _) : (State.moveBurst a0 a1 a2 a3).settings = a0.settings := by
  unfold State.moveBurst
  (try simp only [settings_emit, settings_updChan, implies_true, settings_ite, ite_self, settings_foldl']) <;>
    (repeat' (first
      | with_reducible rfl
      | (simp only [settings_emit, settings_updChan, implies_true, settings_ite, ite_self, settings_foldl']; done)
      | (with_reducible refine (settings_foldl _ ?_ _ _).trans ?_)
      | (with_reducible refine (settings_foldl2 _ ?_ _ _).trans ?_)
      | (split <;> (try (rename_i h; first | (have h2 := congrArg Prod.snd h; simp only at h2; subst h2))))
      | (intro _)
      | (simp only [settings_emit, settings_updChan, implies_true, settings_ite, ite_self, settings_foldl', *]; done)
      | (simp only [settings_emit, settings_updChan, implies_true, settings_ite, ite_self, settings_foldl'])))
theorem settings_dieAnswers (a0 a1 a2 : _) : (State.dieAnswers a0 a1 a2).settings = a0.settings := by
  unfold State.dieAnswers
  (try simp only [settings_post, implies_true, settings_ite, ite_self, settings_foldl']) <;>
    (repeat' (first
      | with_reducible rfl
      | (simp only [settings_post, implies_true, settings_ite, ite_self, settings_foldl']; done)
      | (with_reducible refine (settings_foldl _ ?_ _ _).trans ?_)
      | (with_reducible refine (settings_foldl2 _ ?_ _ _).trans ?_)
      | (split <;> (try (rename_i h; first | (have h2 := congrArg Prod.snd h; simp only at h2; subst h2))))
      | (intro _)
      | (simp only [settings_post, implies_true, settings_ite, ite_self, settings_foldl', *]; done)
      | (simp only [settings_post, implies_true, settings_ite, ite_self, settings_foldl'])))
theorem settings_serveReq (a0 a1 a2 : _) : (State.serveReq a0 a1 a2).settings = a0.settings := by
  unfold State.serveReq
  (try simp only [settings_activate, settings_dieAnswers, settings_moveBurst, settings_pmChan, settings_updChan, implies_true, settings_ite, ite_self,
    settings_foldl']) <;>
    (repeat' (first
      | with_reducible rfl
      | (simp only [settings_activate, settings_dieAnswers, settings_moveBurst, settings_pmChan, settings_updChan, implies_true, settings_ite, ite_self,
        settings_foldl']; done)
      | (with_reducible refine (settings_foldl _ ?_ _ _).trans ?_)
      | (with_reducible refine (settings_foldl2 _ ?_ _ _).trans ?_)
      | (split <;> (try (rename_i h; first | (have h2 := congrArg Prod.snd h; simp only at h2; subst h2))))
      | (intro _)
      | (simp only [settings_activate, settings_dieAnswers, settings_moveBurst, settings_pmChan, settings_updChan, implies_true, settings_ite, ite_self,
        settings_foldl', *]; done)
      | (simp only [settings_activate, settings_dieAnswers, settings_moveBurst, settings_pmChan, settings_updChan, implies_true, settings_ite, ite_self,
        settings_foldl'])))
theorem settings_serveNext (a0 a1 : _) : (State.serveNext a0 a1).settings = a0.settings := by
  unfold State.serveNext
  (try simp only [settings_serveReq, settings_updChan, implies_true, settings_ite, ite_self, settings_foldl']) <;>
    (repeat' (first
      | with_reducible rfl
      | (simp only [settings_serveReq, settings_updChan, implies_true, settings_ite, ite_self, settings_foldl']; done)
      | (with_reducible refine (settings_foldl _ ?_ _ _).trans ?_)
      | (with_reducible refine (settings_foldl2 _ ?_ _ _).trans ?_)
      | (split <;> (try (rename_i h; first | (have h2 := congrArg Prod.snd h; simp only at h2; subst h2))))
      | (intro _)
      | (simp only [settings_serveReq, settings_updChan, implies_true, settings_ite, ite_self, settings_foldl', *]; done)
      | (simp only [settings_serveReq, settings_updChan, implies_true, settings_ite, ite_self, settings_foldl'])))
theorem settings_letIn (a0 a1 : _) : (State.letIn a0 a1).settings = a0.settings := by
  unfold State.letIn
  (try simp only [settings_updChan, implies_true, settings_ite, ite_self, settings_foldl']) <;>
    (repeat' (first
      | with_reducible rfl
      | (simp only [settings_updChan, implies_true, settings_ite, ite_self, settings_foldl']; done)
      | (with_reducible refine (settings_foldl _ ?_ _ _).trans ?_)
      | (with_reducible refine (settings_foldl2 _ ?_ _ _).trans ?_)
      | (split <;> (try (rename_i h; first | (have h2 := congrArg Prod.snd h; simp only at h2; subst h2))))
      | (intro _)
      | (simp only [settings_updChan, implies_true, settings_ite, ite_self, settings_foldl', *]; done)
      | (simp only [settings_updChan, implies_true, settings_ite, ite_self, settings_foldl'])))
theorem settings_enqueue (a0 a1 a2 : _) : (State.enqueue a0 a1 a2).settings = a0.settings := by
  unfold State.enqueue
  (repeat' split) <;> simp only [settings_serveNext, settings_letIn, settings_activate, settings_pmChan, settings_updChan, implies_true, settings_ite, ite_self]
theorem settings_closeRow (a0 a1 a2 : _) : (State.closeRow a0 a1 a2).settings = a0.settings := by
  unfold State.closeRow
  (try simp only [settings_emit, settings_updChan, implies_true, settings_ite, ite_self, settings_foldl']) <;>
    (repeat' (first
      | with_reducible rfl
      | (simp only [settings_emit, settings_updChan, implies_true, settings_ite, ite_self, settings_foldl']; done)
      | (with_reducible refine (settings_foldl _ ?_ _ _).trans ?_)
      | (with_reducible refine (settings_foldl2 _ ?_ _ _).trans ?_)
      | (split <;> (try (rename_i h; first | (have h2 := congrArg Prod.snd h; simp only at h2; subst h2))))
      | (intro _)
      | (simp only [settings_emit, settings_updChan, implies_true, settings_ite, ite_self, settings_foldl', *]; done)
      | (simp only [settings_emit, settings_updChan, implies_true, settings_ite, ite_self, settings_foldl'])))
theorem settings_leaveQueue (a0 a1 a2 : _) : (State.leaveQueue a0 a1 a2).settings = a0.settings := by
  unfold State.leaveQueue
  (try simp only [settings_closeRow, settings_letIn, settings_serveNext, settings_serveReq, settings_updChan, implies_true, settings_ite, ite_self, settings_foldl']) <;>
    (repeat' (first
      | with_reducible rfl
      | (simp only [settings_closeRow, settings_letIn, settings_serveNext, settings_serveReq, settings_updChan, implies_true, settings_ite, ite_self,
        settings_foldl']; done)
      | (with_reducible refine (settings_foldl _ ?_ _ _).trans ?_)
      | (with_reducible refine (settings_foldl2 _ ?_ _ _).trans ?_)
      | (split <;> (try (rename_i h; first | (have h2 := congrArg Prod.snd h; simp only at h2; subst h2))))
      | (intro _)
      | (simp only [settings_closeRow, settings_letIn, settings_serveNext, settings_serveReq, settings_updChan, implies_true, settings_ite, ite_self, settings_foldl',
        *]; done)
      | (simp only [settings_closeRow, settings_letIn, settings_serveNext, settings_serveReq, settings_updChan, implies_true, settings_ite, ite_self, settings_foldl'])))
theorem settings_slotPin (a0 a1 a2 : _) : (State.slotPin a0 a1 a2).settings = a0.settings := id rfl
theorem settings_slotsOff (a0 a1 : _) : (State.slotsOff a0 a1).settings = a0.settings := by
  unfold State.slotsOff
  simp only [settings_slotPin, settings_emit, settings_updChan]
theorem settings_setUnitState (a0 a1 a2 : _) : (State.setUnitState a0 a1 a2).settings = a0.settings := by
  unfold State.setUnitState
  split <;> simp only [settings_setUnit]
theorem settings_rejoinEnds (a0 a1 a2 : _) : (State.rejoinEnds a0 a1 a2).settings = a0.settings := by
  unfold State.rejoinEnds
  (try simp only [settings_setUnitState, settings_reply, settings_slotsOff, settings_updChan, implies_true, settings_ite, ite_self, settings_foldl']) <;>
    (repeat' (first
      | with_reducible rfl
      | (simp only [settings_setUnitState, settings_reply, settings_slotsOff, settings_updChan, implies_true, settings_ite, ite_self, settings_foldl']; done)
      | (with_reducible refine (settings_foldl _ ?_ _ _).trans ?_)
      | (with_reducible refine (settings_foldl2 _ ?_ _ _).trans ?_)
      | (split <;> (try (rename_i h; first | (have h2 := congrArg Prod.snd h; simp only at h2; subst h2))))
      | (intro _)
      | (simp only [settings_setUnitState, settings_reply, settings_slotsOff, settings_updChan, implies_true, settings_ite, ite_self, settings_foldl', *]; done)
      | (simp only [settings_setUnitState, settings_reply, settings_slotsOff, settings_updChan, implies_true, settings_ite, ite_self, settings_foldl'])))
theorem settings_channelFails (a0 a1 a2 : _) : (State.channelFails a0 a1 a2).settings = a0.settings := by
  unfold State.channelFails
  simp only [settings_unitOut]
theorem settings_channelAlert (a0 a1 a2 a3 a4 : _) : (State.channelAlert a0 a1 a2 a3 a4).settings = a0.settings := by
  unfold State.channelAlert
  (repeat' split) <;> simp only [settings_emit, settings_countChan, settings_unitOut, settings_updChan, settings_raise, settings_raiseFencing, implies_true,
    settings_ite, ite_self]
theorem settings_startRateChange (a0 a1 a2 : _) : (State.startRateChange a0 a1 a2).settings = a0.settings := by
  unfold State.startRateChange
  simp only [settings_setSelfRefresh, settings_emit, settings_setUnitState, settings_unitOut, settings_updChan]
theorem settings_setControl (a0 a1 a2 : _) : (State.setControl a0 a1 a2).settings = a0.settings := by
  unfold State.setControl
  (try simp only [settings_refreshRank, settings_updChan, implies_true, settings_ite, ite_self, settings_foldl']) <;>
    (repeat' (first
      | with_reducible rfl
      | (simp only [settings_refreshRank, settings_updChan, implies_true, settings_ite, ite_self, settings_foldl']; done)
      | (with_reducible refine (settings_foldl _ ?_ _ _).trans ?_)
      | (with_reducible refine (settings_foldl2 _ ?_ _ _).trans ?_)
      | (split <;> (try (rename_i h; first | (have h2 := congrArg Prod.snd h; simp only at h2; subst h2))))
      | (intro _)
      | (simp only [settings_refreshRank, settings_updChan, implies_true, settings_ite, ite_self, settings_foldl', *]; done)
      | (simp only [settings_refreshRank, settings_updChan, implies_true, settings_ite, ite_self, settings_foldl'])))
theorem settings_park (a0 a1 a2 : _) : (State.park a0 a1 a2).settings = a0.settings := by
  unfold State.park
  simp only [settings_slotPin, settings_emit, settings_updChan]
theorem settings_unitWithdrawn (a0 a1 : _) : (State.unitWithdrawn a0 a1).settings = a0.settings := by
  unfold State.unitWithdrawn
  (repeat' split) <;> simp only [settings_placeCopies, settings_recomputeUsable, settings_recordUnit, settings_setUnit, settings_updChan, settings_raise, implies_true]
theorem settings_markUnusable (a0 a1 a2 : _) : (State.markUnusable a0 a1 a2).settings = a0.settings := by
  unfold State.markUnusable
  (try simp only [settings_updChan, implies_true, settings_ite, ite_self, settings_foldl']) <;>
    (repeat' (first
      | with_reducible rfl
      | (simp only [settings_updChan, implies_true, settings_ite, ite_self, settings_foldl']; done)
      | (with_reducible refine (settings_foldl _ ?_ _ _).trans ?_)
      | (with_reducible refine (settings_foldl2 _ ?_ _ _).trans ?_)
      | (split <;> (try (rename_i h; first | (have h2 := congrArg Prod.snd h; simp only at h2; subst h2))))
      | (intro _)
      | (simp only [settings_updChan, implies_true, settings_ite, ite_self, settings_foldl', *]; done)
      | (simp only [settings_updChan, implies_true, settings_ite, ite_self, settings_foldl'])))
theorem settings_trainFails (a0 a1 a2 : _) : (State.trainFails a0 a1 a2).settings = a0.settings := by
  unfold State.trainFails
  simp only [settings_markUnusable, settings_unitOut, settings_unitWithdrawn, settings_updChan, settings_raise, implies_true, settings_ite, ite_self, settings_foldl']
theorem settings_trainRecord (a0 a1 a2 : _) : (State.trainRecord a0 a1 a2).settings = a0.settings := by
  unfold State.trainRecord
  simp only [settings_draw, settings_updChan]
theorem settings_startDeferred (a0 a1 : _) : (State.startDeferred a0 a1).settings = a0.settings := by
  unfold State.startDeferred
  (try simp only [settings_setControl, settings_reply, settings_startRateChange, settings_updChan, implies_true, settings_ite, ite_self, settings_foldl']) <;>
    (repeat' (first
      | with_reducible rfl
      | (simp only [settings_setControl, settings_reply, settings_startRateChange, settings_updChan, implies_true, settings_ite, ite_self, settings_foldl']; done)
      | (with_reducible refine (settings_foldl _ ?_ _ _).trans ?_)
      | (with_reducible refine (settings_foldl2 _ ?_ _ _).trans ?_)
      | (split <;> (try (rename_i h; first | (have h2 := congrArg Prod.snd h; simp only at h2; subst h2))))
      | (intro _)
      | (simp only [settings_setControl, settings_reply, settings_startRateChange, settings_updChan, implies_true, settings_ite, ite_self, settings_foldl', *]; done)
      | (simp only [settings_setControl, settings_reply, settings_startRateChange, settings_updChan, implies_true, settings_ite, ite_self, settings_foldl'])))
theorem settings_trained (a0 a1 a2 a3 : _) : (State.trained a0 a1 a2 a3).settings = a0.settings := by
  unfold State.trained
  (try simp only [settings_recomputeUsable, settings_rejoinStale, settings_setUnitState, settings_trainRecord, settings_updChan, settings_raise, implies_true,
    settings_ite, ite_self, settings_foldl']) <;>
    (repeat' (first
      | with_reducible rfl
      | (simp only [settings_recomputeUsable, settings_rejoinStale, settings_setUnitState, settings_trainRecord, settings_updChan, settings_raise, implies_true,
        settings_ite, ite_self, settings_foldl']; done)
      | (with_reducible refine (settings_foldl _ ?_ _ _).trans ?_)
      | (with_reducible refine (settings_foldl2 _ ?_ _ _).trans ?_)
      | (split <;> (try (rename_i h; first | (have h2 := congrArg Prod.snd h; simp only at h2; subst h2))))
      | (intro _)
      | (simp only [settings_recomputeUsable, settings_rejoinStale, settings_setUnitState, settings_trainRecord, settings_updChan, settings_raise, implies_true,
        settings_ite, ite_self, settings_foldl', *]; done)
      | (simp only [settings_recomputeUsable, settings_rejoinStale, settings_setUnitState, settings_trainRecord, settings_updChan, settings_raise, implies_true,
        settings_ite, ite_self, settings_foldl'])))
theorem settings_rankOut (a0 a1 a2 : _) : (State.rankOut a0 a1 a2).settings = a0.settings := by
  unfold State.rankOut
  (try simp only [settings_dataLoss, settings_placeCopies, settings_raise, settings_recomputeUsable, settings_recordUnit, settings_setUnit, implies_true, settings_ite,
    ite_self, settings_foldl']) <;>
    (repeat' (first
      | with_reducible rfl
      | (simp only [settings_dataLoss, settings_placeCopies, settings_raise, settings_recomputeUsable, settings_recordUnit, settings_setUnit, implies_true,
        settings_ite, ite_self, settings_foldl']; done)
      | (with_reducible refine (settings_foldl _ ?_ _ _).trans ?_)
      | (with_reducible refine (settings_foldl2 _ ?_ _ _).trans ?_)
      | (split <;> (try (rename_i h; first | (have h2 := congrArg Prod.snd h; simp only at h2; subst h2))))
      | (intro _)
      | (simp only [settings_dataLoss, settings_placeCopies, settings_raise, settings_recomputeUsable, settings_recordUnit, settings_setUnit, implies_true,
        settings_ite, ite_self, settings_foldl', *]; done)
      | (simp only [settings_dataLoss, settings_placeCopies, settings_raise, settings_recomputeUsable, settings_recordUnit, settings_setUnit, implies_true,
        settings_ite, ite_self, settings_foldl'])))
theorem settings_trainGivesUp (a0 a1 a2 : _) : (State.trainGivesUp a0 a1 a2).settings = a0.settings := by
  unfold State.trainGivesUp
  (try simp only [settings_rejoinStale, settings_rankOut, settings_markUnusable, settings_setUnitState, settings_slotsOff, settings_trainFails, settings_trained,
    settings_unitFails, settings_updChan, settings_raise, implies_true, settings_ite, ite_self, settings_foldl']) <;>
    (repeat' (first
      | with_reducible rfl
      | (simp only [settings_rejoinStale, settings_rankOut, settings_markUnusable, settings_setUnitState, settings_slotsOff, settings_trainFails, settings_trained,
        settings_unitFails, settings_updChan, settings_raise, implies_true, settings_ite, ite_self, settings_foldl']; done)
      | (with_reducible refine (settings_foldl _ ?_ _ _).trans ?_)
      | (with_reducible refine (settings_foldl2 _ ?_ _ _).trans ?_)
      | (split <;> (try (rename_i h; first | (have h2 := congrArg Prod.snd h; simp only at h2; subst h2))))
      | (intro _)
      | (simp only [settings_rejoinStale, settings_rankOut, settings_markUnusable, settings_setUnitState, settings_slotsOff, settings_trainFails, settings_trained,
        settings_unitFails, settings_updChan, settings_raise, implies_true, settings_ite, ite_self, settings_foldl', *]; done)
      | (simp only [settings_rejoinStale, settings_rankOut, settings_markUnusable, settings_setUnitState, settings_slotsOff, settings_trainFails, settings_trained,
        settings_unitFails, settings_updChan, settings_raise, implies_true, settings_ite, ite_self, settings_foldl'])))
theorem settings_channelDerate (a0 a1 : _) : (State.channelDerate a0 a1).settings = a0.settings := by
  unfold State.channelDerate
  (repeat' split) <;> simp only [settings_mapPower, settings_trainGivesUp, settings_updChan, settings_raise, implies_true, settings_ite, ite_self]

/-! ### Machine/Lace.lean -/

theorem settings_startRetrain (a0 a1 : _) : (State.startRetrain a0 a1).settings = a0.settings := by
  unfold State.startRetrain
  split <;> simp only [settings_beginTraining, settings_countLace, settings_updBoth, settings_updLaceMod, settings_fire]
theorem settings_retrainFails (a0 a1 : _) : (State.retrainFails a0 a1).settings = a0.settings := by
  unfold State.retrainFails
  (repeat' split) <;> simp only [settings_beginTraining, settings_countLace, settings_moduleDown, settings_updBoth, settings_updLaceMod, settings_fire, implies_true,
    settings_ite, ite_self]
theorem settings_protocolError (a0 a1 : _) : (State.protocolError a0 a1).settings = a0.settings := by
  unfold State.protocolError
  simp only [settings_startRetrain, settings_raiseFencing]
theorem settings_nakIfAllowed (a0 a1 a2 : _) : (State.nakIfAllowed a0 a1 a2).settings = a0.settings := by
  unfold State.nakIfAllowed
  (repeat' split) <;> simp only [settings_countLace, settings_sendCtrl, settings_updSide, implies_true, settings_ite, ite_self]
theorem settings_crcFails (a0 a1 a2 a3 a4 a5 : _) : (State.crcFails a0 a1 a2 a3 a4 a5).settings = a0.settings := by
  unfold State.crcFails
  (try simp only [settings_countLace, settings_moduleDown, settings_nakIfAllowed, settings_raiseFencing, settings_retrainFails, settings_updSide, implies_true,
    settings_ite, ite_self, settings_foldl']) <;>
    (repeat' (first
      | with_reducible rfl
      | (simp only [settings_countLace, settings_moduleDown, settings_nakIfAllowed, settings_raiseFencing, settings_retrainFails, settings_updSide, implies_true,
        settings_ite, ite_self, settings_foldl']; done)
      | (with_reducible refine (settings_foldl _ ?_ _ _).trans ?_)
      | (with_reducible refine (settings_foldl2 _ ?_ _ _).trans ?_)
      | (split <;> (try (rename_i h; first | (have h2 := congrArg Prod.snd h; simp only at h2; subst h2))))
      | (intro _)
      | (simp only [settings_countLace, settings_moduleDown, settings_nakIfAllowed, settings_raiseFencing, settings_retrainFails, settings_updSide, implies_true,
        settings_ite, ite_self, settings_foldl', *]; done)
      | (simp only [settings_countLace, settings_moduleDown, settings_nakIfAllowed, settings_raiseFencing, settings_retrainFails, settings_updSide, implies_true,
        settings_ite, ite_self, settings_foldl'])))
theorem settings_replayFrom (a0 a1 a2 a3 : _) : (State.replayFrom a0 a1 a2 a3).settings = a0.settings := by
  unfold State.replayFrom
  (repeat' split) <;> simp only [settings_countLace, settings_emits, implies_true, settings_ite, ite_self]
theorem settings_takeAck (a0 a1 a2 a3 a4 : _) : (State.takeAck a0 a1 a2 a3 a4).settings = a0.settings := by
  unfold State.takeAck
  (repeat' split) <;> simp only [settings_replayFrom, settings_updSide, implies_true]
theorem settings_takeCredit (a0 a1 a2 a3 a4 : _) : (State.takeCredit a0 a1 a2 a3 a4).settings = a0.settings := by
  unfold State.takeCredit
  (repeat' split) <;> simp only [settings_replayFrom, settings_updSide, implies_true, settings_ite, ite_self]
theorem settings_retrainEnds (a0 a1 : _) : (State.retrainEnds a0 a1).settings = a0.settings := by
  unfold State.retrainEnds
  (try simp only [settings_arbitrate, settings_recomputeUsable, settings_reply, settings_startRetrain, settings_updLaceMod, implies_true, settings_ite, ite_self,
    settings_foldl']) <;>
    (repeat' (first
      | with_reducible rfl
      | (simp only [settings_arbitrate, settings_recomputeUsable, settings_reply, settings_startRetrain, settings_updLaceMod, implies_true, settings_ite, ite_self,
        settings_foldl']; done)
      | (with_reducible refine (settings_foldl _ ?_ _ _).trans ?_)
      | (with_reducible refine (settings_foldl2 _ ?_ _ _).trans ?_)
      | (split <;> (try (rename_i h; first | (have h2 := congrArg Prod.snd h; simp only at h2; subst h2))))
      | (intro _)
      | (simp only [settings_arbitrate, settings_recomputeUsable, settings_reply, settings_startRetrain, settings_updLaceMod, implies_true, settings_ite, ite_self,
        settings_foldl', *]; done)
      | (simp only [settings_arbitrate, settings_recomputeUsable, settings_reply, settings_startRetrain, settings_updLaceMod, implies_true, settings_ite, ite_self,
        settings_foldl'])))
theorem settings_takeHandover (a0 a1 a2 a3 : _) : (State.takeHandover a0 a1 a2 a3).settings = a0.settings := by
  unfold State.takeHandover
  simp only [settings_sendReady, settings_arbitrate, settings_recomputeUsable, settings_updLaceMod, settings_updSide, implies_true, settings_ite, ite_self,
    settings_foldl']
theorem settings_takeReturn (a0 a1 a2 : _) : (State.takeReturn a0 a1 a2).settings = a0.settings := by
  unfold State.takeReturn
  (repeat' split) <;> simp only [settings_arbitrate, settings_recomputeUsable, settings_updLaceMod, implies_true, settings_ite, ite_self]
theorem settings_takeParameters (a0 a1 a2 : _) : (State.takeParameters a0 a1 a2).settings = a0.settings := by
  unfold State.takeParameters
  split <;> simp only [settings_mapLace, settings_updLaceMod, settings_raise]
theorem settings_takeDone (a0 a1 a2 a3 a4 a5 : _) : (State.takeDone a0 a1 a2 a3 a4 a5).settings = a0.settings := by
  unfold State.takeDone
  (repeat' split) <;> simp only [settings_sendTrain, settings_mapLace, settings_mapPower, settings_moduleDown, settings_recomputeUsable, settings_retrainFails,
    settings_sendCtrl, settings_updBoth, settings_updLaceMod, settings_updSide, settings_raise, implies_true, settings_ite, ite_self]
theorem settings_acceptData (a0 a1 a2 a3 a4 : _) : (State.acceptData a0 a1 a2 a3 a4).settings = a0.settings := by
  unfold State.acceptData
  (try simp only [settings_pmLace, settings_protocolError, settings_sendCtrl, settings_updSide, implies_true, settings_ite, ite_self, settings_foldl']) <;>
    (repeat' (first
      | with_reducible rfl
      | (simp only [settings_pmLace, settings_protocolError, settings_sendCtrl, settings_updSide, implies_true, settings_ite, ite_self, settings_foldl']; done)
      | (with_reducible refine (settings_foldl _ ?_ _ _).trans ?_)
      | (with_reducible refine (settings_foldl2 _ ?_ _ _).trans ?_)
      | (split <;> (try (rename_i h; first | (have h2 := congrArg Prod.snd h; simp only at h2; subst h2))))
      | (intro _)
      | (simp only [settings_pmLace, settings_protocolError, settings_sendCtrl, settings_updSide, implies_true, settings_ite, ite_self, settings_foldl', *]; done)
      | (simp only [settings_pmLace, settings_protocolError, settings_sendCtrl, settings_updSide, implies_true, settings_ite, ite_self, settings_foldl'])))
theorem settings_takeData (a0 a1 a2 a3 a4 : _) : (State.takeData a0 a1 a2 a3 a4).settings = a0.settings := by
  unfold State.takeData
  (repeat' split) <;> simp only [settings_acceptData, settings_countLace, settings_nakIfAllowed, settings_sendCtrl, settings_raiseFencing, implies_true, settings_ite,
    ite_self]
theorem settings_takeCtrl (a0 a1 a2 a3 a4 : _) : (State.takeCtrl a0 a1 a2 a3 a4).settings = a0.settings := by
  unfold State.takeCtrl
  split <;> simp only [settings_protocolError, settings_retrainEnds, settings_startRetrain, settings_takeCredit, settings_takeHandover, settings_takeReturn]
theorem settings_takeTrain (a0 a1 a2 a3 a4 a5 : _) : (State.takeTrain a0 a1 a2 a3 a4 a5).settings = a0.settings := by
  unfold State.takeTrain
  (repeat' split) <;> simp only [settings_protocolError, settings_retrainFails, settings_takeDone, settings_takeParameters, implies_true, settings_ite, ite_self]
theorem settings_tryReturn (a0 a1 : _) : (State.tryReturn a0 a1).settings = a0.settings := by
  unfold State.tryReturn
  (try simp only [settings_sendCtrl, settings_updLaceMod, implies_true, settings_ite, ite_self, settings_foldl']) <;>
    (repeat' (first
      | with_reducible rfl
      | (simp only [settings_sendCtrl, settings_updLaceMod, implies_true, settings_ite, ite_self, settings_foldl']; done)
      | (with_reducible refine (settings_foldl _ ?_ _ _).trans ?_)
      | (with_reducible refine (settings_foldl2 _ ?_ _ _).trans ?_)
      | (split <;> (try (rename_i h; first | (have h2 := congrArg Prod.snd h; simp only at h2; subst h2))))
      | (intro _)
      | (simp only [settings_sendCtrl, settings_updLaceMod, implies_true, settings_ite, ite_self, settings_foldl', *]; done)
      | (simp only [settings_sendCtrl, settings_updLaceMod, implies_true, settings_ite, ite_self, settings_foldl'])))
theorem settings_afterFlit (a0 a1 : _) : (State.afterFlit a0 a1).settings = a0.settings := by
  unfold State.afterFlit
  (try simp only [settings_sendReady, settings_tryReturn, implies_true, settings_ite, ite_self, settings_foldl']) <;>
    (repeat' (first
      | with_reducible rfl
      | (simp only [settings_sendReady, settings_tryReturn, implies_true, settings_ite, ite_self, settings_foldl']; done)
      | (with_reducible refine (settings_foldl _ ?_ _ _).trans ?_)
      | (with_reducible refine (settings_foldl2 _ ?_ _ _).trans ?_)
      | (split <;> (try (rename_i h; first | (have h2 := congrArg Prod.snd h; simp only at h2; subst h2))))
      | (intro _)
      | (simp only [settings_sendReady, settings_tryReturn, implies_true, settings_ite, ite_self, settings_foldl', *]; done)
      | (simp only [settings_sendReady, settings_tryReturn, implies_true, settings_ite, ite_self, settings_foldl'])))
theorem settings_takeFlit (a0 a1 a2 a3 a4 a5 : _) : (State.takeFlit a0 a1 a2 a3 a4 a5).settings = a0.settings := by
  unfold State.takeFlit
  (try simp only [settings_crcFails, settings_protocolError, settings_spendInj, settings_takeAck, settings_takeCtrl, settings_takeData, settings_takeReturn,
    settings_takeTrain, implies_true, settings_ite, ite_self, settings_foldl']) <;>
    (repeat' (first
      | with_reducible rfl
      | (simp only [settings_crcFails, settings_protocolError, settings_spendInj, settings_takeAck, settings_takeCtrl, settings_takeData, settings_takeReturn,
        settings_takeTrain, implies_true, settings_ite, ite_self, settings_foldl']; done)
      | (with_reducible refine (settings_foldl _ ?_ _ _).trans ?_)
      | (with_reducible refine (settings_foldl2 _ ?_ _ _).trans ?_)
      | (split <;> (try (rename_i h; first | (have h2 := congrArg Prod.snd h; simp only at h2; subst h2))))
      | (intro _)
      | (simp only [settings_crcFails, settings_protocolError, settings_spendInj, settings_takeAck, settings_takeCtrl, settings_takeData, settings_takeReturn,
        settings_takeTrain, implies_true, settings_ite, ite_self, settings_foldl', *]; done)
      | (simp only [settings_crcFails, settings_protocolError, settings_spendInj, settings_takeAck, settings_takeCtrl, settings_takeData, settings_takeReturn,
        settings_takeTrain, implies_true, settings_ite, ite_self, settings_foldl'])))
theorem settings_receive (a0 a1 a2 a3 a4 a5 : _) : (State.receive a0 a1 a2 a3 a4 a5).settings = a0.settings := by
  unfold State.receive
  (try simp only [settings_afterFlit, settings_takeFlit, implies_true, settings_ite, ite_self, settings_foldl']) <;>
    (repeat' (first
      | with_reducible rfl
      | (simp only [settings_afterFlit, settings_takeFlit, implies_true, settings_ite, ite_self, settings_foldl']; done)
      | (with_reducible refine (settings_foldl _ ?_ _ _).trans ?_)
      | (with_reducible refine (settings_foldl2 _ ?_ _ _).trans ?_)
      | (split <;> (try (rename_i h; first | (have h2 := congrArg Prod.snd h; simp only at h2; subst h2))))
      | (intro _)
      | (simp only [settings_afterFlit, settings_takeFlit, implies_true, settings_ite, ite_self, settings_foldl', *]; done)
      | (simp only [settings_afterFlit, settings_takeFlit, implies_true, settings_ite, ite_self, settings_foldl'])))
theorem settings_dequeue (a0 a1 a2 : _) : (State.dequeue a0 a1 a2).settings = a0.settings := by
  unfold State.dequeue
  (try simp only [settings_leaveQueue, settings_updChan, implies_true, settings_ite, ite_self, settings_foldl']) <;>
    (repeat' (first
      | with_reducible rfl
      | (simp only [settings_leaveQueue, settings_updChan, implies_true, settings_ite, ite_self, settings_foldl']; done)
      | (with_reducible refine (settings_foldl _ ?_ _ _).trans ?_)
      | (with_reducible refine (settings_foldl2 _ ?_ _ _).trans ?_)
      | (split <;> (try (rename_i h; first | (have h2 := congrArg Prod.snd h; simp only at h2; subst h2))))
      | (intro _)
      | (simp only [settings_leaveQueue, settings_updChan, implies_true, settings_ite, ite_self, settings_foldl', *]; done)
      | (simp only [settings_leaveQueue, settings_updChan, implies_true, settings_ite, ite_self, settings_foldl'])))

/-! ### Machine/Links.lean -/

theorem settings_discard (a0 a1 : _) : (State.discard a0 a1).settings = a0.settings := by
  unfold State.discard
  (repeat' split) <;> simp only [settings_mapPath, settings_dequeue, settings_dropReq, settings_mapReg, settings_mapWelt, settings_updMaster, implies_true,
    settings_ite, ite_self]
theorem settings_discardAll (a0 a1 : _) : (State.discardAll a0 a1).settings = a0.settings := by
  unfold State.discardAll
  exact settings_foldl _ (fun _ _ => by (repeat' split) <;> simp only [settings_discard, implies_true]) _ _
theorem settings_freeQueues (a0 a1 : _) : (State.freeQueues a0 a1).settings = a0.settings := by
  unfold State.freeQueues
  exact settings_foldl _ (fun _ _ => by (repeat' split) <;> simp only [settings_mapPoq, settings_mapShank, settings_setCtx, settings_updPoqLd, implies_true]) _ _
theorem settings_resetEyelet (a0 a1 : _) : (State.resetEyelet a0 a1).settings = a0.settings := by
  unfold State.resetEyelet
  simp only [settings_updCmdLd, settings_updEye, implies_true, settings_ite, ite_self, settings_foldl']
theorem settings_freeLock (a0 a1 : _) : (State.freeLock a0 a1).settings = a0.settings := by
  unfold State.freeLock
  simp only [settings_setLock]
theorem settings_releaseLocks (a0 a1 : _) : (State.releaseLocks a0 a1).settings = a0.settings := by
  unfold State.releaseLocks
  simp only [settings_freeLock, implies_true, settings_ite, ite_self, settings_foldl']
theorem settings_freeSamplers (a0 a1 : _) : (State.freeSamplers a0 a1).settings = a0.settings := by
  unfold State.freeSamplers
  exact settings_foldl _ (fun _ _ => by (repeat' split) <;> simp only [settings_updSampler, implies_true]) _ _
theorem settings_clearPerf (a0 a1 : _) : (State.clearPerf a0 a1).settings = a0.settings := by
  unfold State.clearPerf
  simp only [settings_setPerfFn]
theorem settings_resetFn (a0 a1 : _) : (State.resetFn a0 a1).settings = a0.settings := by
  unfold State.resetFn
  simp only [settings_clearPerf, settings_freeQueues, settings_freeSamplers, settings_releaseLocks, settings_reply, settings_resetEyelet, settings_updFn,
    settings_updTspOf, implies_true, settings_ite, ite_self, settings_foldl']
theorem settings_sendOffers (a0 a1 : _) : (State.sendOffers a0 a1).settings = a0.settings := by
  unfold State.sendOffers
  simp only [settings_emit, implies_true, settings_ite, ite_self, settings_foldl']
theorem settings_bind (a0 a1 : _) : (State.bind a0 a1).settings = a0.settings := by
  unfold State.bind
  (repeat' split) <;> simp only [settings_resetFn, settings_sendOffers, settings_updFn, implies_true, settings_ite, ite_self]
theorem settings_headDown (a0 a1 : _) : (State.headDown a0 a1).settings = a0.settings := by
  unfold State.headDown
  simp only [settings_mapPath, settings_flushBacks, settings_bind, settings_discardAll, settings_freeSamplers, settings_updHeadOf, implies_true, settings_ite,
    ite_self, settings_foldl']

/-! ### Machine/Shank.lean -/

theorem settings_checkLog (a0 : _) : (State.checkLog a0).settings = a0.settings := by
  unfold State.checkLog
  (repeat' split) <;> simp only [settings_mapShank, settings_fire, implies_true, settings_ite, ite_self]
theorem settings_recordDone (a0 a1 : _) : (State.recordDone a0 a1).settings = a0.settings := by
  unfold State.recordDone
  split <;> simp only [settings_writeImage, settings_countShank, settings_mapImage, settings_mapShank, settings_pmShank, implies_true]
theorem settings_closeSegment (a0 : _) : (State.closeSegment a0).settings = a0.settings := by
  unfold State.closeSegment
  (try simp only [settings_writeImage, implies_true, settings_ite, ite_self, settings_foldl']) <;>
    (repeat' (first
      | with_reducible rfl
      | (simp only [settings_writeImage, implies_true, settings_ite, ite_self, settings_foldl']; done)
      | (with_reducible refine (settings_foldl _ ?_ _ _).trans ?_)
      | (with_reducible refine (settings_foldl2 _ ?_ _ _).trans ?_)
      | (split <;> (try (rename_i h; first | (have h2 := congrArg Prod.snd h; simp only at h2; subst h2))))
      | (intro _)
      | (simp only [settings_writeImage, implies_true, settings_ite, ite_self, settings_foldl', *]; done)
      | (simp only [settings_writeImage, implies_true, settings_ite, ite_self, settings_foldl'])))
theorem settings_beginRecord (a0 a1 a2 : _) : (State.beginRecord a0 a1 a2).settings = a0.settings := by
  unfold State.beginRecord
  simp only [settings_closeSegment, settings_checkLog, settings_emit, settings_mapShank, settings_recordDone, settings_updDrive, implies_true, settings_ite, ite_self,
    settings_foldl']
theorem settings_warmGranules (s : State) (d : Dpn) : (State.warmGranules s d).2.settings = s.settings := by
  unfold State.warmGranules
  refine settings_foldl2 _ ?_ _ _
  intro acc ch
  split; · rfl
  dsimp only
  split; · exact settings_foldl _ (fun _ _ => settings_granuleLost _ _ _ _ _) _ _
  split; · rfl
  simp only [settings_granuleLost, settings_mismatchTail, settings_countMismatch]
theorem settings_withPayload (a0 a1 a2 : _) : (State.withPayload a0 a1 a2).2.settings = a0.settings := by
  unfold State.withPayload
  (try simp only [settings_draw, implies_true, settings_ite, ite_self, settings_foldl']) <;>
    (repeat' (first
      | with_reducible rfl
      | (simp only [settings_draw, implies_true, settings_ite, ite_self, settings_foldl']; done)
      | (with_reducible refine (settings_foldl _ ?_ _ _).trans ?_)
      | (with_reducible refine (settings_foldl2 _ ?_ _ _).trans ?_)
      | (split <;> (try (rename_i h; first | (have h2 := congrArg Prod.snd h; simp only at h2; subst h2))))
      | (intro _)
      | (simp only [settings_draw, implies_true, settings_ite, ite_self, settings_foldl', *]; done)
      | (simp only [settings_draw, implies_true, settings_ite, ite_self, settings_foldl'])))
theorem settings_verifyPage (a0 a1 a2 a3 : _) : (State.verifyPage a0 a1 a2 a3).settings = a0.settings := by
  unfold State.verifyPage
  (try simp only [settings_countCodec, settings_raise, implies_true, settings_ite, ite_self, settings_foldl']) <;>
    (repeat' (first
      | with_reducible rfl
      | (simp only [settings_countCodec, settings_raise, implies_true, settings_ite, ite_self, settings_foldl']; done)
      | (with_reducible refine (settings_foldl _ ?_ _ _).trans ?_)
      | (with_reducible refine (settings_foldl2 _ ?_ _ _).trans ?_)
      | (split <;> (try (rename_i h; first | (have h2 := congrArg Prod.snd h; simp only at h2; subst h2))))
      | (intro _)
      | (simp only [settings_countCodec, settings_raise, implies_true, settings_ite, ite_self, settings_foldl', *]; done)
      | (simp only [settings_countCodec, settings_raise, implies_true, settings_ite, ite_self, settings_foldl'])))
theorem settings_pageRecord (a0 a1 a2 : _) : (State.pageRecord a0 a1 a2).2.settings = a0.settings := by
  unfold State.pageRecord
  (try simp only [settings_verifyPage, settings_warmGranules, settings_warmLines, settings_withPayload, implies_true, settings_ite, ite_self, settings_foldl']) <;>
    (repeat' (first
      | with_reducible rfl
      | (simp only [settings_verifyPage, settings_warmGranules, settings_warmLines, settings_withPayload, implies_true, settings_ite, ite_self, settings_foldl']; done)
      | (with_reducible refine (settings_foldl _ ?_ _ _).trans ?_)
      | (with_reducible refine (settings_foldl2 _ ?_ _ _).trans ?_)
      | (split <;> (try (rename_i h; first | (have h2 := congrArg Prod.snd h; simp only at h2; subst h2))))
      | (intro _)
      | (simp only [settings_verifyPage, settings_warmGranules, settings_warmLines, settings_withPayload, implies_true, settings_ite, ite_self, settings_foldl', *]; done)
      | (simp only [settings_verifyPage, settings_warmGranules, settings_warmLines, settings_withPayload, implies_true, settings_ite, ite_self, settings_foldl'])))
theorem settings_recordPage (a0 a1 a2 a3 a4 a5 : _) : (State.recordPage a0 a1 a2 a3 a4 a5).settings = a0.settings := by
  unfold State.recordPage
  simp only [settings_beginRecord, settings_charge, settings_countCodec, settings_pageRecord, settings_pmCodec, implies_true, settings_ite, ite_self, settings_foldl']
theorem settings_slotQueuePassed (a0 : _) : (State.slotQueuePassed a0).settings = a0.settings := by
  unfold State.slotQueuePassed
  exact settings_foldl _ (fun _ _ => by (repeat' split) <;> simp only [settings_updSlot, implies_true]) _ _
theorem settings_endEpoch (a0 : _) : (State.endEpoch a0).settings = a0.settings := by
  unfold State.endEpoch
  simp only [settings_mapShank, implies_true]
theorem settings_writeRegions (a0 : _) : (State.writeRegions a0).settings = a0.settings := by
  unfold State.writeRegions
  split <;> simp only [settings_writeImage, settings_mapImage, settings_mapShank, implies_true]
theorem settings_closeEpoch (a0 a1 a2 : _) : (State.closeEpoch a0 a1 a2).settings = a0.settings := by
  unfold State.closeEpoch
  simp only [settings_writeImage, settings_countShank, settings_mapImage, settings_mapShank, settings_writeRegions, implies_true]
theorem settings_freeSlots (a0 : _) : (State.freeSlots a0).settings = a0.settings := by
  unfold State.freeSlots
  (try simp only [settings_emptySlot, implies_true, settings_ite, ite_self, settings_foldl']) <;>
    (repeat' (first
      | with_reducible rfl
      | (simp only [settings_emptySlot, implies_true, settings_ite, ite_self, settings_foldl']; done)
      | (with_reducible refine (settings_foldl _ ?_ _ _).trans ?_)
      | (with_reducible refine (settings_foldl2 _ ?_ _ _).trans ?_)
      | (split <;> (try (rename_i h; first | (have h2 := congrArg Prod.snd h; simp only at h2; subst h2))))
      | (intro _)
      | (simp only [settings_emptySlot, implies_true, settings_ite, ite_self, settings_foldl', *]; done)
      | (simp only [settings_emptySlot, implies_true, settings_ite, ite_self, settings_foldl'])))
theorem settings_freeResumed (a0 : _) : (State.freeResumed a0).settings = a0.settings := by
  unfold State.freeResumed
  (try simp only [settings_emptySlot, implies_true, settings_ite, ite_self, settings_foldl']) <;>
    (repeat' (first
      | with_reducible rfl
      | (simp only [settings_emptySlot, implies_true, settings_ite, ite_self, settings_foldl']; done)
      | (with_reducible refine (settings_foldl _ ?_ _ _).trans ?_)
      | (with_reducible refine (settings_foldl2 _ ?_ _ _).trans ?_)
      | (split <;> (try (rename_i h; first | (have h2 := congrArg Prod.snd h; simp only at h2; subst h2))))
      | (intro _)
      | (simp only [settings_emptySlot, implies_true, settings_ite, ite_self, settings_foldl', *]; done)
      | (simp only [settings_emptySlot, implies_true, settings_ite, ite_self, settings_foldl'])))
theorem settings_hardenDone (a0 a1 : _) : (State.hardenDone a0 a1).settings = a0.settings := by
  unfold State.hardenDone
  exact settings_foldl _ (fun _ _ => by (repeat' split) <;> simp only [settings_mapShank, settings_setCtx, implies_true]) _ _
theorem settings_deallocate (a0 : _) : (State.deallocate a0).settings = a0.settings := by
  unfold State.deallocate
  (try simp only [settings_emit, implies_true, settings_ite, ite_self, settings_foldl']) <;>
    (repeat' (first
      | with_reducible rfl
      | (simp only [settings_emit, implies_true, settings_ite, ite_self, settings_foldl']; done)
      | (with_reducible refine (settings_foldl _ ?_ _ _).trans ?_)
      | (with_reducible refine (settings_foldl2 _ ?_ _ _).trans ?_)
      | (split <;> (try (rename_i h; first | (have h2 := congrArg Prod.snd h; simp only at h2; subst h2))))
      | (intro _)
      | (simp only [settings_emit, implies_true, settings_ite, ite_self, settings_foldl', *]; done)
      | (simp only [settings_emit, implies_true, settings_ite, ite_self, settings_foldl'])))
theorem settings_endLap (a0 : _) : (State.endLap a0).settings = a0.settings := by
  unfold State.endLap
  simp only [settings_deallocate, settings_checkLog, settings_countShank, settings_freeResumed, settings_mapImage, settings_mapShank, implies_true]
theorem settings_computeWindow (a0 : _) : (State.computeWindow a0).settings = a0.settings := by
  unfold State.computeWindow
  (repeat' split) <;> simp only [settings_mapShank, settings_fire, implies_true, settings_ite, ite_self]
theorem settings_probeSample (a0 a1 a2 : _) : (State.probeSample a0 a1 a2).settings = a0.settings := by
  unfold State.probeSample
  (try simp only [settings_mapShank, settings_fire, implies_true, settings_ite, ite_self, settings_foldl']) <;>
    (repeat' (first
      | with_reducible rfl
      | (simp only [settings_mapShank, settings_fire, implies_true, settings_ite, ite_self, settings_foldl']; done)
      | (with_reducible refine (settings_foldl _ ?_ _ _).trans ?_)
      | (with_reducible refine (settings_foldl2 _ ?_ _ _).trans ?_)
      | (split <;> (try (rename_i h; first | (have h2 := congrArg Prod.snd h; simp only at h2; subst h2))))
      | (intro _)
      | (simp only [settings_mapShank, settings_fire, implies_true, settings_ite, ite_self, settings_foldl', *]; done)
      | (simp only [settings_mapShank, settings_fire, implies_true, settings_ite, ite_self, settings_foldl'])))
theorem settings_patchLines (a0 a1 a2 a3 a4 : _) : (State.patchLines a0 a1 a2 a3 a4).settings = a0.settings := by
  unfold State.patchLines
  (try simp only [settings_setTracker, settings_mapPath, settings_writeHotLine, implies_true, settings_ite, ite_self, settings_foldl']) <;>
    (repeat' (first
      | with_reducible rfl
      | (simp only [settings_setTracker, settings_mapPath, settings_writeHotLine, implies_true, settings_ite, ite_self, settings_foldl']; done)
      | (with_reducible refine (settings_foldl _ ?_ _ _).trans ?_)
      | (with_reducible refine (settings_foldl2 _ ?_ _ _).trans ?_)
      | (split <;> (try (rename_i h; first | (have h2 := congrArg Prod.snd h; simp only at h2; subst h2))))
      | (intro _)
      | (simp only [settings_setTracker, settings_mapPath, settings_writeHotLine, implies_true, settings_ite, ite_self, settings_foldl', *]; done)
      | (simp only [settings_setTracker, settings_mapPath, settings_writeHotLine, implies_true, settings_ite, ite_self, settings_foldl'])))

/-! ### Machine/Save.lean -/

theorem settings_writeSupers (a0 a1 : _) : (State.writeSupers a0 a1).settings = a0.settings := by
  unfold State.writeSupers
  split
  · rfl
  · dsimp only
    rw [settings_writeImage, settings_writeImage, settings_mapImage]
theorem settings_refreshSupers (a0 a1 : _) : (State.refreshSupers a0 a1).settings = a0.settings := by
  unfold State.refreshSupers
  split <;> simp only [settings_writeSupers]
theorem settings_disarmAwl (a0 : _) : (State.disarmAwl a0).settings = a0.settings := by
  unfold State.disarmAwl
  simp only [settings_mapFault]
theorem settings_endMigrations (a0 : _) : (State.endMigrations a0).settings = a0.settings := by
  unfold State.endMigrations
  (try simp only [settings_giveEngines, settings_abandon, settings_endJobs, settings_mapTier, settings_releaseSource, implies_true, settings_ite, ite_self,
    settings_foldl']) <;>
    (repeat' (first
      | with_reducible rfl
      | (simp only [settings_giveEngines, settings_abandon, settings_endJobs, settings_mapTier, settings_releaseSource, implies_true, settings_ite, ite_self,
        settings_foldl']; done)
      | (with_reducible refine (settings_foldl _ ?_ _ _).trans ?_)
      | (with_reducible refine (settings_foldl2 _ ?_ _ _).trans ?_)
      | (split <;> (try (rename_i h; first | (have h2 := congrArg Prod.snd h; simp only at h2; subst h2))))
      | (intro _)
      | (simp only [settings_giveEngines, settings_abandon, settings_endJobs, settings_mapTier, settings_releaseSource, implies_true, settings_ite, ite_self,
        settings_foldl', *]; done)
      | (simp only [settings_giveEngines, settings_abandon, settings_endJobs, settings_mapTier, settings_releaseSource, implies_true, settings_ite, ite_self,
        settings_foldl'])))
theorem settings_drainAll (a0 : _) : (State.drainAll a0).settings = a0.settings := by
  unfold State.drainAll
  simp only [settings_cleanWay, settings_drainLine, settings_mapPath, implies_true, settings_ite, ite_self, settings_foldl']
theorem settings_saveFence (a0 : _) : (State.saveFence a0).settings = a0.settings := by
  unfold State.saveFence
  simp only [settings_disarmAwl, settings_discardAll, settings_drainAll, settings_emit, settings_endMigrations, settings_headDown, settings_mapPath, settings_mapShank,
    implies_true, settings_ite, ite_self, settings_foldl']
theorem settings_saveAtOnce (a0 : _) : (State.saveAtOnce a0).settings = a0.settings := by
  unfold State.saveAtOnce
  simp only [settings_emit, settings_mapShank, settings_saveFence, implies_true]
theorem settings_closeSave (a0 : _) : (State.closeSave a0).settings = a0.settings := by
  unfold State.closeSave
  simp only [settings_writeImage, settings_closeSegment, settings_closeEpoch, settings_endEpoch, settings_freeSlots, settings_mapImage, settings_writeSupers,
    implies_true, settings_ite, ite_self, settings_foldl']
theorem settings_flushDrives (a0 : _) : (State.flushDrives a0).settings = a0.settings := by
  unfold State.flushDrives
  (try simp only [settings_emit, implies_true, settings_ite, ite_self, settings_foldl']) <;>
    (repeat' (first
      | with_reducible rfl
      | (simp only [settings_emit, implies_true, settings_ite, ite_self, settings_foldl']; done)
      | (with_reducible refine (settings_foldl _ ?_ _ _).trans ?_)
      | (with_reducible refine (settings_foldl2 _ ?_ _ _).trans ?_)
      | (split <;> (try (rename_i h; first | (have h2 := congrArg Prod.snd h; simp only at h2; subst h2))))
      | (intro _)
      | (simp only [settings_emit, implies_true, settings_ite, ite_self, settings_foldl', *]; done)
      | (simp only [settings_emit, implies_true, settings_ite, ite_self, settings_foldl'])))
theorem settings_loseImage (a0 : _) : (State.loseImage a0).settings = a0.settings := by
  unfold State.loseImage
  (try simp only [settings_mapShank, implies_true, settings_ite, ite_self, settings_foldl']) <;>
    (repeat' (first
      | with_reducible rfl
      | (simp only [settings_mapShank, implies_true, settings_ite, ite_self, settings_foldl']; done)
      | (with_reducible refine (settings_foldl _ ?_ _ _).trans ?_)
      | (with_reducible refine (settings_foldl2 _ ?_ _ _).trans ?_)
      | (split <;> (try (rename_i h; first | (have h2 := congrArg Prod.snd h; simp only at h2; subst h2))))
      | (intro _)
      | (simp only [settings_mapShank, implies_true, settings_ite, ite_self, settings_foldl', *]; done)
      | (simp only [settings_mapShank, implies_true, settings_ite, ite_self, settings_foldl'])))
theorem settings_settleWrites (a0 : _) : (State.settleWrites a0).settings = a0.settings := by
  unfold State.settleWrites
  exact settings_foldl _ (fun _ _ => by (repeat' split) <;> simp only [settings_recordDone, implies_true]) _ _
theorem settings_loseMember (a0 a1 : _) : (State.loseMember a0 a1).settings = a0.settings := by
  unfold State.loseMember
  (repeat' split) <;> simp only [settings_loseImage, settings_mapShank, settings_refreshSupers, settings_settleWrites, implies_true, settings_ite, ite_self]
theorem settings_failDrive (a0 a1 a2 : _) : (State.failDrive a0 a1 a2).settings = a0.settings := by
  unfold State.failDrive
  (repeat' split) <;> simp only [settings_writeSupers, settings_loseMember, settings_settleWrites, settings_updDrive, implies_true, settings_ite, ite_self]
theorem settings_clearAreas (a0 : _) : (State.clearAreas a0).settings = a0.settings := by
  unfold State.clearAreas
  (try simp only [settings_deallocate, settings_writeImage, implies_true, settings_ite, ite_self, settings_foldl']) <;>
    (repeat' (first
      | with_reducible rfl
      | (simp only [settings_deallocate, settings_writeImage, implies_true, settings_ite, ite_self, settings_foldl']; done)
      | (with_reducible refine (settings_foldl _ ?_ _ _).trans ?_)
      | (with_reducible refine (settings_foldl2 _ ?_ _ _).trans ?_)
      | (split <;> (try (rename_i h; first | (have h2 := congrArg Prod.snd h; simp only at h2; subst h2))))
      | (intro _)
      | (simp only [settings_deallocate, settings_writeImage, implies_true, settings_ite, ite_self, settings_foldl', *]; done)
      | (simp only [settings_deallocate, settings_writeImage, implies_true, settings_ite, ite_self, settings_foldl'])))
theorem settings_createImage (s : State) (r : Nat) : (State.createImage s r).settings = s.settings := by
  unfold State.createImage
  dsimp only
  have h : ∀ u : State, ({ u with image := State.resetImage } : State).settings = u.settings := fun _ => rfl
  rw [settings_mapShank, settings_writeSupers, settings_wrapKeys, settings_clearAreas, settings_mapImage, h, settings_mapShank]
  · exact settings_foldl _ (fun _ _ => settings_updDrive _ _ _) _ _
  all_goals exact fun _ => rfl
theorem settings_joinDrive (a0 a1 : _) : (State.joinDrive a0 a1).settings = a0.settings := by
  unfold State.joinDrive
  (repeat' split) <;> simp only [settings_mapShank, settings_refreshSupers, settings_updDrive, implies_true, settings_ite, ite_self]

/-! ### Machine/Resume.lean -/

theorem settings_reportLosses (a0 : _) : (State.reportLosses a0).settings = a0.settings := by
  unfold State.reportLosses
  simp only [settings_insoleOther, settings_postNotice, implies_true, settings_ite, ite_self, settings_foldl']
theorem settings_raiseLevel (a0 : _) : (State.raiseLevel a0).settings = a0.settings := by
  unfold State.raiseLevel
  (repeat' split) <;> simp only [settings_mapResume, settings_reportLosses, implies_true, settings_ite, ite_self]
theorem startPass_policy (t : Tier) (a b : Nat) : (t.startPass a b).policy = t.policy := by unfold Tier.startPass; rfl
theorem startPass_watermark (t : Tier) (a b : Nat) : (t.startPass a b).watermark = t.watermark := by unfold Tier.startPass; rfl
theorem startPass_rate (t : Tier) (a b : Nat) : (t.startPass a b).rate = t.rate := by unfold Tier.startPass; rfl
theorem settings_firstPass (a0 : State) : (State.firstPass a0).settings = a0.settings := by
  unfold State.firstPass
  exact settings_mapTier _ _ (fun t => startPass_policy t a0.time a0.last.hostPages) (fun t => startPass_watermark t a0.time a0.last.hostPages)
    fun t => startPass_rate t a0.time a0.last.hostPages
theorem settings_enterS1 (a0 : _) : (State.enterS1 a0).settings = a0.settings := by
  unfold State.enterS1
  split
  · dsimp only
    rw [settings_raiseLevel]
    have h : ((a0.mapResume fun r => { r with level := 1 }).firstPass).settings = a0.settings :=
      (settings_firstPass _).trans (settings_mapResume _ _ (fun _ => rfl) (fun _ => rfl))
    exact settings_if h ((settings_mapPower _ _).trans h)
  · rfl
theorem settings_unwrapKeys (a0 a1 a2 : _) : (State.unwrapKeys a0 a1 a2).settings = a0.settings := by
  unfold State.unwrapKeys
  exact settings_foldl _ (fun _ _ => by (repeat' split) <;> simp only [settings_setSlot, settings_raise, implies_true]) _ _
theorem settings_loadInsole (a0 a1 : _) : (State.loadInsole a0 a1).settings = a0.settings := by
  unfold State.loadInsole
  split <;> simp only [settings_mapFault, settings_insoleOther]
theorem settings_noRestore (a0 a1 a2 : _) : (State.noRestore a0 a1 a2).settings = a0.settings := by
  unfold State.noRestore
  (try simp only [settings_emptySlot, settings_fire, settings_mapResume, settings_raiseLevel, implies_true, settings_ite, ite_self, settings_foldl']) <;>
    (repeat' (first
      | with_reducible rfl
      | (simp only [settings_emptySlot, settings_fire, settings_mapResume, settings_raiseLevel, implies_true, settings_ite, ite_self, settings_foldl']; done)
      | (with_reducible refine (settings_foldl _ ?_ _ _).trans ?_)
      | (with_reducible refine (settings_foldl2 _ ?_ _ _).trans ?_)
      | (split <;> (try (rename_i h; first | (have h2 := congrArg Prod.snd h; simp only at h2; subst h2))))
      | (intro _)
      | (simp only [settings_emptySlot, settings_fire, settings_mapResume, settings_raiseLevel, implies_true, settings_ite, ite_self, settings_foldl', *]; done)
      | (simp only [settings_emptySlot, settings_fire, settings_mapResume, settings_raiseLevel, implies_true, settings_ite, ite_self, settings_foldl'])))
theorem settings_restoreMarks (s : State) : (State.restoreMarks s).settings = s.settings := by
  unfold State.restoreMarks
  exact settings_foldl _ (fun _ _ => settings_updRegion _ _ _) _ _
theorem settings_adoptImage (s : State) (f : ImageFound) (x : Superblock) : (State.adoptImage s f x).settings = s.settings := by
  unfold State.adoptImage
  dsimp only
  refine settings_if (settings_noRestore _ _ _) ?_
  refine (settings_restoreMarks _).trans ((settings_writeSupers _ _).trans ((settings_mapResume _ _ (fun _ => rfl) (fun _ => rfl)).trans ?_))
  generalize hA : State.mapImage _ _ = A
  have h1 : A.settings = s.settings := by rw [← hA, settings_mapImage, settings_unwrapKeys]
  clear hA
  have h2 : ∀ (c : Prop) [Decidable c] (g : Resume → Resume) (_ : ∀ t, (g t).restorePct = t.restorePct) (_ : ∀ t,
    (g t).upspeedDelayS = t.upspeedDelayS),
      (if c then A else fire 779 (A.mapResume g)).settings = s.settings := fun c _ g a b => settings_if h1 ((settings_fire _ _).trans ((settings_mapResume _ _ a b).trans h1))
  have h3 : ∀ (c : Prop) [Decidable c] (g : Resume → Resume) (f : Shank → Shank) (_ : ∀ t, (g t).restorePct = t.restorePct) (_ : ∀ t,
    (g t).upspeedDelayS = t.upspeedDelayS)
      (_ : ∀ t, (f t).policy = t.policy), ((if c then A else fire 779 (A.mapResume g)).mapShank f).settings = s.settings :=
    fun c _ g f a b d => (settings_mapShank _ _ d).trans (h2 c g a b)
  clear h1 h2
  split
  · exact settings_if ((settings_updDrive _ _ _).trans (h3 _ _ _ (fun _ => rfl) (fun _ => rfl) (fun _ => rfl))) (h3 _ _ _ (fun _ => rfl) (fun _ => rfl) (fun _ => rfl))
  · exact h3 _ _ _ (fun _ => rfl) (fun _ => rfl) (fun _ => rfl)
theorem settings_readImage (a0 a1 : _) : (State.readImage a0 a1).settings = a0.settings := by
  unfold State.readImage
  (try simp only [settings_adoptImage, settings_loadInsole, settings_noRestore, settings_updDrive, implies_true, settings_ite, ite_self, settings_foldl']) <;>
    (repeat' (first
      | with_reducible rfl
      | (simp only [settings_adoptImage, settings_loadInsole, settings_noRestore, settings_updDrive, implies_true, settings_ite, ite_self, settings_foldl']; done)
      | (with_reducible refine (settings_foldl _ ?_ _ _).trans ?_)
      | (with_reducible refine (settings_foldl2 _ ?_ _ _).trans ?_)
      | (split <;> (try (rename_i h; first | (have h2 := congrArg Prod.snd h; simp only at h2; subst h2))))
      | (intro _)
      | (simp only [settings_adoptImage, settings_loadInsole, settings_noRestore, settings_updDrive, implies_true, settings_ite, ite_self, settings_foldl', *]; done)
      | (simp only [settings_adoptImage, settings_loadInsole, settings_noRestore, settings_updDrive, implies_true, settings_ite, ite_self, settings_foldl'])))
theorem settings_addLoss (s : State) (d : Dpn) (b : Bool) : (State.addLoss s d b).settings = s.settings := by
  unfold State.addLoss
  refine settings_mapResume _ _ ?_ ?_ <;> (intro t; dsimp only; split <;> rfl)
theorem settings_toRestoring (a0 a1 : _) : (State.toRestoring a0 a1).settings = a0.settings := by
  unfold State.toRestoring
  simp only [settings_keyPages, settings_mapResume, settings_putEntry, implies_true]
theorem settings_restoreLost (a0 a1 : _) : (State.restoreLost a0 a1).settings = a0.settings := by
  unfold State.restoreLost
  simp only [settings_addLoss, settings_mapResume, settings_putEntry, implies_true]
theorem settings_takeOutcome (a0 a1 a2 a3 : _) : (State.takeOutcome a0 a1 a2 a3).settings = a0.settings := by
  unfold State.takeOutcome
  (repeat' split) <;> simp only [settings_addLoss, settings_mapResume, settings_restoreLost, settings_toRestoring, implies_true, settings_ite, ite_self]
theorem settings_startExtent (a0 : _) : (State.startExtent a0).settings = a0.settings := by
  unfold State.startExtent
  (repeat' split) <;> simp only [settings_mapResume, implies_true]
theorem settings_restored (a0 a1 : _) : (State.restored a0 a1).settings = a0.settings := by
  unfold State.restored
  split <;> simp only [settings_mapResume, settings_mapTier, implies_true]
theorem settings_recordBad (a0 a1 : _) : (State.recordBad a0 a1).settings = a0.settings := by
  unfold State.recordBad
  simp only [settings_mapResume, settings_restoreLost, settings_raise, implies_true]
theorem settings_restoreHeld (a0 : _) : (State.restoreHeld a0).settings = a0.settings := by
  unfold State.restoreHeld
  split <;> simp only [settings_mapResume, settings_fire, implies_true]
theorem settings_restoreHot (a0 a1 a2 : _) : (State.restoreHot a0 a1 a2).settings = a0.settings := by
  unfold State.restoreHot
  dsimp only
  have h := settings_internalDecode a0 false
  generalize (a0.internalDecode false).2 = u at h ⊢
  generalize (a0.internalDecode false).1 = i
  have h2 : (if i.isSome = true then countMismatch a1.dpn 0 u i else u).settings = a0.settings := settings_if ((settings_countMismatch _ _ _ _).trans h) h
  split
  · rw [settings_recordBad]; exact settings_if h2 ((settings_countMismatch _ _ _ _).trans h2)
  split
  · exact (settings_restoreHeld _).trans h2
  · rename_i h3
    have h4 := settings_takeFrame h3
    simp only [settings_restored, settings_formSpan, settings_putEntry, settings_charge, settings_fillHot]
    exact h4.trans h2
theorem settings_foldl1 {α β : Type} (f : State × β → α → State × β) (h : ∀ s x,
    (f s x).1.settings = s.1.settings) (l : List α) (s : State × β) : (l.foldl f s).1.settings = s.1.settings := by
  induction l generalizing s with
  | nil => rfl
  | cons x r ih => rw [List.foldl_cons, ih, h]
theorem settings_restoreWarm (s : State) (r : Record) (hint : Frame) : (State.restoreWarm s r hint).settings = s.settings := by
  unfold State.restoreWarm
  split; · simp only [settings_writeLine, settings_restored, settings_putEntry, settings_poisonLine, settings_charge, settings_binDest, settings_restoreHeld]
  rename_i h1; have h2 := settings_binDest h1
  simp only [settings_writeLine, settings_restoreHeld, settings_poisonLine, settings_binDest, settings_restored, settings_putEntry, settings_charge]
  refine (settings_foldl1 _ ?_ _ _).trans h2
  intro acc c
  refine settings_foldl _ ?_ _ _
  intro u g
  split <;> simp only [settings_restored, settings_restoreHeld, settings_putEntry, settings_charge, settings_binDest, settings_poisonLine, settings_writeLine]
theorem settings_offerTo (a0 a1 : _) : (State.offerTo a0 a1).settings = a0.settings := by
  unfold State.offerTo
  (repeat' split) <;> simp only [settings_emit, settings_mapCmd, settings_postNotice, implies_true, settings_ite, ite_self]
theorem settings_extentDone (a0 a1 : _) : (State.extentDone a0 a1).settings = a0.settings := by
  unfold State.extentDone
  simp only [settings_mapResume, settings_offerTo, settings_restored, implies_true, settings_ite, ite_self, settings_foldl']

/-! ### Machine/Regulation.lean -/

theorem settings_setPending (a0 a1 : _) : (State.setPending a0 a1).settings = a0.settings := by
  unfold State.setPending
  exact settings_foldl _ (fun _ _ => by (repeat' split) <;> simp only [settings_updMaster, implies_true]) _ _
theorem settings_rejectAdmission (a0 : _) : (State.rejectAdmission a0).settings = a0.settings := by
  unfold State.rejectAdmission
  simp only [settings_countReg, settings_fire]
theorem settings_scaleNotice (a0 : _) : (State.scaleNotice a0).settings = a0.settings := by
  unfold State.scaleNotice
  exact settings_foldl _ (fun _ _ => by (repeat' split) <;> simp only [settings_postNotice, implies_true]) _ _
theorem settings_rescale (a0 : _) : (State.rescale a0).settings = a0.settings := by
  unfold State.rescale
  (repeat' split) <;> simp only [settings_countReg, settings_mapReg, settings_scaleNotice, settings_raise, implies_true, settings_ite, ite_self]

/-! ### Machine/Ports.lean -/

theorem settings_cdatChanged (a0 a1 : _) : (State.cdatChanged a0 a1).settings = a0.settings := by
  unfold State.cdatChanged
  exact settings_foldl _ (fun _ _ => by (repeat' split) <;> simp only [settings_emit, settings_updFn, implies_true]) _ _
theorem settings_setLink (a0 a1 a2 : _) : (State.setLink a0 a1 a2).settings = a0.settings := by
  unfold State.setLink
  (repeat' split) <;> simp only [settings_cdatChanged, settings_updHeadOf, implies_true, settings_ite, ite_self]
theorem settings_attach (a0 a1 : _) : (State.attach a0 a1).settings = a0.settings := by
  unfold State.attach
  (try simp only [settings_draw, settings_updFn, implies_true, settings_ite, ite_self, settings_foldl']) <;>
    (repeat' (first
      | with_reducible rfl
      | (simp only [settings_draw, settings_updFn, implies_true, settings_ite, ite_self, settings_foldl']; done)
      | (with_reducible refine (settings_foldl _ ?_ _ _).trans ?_)
      | (with_reducible refine (settings_foldl2 _ ?_ _ _).trans ?_)
      | (split <;> (try (rename_i h; first | (have h2 := congrArg Prod.snd h; simp only at h2; subst h2))))
      | (intro _)
      | (simp only [settings_draw, settings_updFn, implies_true, settings_ite, ite_self, settings_foldl', *]; done)
      | (simp only [settings_draw, settings_updFn, implies_true, settings_ite, ite_self, settings_foldl'])))
theorem settings_attachSld (a0 a1 : _) : (State.attachSld a0 a1).settings = a0.settings := by
  unfold State.attachSld
  exact settings_foldl _ (fun _ _ => by (repeat' split) <;> simp only [settings_draw, settings_updFn, implies_true]) _ _
theorem settings_bindPort (a0 a1 : _) : (State.bindPort a0 a1).settings = a0.settings := by
  unfold State.bindPort
  exact settings_foldl _ (fun _ _ => by (repeat' split) <;> simp only [settings_bind, implies_true]) _ _
theorem settings_checkHeadMargin (a0 a1 a2 : _) : (State.checkHeadMargin a0 a1 a2).settings = a0.settings := by
  unfold State.checkHeadMargin
  split <;> simp only [settings_emit, settings_mapPower, settings_setLink, settings_raise]
theorem settings_limitRate (a0 a1 a2 : _) : (State.limitRate a0 a1 a2).settings = a0.settings := by
  unfold State.limitRate
  (try simp only [settings_emit, settings_setLink, settings_updHeadOf, implies_true, settings_ite, ite_self, settings_foldl']) <;>
    (repeat' (first
      | with_reducible rfl
      | (simp only [settings_emit, settings_setLink, settings_updHeadOf, implies_true, settings_ite, ite_self, settings_foldl']; done)
      | (with_reducible refine (settings_foldl _ ?_ _ _).trans ?_)
      | (with_reducible refine (settings_foldl2 _ ?_ _ _).trans ?_)
      | (split <;> (try (rename_i h; first | (have h2 := congrArg Prod.snd h; simp only at h2; subst h2))))
      | (intro _)
      | (simp only [settings_emit, settings_setLink, settings_updHeadOf, implies_true, settings_ite, ite_self, settings_foldl', *]; done)
      | (simp only [settings_emit, settings_setLink, settings_updHeadOf, implies_true, settings_ite, ite_self, settings_foldl'])))
theorem settings_rateWaitEnds (a0 a1 : _) : (State.rateWaitEnds a0 a1).settings = a0.settings := by
  unfold State.rateWaitEnds
  split <;> simp only [settings_limitRate, settings_reply, settings_updHeadOf]
theorem settings_configDword (a0 a1 a2 : _) : (State.configDword a0 a1 a2).2.settings = a0.settings := by
  unfold State.configDword
  (try simp only [settings_bind, settings_draw, implies_true, settings_ite, ite_self, settings_foldl']) <;>
    (repeat' (first
      | with_reducible rfl
      | (simp only [settings_bind, settings_draw, implies_true, settings_ite, ite_self, settings_foldl']; done)
      | (with_reducible refine (settings_foldl _ ?_ _ _).trans ?_)
      | (with_reducible refine (settings_foldl2 _ ?_ _ _).trans ?_)
      | (split <;> (try (rename_i h; first | (have h2 := congrArg Prod.snd h; simp only at h2; subst h2))))
      | (intro _)
      | (simp only [settings_bind, settings_draw, implies_true, settings_ite, ite_self, settings_foldl', *]; done)
      | (simp only [settings_bind, settings_draw, implies_true, settings_ite, ite_self, settings_foldl'])))
theorem settings_unmask (a0 a1 a2 : _) : (State.unmask a0 a1 a2).settings = a0.settings := by
  unfold State.unmask
  (repeat' split) <;> simp only [settings_emit, settings_updFn, implies_true, settings_ite, ite_self]

/-! ### Machine/Faults.lean -/

theorem settings_writeExport (a0 a1 : _) : (State.writeExport a0 a1).settings = a0.settings := by
  unfold State.writeExport
  simp only [settings_mapFault]
theorem settings_parkInj (a0 a1 a2 : _) : (State.parkInj a0 a1 a2).settings = a0.settings := by
  unfold State.parkInj
  split <;> simp only [settings_setInj]
theorem settings_countSkipped (a0 : _) : (State.countSkipped a0).settings = a0.settings := by
  unfold State.countSkipped
  simp only [settings_mapFault]
theorem settings_injectLine (a0 a1 a2 : _) : (State.injectLine a0 a1 a2).settings = a0.settings := by
  unfold State.injectLine
  (try simp only [settings_countApplied, settings_countSkipped, settings_parkInj, settings_setInj, settings_setRaw, implies_true, settings_ite, ite_self,
    settings_foldl']) <;>
    (repeat' (first
      | with_reducible rfl
      | (simp only [settings_countApplied, settings_countSkipped, settings_parkInj, settings_setInj, settings_setRaw, implies_true, settings_ite, ite_self,
        settings_foldl']; done)
      | (with_reducible refine (settings_foldl _ ?_ _ _).trans ?_)
      | (with_reducible refine (settings_foldl2 _ ?_ _ _).trans ?_)
      | (split <;> (try (rename_i h; first | (have h2 := congrArg Prod.snd h; simp only at h2; subst h2))))
      | (intro _)
      | (simp only [settings_countApplied, settings_countSkipped, settings_parkInj, settings_setInj, settings_setRaw, implies_true, settings_ite, ite_self,
        settings_foldl', *]; done)
      | (simp only [settings_countApplied, settings_countSkipped, settings_parkInj, settings_setInj, settings_setRaw, implies_true, settings_ite, ite_self,
        settings_foldl'])))
theorem settings_injectChannel (a0 a1 a2 : _) : (State.injectChannel a0 a1 a2).settings = a0.settings := by
  unfold State.injectChannel
  (repeat' split) <;> simp only [settings_countApplied, settings_countSkipped, settings_parkInj, settings_setInj, settings_unitOut, implies_true, settings_ite, ite_self]

/-! ### Machine/Perf.lean -/

theorem settings_pmSettle (a0 a1 : _) : (State.pmSettle a0 a1).settings = a0.settings := by
  unfold State.pmSettle
  exact settings_foldl _ (fun _ _ => by (repeat' split) <;> simp only [settings_updPerfFn, implies_true]) _ _
theorem settings_setFreeze (a0 a1 a2 : _) : (State.setFreeze a0 a1 a2).settings = a0.settings := by
  unfold State.setFreeze
  split <;> simp only [settings_pmSettle, settings_updPerfFn]
theorem settings_setUnitFreeze (a0 a1 a2 a3 : _) : (State.setUnitFreeze a0 a1 a2 a3).settings = a0.settings := by
  unfold State.setUnitFreeze
  simp only [settings_pmSettle, settings_updPerfFn]
theorem settings_pmOccupancy (a0 a1 a2 a3 : _) : (State.pmOccupancy a0 a1 a2 a3).settings = a0.settings := by
  unfold State.pmOccupancy
  (try simp only [settings_raiseVector, settings_setPerfFn, implies_true, settings_ite, ite_self, settings_foldl']) <;>
    (repeat' (first
      | with_reducible rfl
      | (simp only [settings_raiseVector, settings_setPerfFn, implies_true, settings_ite, ite_self, settings_foldl']; done)
      | (with_reducible refine (settings_foldl _ ?_ _ _).trans ?_)
      | (with_reducible refine (settings_foldl2 _ ?_ _ _).trans ?_)
      | (split <;> (try (rename_i h; first | (have h2 := congrArg Prod.snd h; simp only at h2; subst h2))))
      | (intro _)
      | (simp only [settings_raiseVector, settings_setPerfFn, implies_true, settings_ite, ite_self, settings_foldl', *]; done)
      | (simp only [settings_raiseVector, settings_setPerfFn, implies_true, settings_ite, ite_self, settings_foldl'])))
theorem settings_countHour (a0 : _) : (State.countHour a0).settings = a0.settings := by
  unfold State.countHour
  (try simp only [settings_mapPower, implies_true, settings_ite, ite_self, settings_foldl']) <;>
    (repeat' (first
      | with_reducible rfl
      | (simp only [settings_mapPower, implies_true, settings_ite, ite_self, settings_foldl']; done)
      | (with_reducible refine (settings_foldl _ ?_ _ _).trans ?_)
      | (with_reducible refine (settings_foldl2 _ ?_ _ _).trans ?_)
      | (split <;> (try (rename_i h; first | (have h2 := congrArg Prod.snd h; simp only at h2; subst h2))))
      | (intro _)
      | (simp only [settings_mapPower, implies_true, settings_ite, ite_self, settings_foldl', *]; done)
      | (simp only [settings_mapPower, implies_true, settings_ite, ite_self, settings_foldl'])))
theorem settings_passTime (a0 : _) : (State.passTime a0).settings = a0.settings := by
  unfold State.passTime
  simp only [settings_countHour, settings_pmOccupancy, settings_tickTime, implies_true, settings_ite, ite_self, settings_foldl']
theorem settings_writeSampleCfg (a0 a1 a2 a3 : _) : (State.writeSampleCfg a0 a1 a2 a3).settings = a0.settings := by
  unfold State.writeSampleCfg
  (repeat' split) <;> simp only [settings_updPerfFn, settings_updSampler, implies_true, settings_ite, ite_self]
theorem settings_writeDumpRing (a0 a1 a2 : _) : (State.writeDumpRing a0 a1 a2).settings = a0.settings := by
  unfold State.writeDumpRing
  simp only [settings_updPerfFn]
theorem settings_loseDump (a0 a1 : _) : (State.loseDump a0 a1).settings = a0.settings := by
  unfold State.loseDump
  simp only [settings_updPerfFn]

/-! ### Machine/Poq.lean -/

theorem settings_putCtxWay (a0 a1 a2 a3 : _) : (State.putCtxWay a0 a1 a2 a3).settings = a0.settings := by
  unfold State.putCtxWay
  simp only [settings_mapPoq]
theorem settings_useCtx (a0 a1 a2 a3 : _) : (State.useCtx a0 a1 a2 a3).settings = a0.settings := by
  unfold State.useCtx
  (try simp only [settings_charge, settings_countPoq, settings_putCtxWay, implies_true, settings_ite, ite_self, settings_foldl']) <;>
    (repeat' (first
      | with_reducible rfl
      | (simp only [settings_charge, settings_countPoq, settings_putCtxWay, implies_true, settings_ite, ite_self, settings_foldl']; done)
      | (with_reducible refine (settings_foldl _ ?_ _ _).trans ?_)
      | (with_reducible refine (settings_foldl2 _ ?_ _ _).trans ?_)
      | (split <;> (try (rename_i h; first | (have h2 := congrArg Prod.snd h; simp only at h2; subst h2))))
      | (intro _)
      | (simp only [settings_charge, settings_countPoq, settings_putCtxWay, implies_true, settings_ite, ite_self, settings_foldl', *]; done)
      | (simp only [settings_charge, settings_countPoq, settings_putCtxWay, implies_true, settings_ite, ite_self, settings_foldl'])))
theorem settings_slots (a0 : _) : (State.slots a0).settings = a0.settings := by
  unfold State.slots
  simp only [settings_fillSlots]
theorem settings_ringFault (a0 a1 a2 : _) : (State.ringFault a0 a1 a2).settings = a0.settings := by
  unfold State.ringFault
  simp only [settings_countPoq, settings_setCtx, settings_raise]
theorem settings_updExec (a0 a1 a2 a3 : _) : (State.updExec a0 a1 a2 a3).settings = a0.settings := by
  unfold State.updExec
  split <;> simp only [settings_setCtx]
theorem settings_finishExec (a0 a1 a2 a3 a4 : _) : (State.finishExec a0 a1 a2 a3 a4).settings = a0.settings := by
  unfold State.finishExec
  simp only [settings_updExec]
theorem settings_holdExec (a0 a1 a2 a3 a4 a5 a6 : _) : (State.holdExec a0 a1 a2 a3 a4 a5 a6).settings = a0.settings := by
  unfold State.holdExec
  (try simp only [settings_countShank, settings_fire, settings_updExec, implies_true, settings_ite, ite_self, settings_foldl']) <;>
    (repeat' (first
      | with_reducible rfl
      | (simp only [settings_countShank, settings_fire, settings_updExec, implies_true, settings_ite, ite_self, settings_foldl']; done)
      | (with_reducible refine (settings_foldl _ ?_ _ _).trans ?_)
      | (with_reducible refine (settings_foldl2 _ ?_ _ _).trans ?_)
      | (split <;> (try (rename_i h; first | (have h2 := congrArg Prod.snd h; simp only at h2; subst h2))))
      | (intro _)
      | (simp only [settings_countShank, settings_fire, settings_updExec, implies_true, settings_ite, ite_self, settings_foldl', *]; done)
      | (simp only [settings_countShank, settings_fire, settings_updExec, implies_true, settings_ite, ite_self, settings_foldl'])))
theorem settings_runPieces (q ld x act) (hact : ∀ a b c (s : State),
    (act a b c s : PageRes).st.settings = s.settings) (n a b c d) (s : State) : (State.runPieces q ld x act n a b c d s).settings = s.settings := by
  induction n generalizing a b c d s with
  | zero => rfl
  | succ n ih =>
    unfold State.runPieces
    split; · simp only [settings_finishExec]
    have h := hact a b c s
    split <;> rename_i h1 <;> rw [h1] at h <;> simp only [PageRes.st] at h <;> simp only [ih, settings_countPoq, settings_holdExec, settings_updExec,
      settings_finishExec, h]
theorem settings_poqCheck (a0 a1 a2 a3 : _) : (State.poqCheck a0 a1 a2 a3).2.settings = a0.settings := by
  unfold State.poqCheck
  (try simp only [settings_pmCrypto, settings_raise, implies_true, settings_ite, ite_self, settings_foldl']) <;>
    (repeat' (first
      | with_reducible rfl
      | (simp only [settings_pmCrypto, settings_raise, implies_true, settings_ite, ite_self, settings_foldl']; done)
      | (with_reducible refine (settings_foldl _ ?_ _ _).trans ?_)
      | (with_reducible refine (settings_foldl2 _ ?_ _ _).trans ?_)
      | (split <;> (try (rename_i h; first | (have h2 := congrArg Prod.snd h; simp only at h2; subst h2))))
      | (intro _)
      | (simp only [settings_pmCrypto, settings_raise, implies_true, settings_ite, ite_self, settings_foldl', *]; done)
      | (simp only [settings_pmCrypto, settings_raise, implies_true, settings_ite, ite_self, settings_foldl'])))
theorem settings_onPage (s : State) (l d k f w : _) (act : Target → State → PageRes) (h : ∀ t u,
    (act t u).st.settings = u.settings) : (State.onPage s l d k f w act).st.settings = s.settings := by
  unfold State.onPage
  split; · rfl
  split; · rw [h]
  split
  · rename_i h1; have h2 := congrArg (fun p => p.2.settings) h1; simp only [settings_poqCheck] at h2; exact h2.symm
  · rename_i h1; have h2 := congrArg (fun p => p.2.settings) h1; simp only [settings_poqCheck] at h2
    split
    · simp only [PageRes.st, settings_raise, settings_pmCrypto]; exact h2.symm
    · rw [h]; exact h2.symm
theorem settings_softHoldPoq (a0 a1 a2 : _) : (State.softHoldPoq a0 a1 a2).settings = a0.settings := by
  unfold State.softHoldPoq
  (repeat' split) <;> simp only [settings_countReg, settings_updMaster, implies_true, settings_ite, ite_self]
theorem settings_dropBuffered (a0 a1 : _) : (State.dropBuffered a0 a1).settings = a0.settings := by
  unfold State.dropBuffered
  exact settings_foldl _ (fun _ _ => by (repeat' split) <;> simp only [settings_completeMerge, settings_mapPath, implies_true]) _ _
theorem settings_zeroPage (s : State) (l t a b : _) : (State.zeroPage s l t a b).st.settings = s.settings := by
  unfold State.zeroPage
  split; · rfl
  split; · rfl
  split; · rfl
  simp only [PageRes.st, settings_toZero, settings_dropBuffered, settings_softHoldPoq]
def Ready.st : Ready → State | .yes s => s | .hold s => s | .wait s => s
theorem settings_readyPage (s : State) (l t h m : _) : (State.readyPage s l t h m).st.settings = s.settings := by
  unfold State.readyPage
  split; · rfl
  split; · rfl
  have hw : ∀ u : State, (if u.tier.freeFrames = 0 then u.emergencyDemote h else u).settings = u.settings := by
    intro u; split <;> simp only [settings_emergencyDemote]
  have hwarm : ∀ u v : State, v.settings = u.settings → (match v.startMigration .writePromotion t.dpn h with | some s => s | none => v).settings = u.settings := by
    intro u v h1; split
    · rename_i h2; exact (settings_startMigration h2).trans h1
    · exact h1
  have hhot : ((match s.trackerOf t.dpn with
      | some (_, tr) => if tr.holdWrites then .wait s else .yes (s.softHoldPoq t m)
      | none => .yes (s.softHoldPoq t m) : Ready)).st.settings = s.settings := by
    split
    · split
      · rfl
      · exact settings_softHoldPoq _ _ _
    · exact settings_softHoldPoq _ _ _
  have hnew : ∀ own, ((match (if s.tier.freeFrames = 0 then s.emergencyDemote h else s).takeFrame h (hotRecord t.dpn own) with
      | none => .wait (if s.tier.freeFrames = 0 then s.emergencyDemote h else s)
      | some (f, s) => .yes ((s.softHoldPoq t m).toHot t.dpn f own (s.defKey l) t.durable) : Ready)).st.settings = s.settings := by
    intro own; split
    · exact hw s
    · rename_i h1; have h2 := settings_takeFrame h1
      simp only [Ready.st, settings_toHot, settings_softHoldPoq]; exact h2.trans (hw s)
  dsimp only
  split
  · exact hnew _
  · exact hnew _
  · exact hnew _
  · exact hhot
  · exact hwarm _ _ (hw s)
  · split
    · split
      · simp only [Ready.st]
        split
        · rfl
        · exact (hwarm _ _ (hw _)).trans (settings_abandon _ _)
      · rfl
    · exact hhot
  · rfl
theorem settings_poqWriteLine (a0 a1 a2 a3 : _) : (State.poqWriteLine a0 a1 a2 a3).settings = a0.settings := by
  unfold State.poqWriteLine
  (repeat' split) <;> simp only [settings_bufferLine, settings_completeMerge, settings_draw, settings_dropMerge, implies_true]
theorem settings_sourceLines (a0 a1 : _) : (State.sourceLines a0 a1).2.settings = a0.settings := by
  unfold State.sourceLines
  (try simp only [settings_charge, settings_warmLines, implies_true, settings_ite, ite_self, settings_foldl']) <;>
    (repeat' (first
      | with_reducible rfl
      | (simp only [settings_charge, settings_warmLines, implies_true, settings_ite, ite_self, settings_foldl']; done)
      | (with_reducible refine (settings_foldl _ ?_ _ _).trans ?_)
      | (with_reducible refine (settings_foldl2 _ ?_ _ _).trans ?_)
      | (split <;> (try (rename_i h; first | (have h2 := congrArg Prod.snd h; simp only at h2; subst h2))))
      | (intro _)
      | (simp only [settings_charge, settings_warmLines, implies_true, settings_ite, ite_self, settings_foldl', *]; done)
      | (simp only [settings_charge, settings_warmLines, implies_true, settings_ite, ite_self, settings_foldl'])))
theorem settings_copyPiece (s : State) (l d p k h : _) : (State.copyPiece s l d p k h).st.settings = s.settings := by
  unfold State.copyPiece
  dsimp only
  refine settings_onPage _ _ _ _ _ _ _ ?_
  intro src s
  refine settings_onPage _ _ _ _ _ _ _ ?_
  intro dst s
  split; · rfl
  split; · exact settings_zeroPage _ _ _ _ _
  have hr := settings_readyPage s l dst h mPoq
  split
  · rename_i h1; rw [h1] at hr; exact hr
  · rename_i h1; rw [h1] at hr; exact hr
  · rename_i u h1; rw [h1] at hr
    have hr : u.settings = s.settings := hr
    simp only [PageRes.st]
    rw [settings_foldl _ (fun _ _ => settings_poqWriteLine _ _ _ _)]
    have hh : ∀ (c : Prop) [Decidable c] (d : Dpn) (v : State), (if c then v.heatSample d else v).settings = v.settings := by
      intro c _ d v; split
      · exact settings_heatSample _ _
      · rfl
    have hq := (settings_sourceLines (if p = 0 ∨ (d.aux.toNat + p) % 4096 = 0 then (if p = 0 ∨ (d.dpa.toNat + p) % 4096 = 0 then u.heatSample src.dpn else u).heatSample dst.dpn else (if p = 0 ∨ (d.dpa.toNat + p) % 4096 = 0 then u.heatSample src.dpn else u)) src).trans ((hh _ _ _).trans ((hh _ _ _).trans hr))
    exact settings_if ((settings_charge _ _ _).trans hq) hq
theorem settings_setPinned (a0 a1 a2 : _) : (State.setPinned a0 a1 a2).settings = a0.settings := by
  unfold State.setPinned
  (repeat' split) <;> simp only [settings_breakSpan, settings_formSpan, settings_mapTier, settings_putEntry, implies_true, settings_ite, ite_self]
theorem settings_poqPromote (s : State) (d h : _) : (State.poqPromote s d h).st.settings = s.settings := by
  unfold State.poqPromote
  split; · rfl
  split
  · rename_i h1; exact settings_startMigration h1
  · rfl
theorem settings_hardenPage (a0 a1 a2 : _) : (State.hardenPage a0 a1 a2).settings = a0.settings := by
  unfold State.hardenPage
  (repeat' split) <;> simp only [settings_mapShank, settings_recordPage, settings_touchEntry, implies_true, settings_ite, ite_self]
theorem settings_takeDeep (a0 a1 a2 : _) : (State.takeDeep a0 a1 a2).settings = a0.settings := by
  unfold State.takeDeep
  (try simp only [settings_startJob, implies_true, settings_ite, ite_self, settings_foldl']) <;>
    (repeat' (first
      | with_reducible rfl
      | (simp only [settings_startJob, implies_true, settings_ite, ite_self, settings_foldl']; done)
      | (with_reducible refine (settings_foldl _ ?_ _ _).trans ?_)
      | (with_reducible refine (settings_foldl2 _ ?_ _ _).trans ?_)
      | (split <;> (try (rename_i h; first | (have h2 := congrArg Prod.snd h; simp only at h2; subst h2))))
      | (intro _)
      | (simp only [settings_startJob, implies_true, settings_ite, ite_self, settings_foldl', *]; done)
      | (simp only [settings_startJob, implies_true, settings_ite, ite_self, settings_foldl'])))
theorem settings_chunkBoundary (a0 a1 : _) : (State.chunkBoundary a0 a1).settings = a0.settings := by
  unfold State.chunkBoundary
  (try simp only [settings_countCodec, settings_giveEngines, settings_mapCodec, implies_true, settings_ite, ite_self, settings_foldl']) <;>
    (repeat' (first
      | with_reducible rfl
      | (simp only [settings_countCodec, settings_giveEngines, settings_mapCodec, implies_true, settings_ite, ite_self, settings_foldl']; done)
      | (with_reducible refine (settings_foldl _ ?_ _ _).trans ?_)
      | (with_reducible refine (settings_foldl2 _ ?_ _ _).trans ?_)
      | (split <;> (try (rename_i h; first | (have h2 := congrArg Prod.snd h; simp only at h2; subst h2))))
      | (intro _)
      | (simp only [settings_countCodec, settings_giveEngines, settings_mapCodec, implies_true, settings_ite, ite_self, settings_foldl', *]; done)
      | (simp only [settings_countCodec, settings_giveEngines, settings_mapCodec, implies_true, settings_ite, ite_self, settings_foldl'])))
theorem settings_chunkFrame (a0 a1 a2 a3 : _) : (State.chunkFrame a0 a1 a2 a3).2.settings = a0.settings := by
  unfold State.chunkFrame
  (try simp only [settings_charge, settings_chunkFor, settings_countCodec, settings_pmCodec, implies_true, settings_ite, ite_self, settings_foldl']) <;>
    (repeat' (first
      | with_reducible rfl
      | (simp only [settings_charge, settings_chunkFor, settings_countCodec, settings_pmCodec, implies_true, settings_ite, ite_self, settings_foldl']; done)
      | (with_reducible refine (settings_foldl _ ?_ _ _).trans ?_)
      | (with_reducible refine (settings_foldl2 _ ?_ _ _).trans ?_)
      | (split <;> (try (rename_i h; first | (have h2 := congrArg Prod.snd h; simp only at h2; subst h2))))
      | (intro _)
      | (simp only [settings_charge, settings_chunkFor, settings_countCodec, settings_pmCodec, implies_true, settings_ite, ite_self, settings_foldl', *]; done)
      | (simp only [settings_charge, settings_chunkFor, settings_countCodec, settings_pmCodec, implies_true, settings_ite, ite_self, settings_foldl'])))
theorem settings_pageFrames (a0 a1 a2 : _) : (State.pageFrames a0 a1 a2).2.settings = a0.settings := by
  unfold State.pageFrames
  (try simp only [settings_charge, settings_countCodec, settings_pmCodec, settings_sourceLines, implies_true, settings_ite, ite_self, settings_foldl']) <;>
    (repeat' (first
      | with_reducible rfl
      | (simp only [settings_charge, settings_countCodec, settings_pmCodec, settings_sourceLines, implies_true, settings_ite, ite_self, settings_foldl']; done)
      | (with_reducible refine (settings_foldl _ ?_ _ _).trans ?_)
      | (with_reducible refine (settings_foldl2 _ ?_ _ _).trans ?_)
      | (split <;> (try (rename_i h; first | (have h2 := congrArg Prod.snd h; simp only at h2; subst h2))))
      | (intro _)
      | (simp only [settings_charge, settings_countCodec, settings_pmCodec, settings_sourceLines, implies_true, settings_ite, ite_self, settings_foldl', *]; done)
      | (simp only [settings_charge, settings_countCodec, settings_pmCodec, settings_sourceLines, implies_true, settings_ite, ite_self, settings_foldl'])))
theorem settings_compressAll (ld d n i buf) (s : State) : (State.compressAll ld d n i buf s).2.settings = s.settings := by
  induction n generalizing i buf s with
  | zero => rfl
  | succ n ih =>
    unfold State.compressAll
    split; · rfl
    split; · rfl
    split
    · rename_i h1; have h2 := congrArg (fun p => p.2.settings) h1; simp only [settings_pageFrames, settings_heatSample, settings_countPoq,
      settings_poqCheck] at h2; exact h2.symm
    rename_i h1; have h2 := congrArg (fun p => p.2.settings) h1; simp only [settings_pageFrames, settings_heatSample, settings_countPoq, settings_poqCheck] at h2
    split
    · rename_i h3; have h4 := congrArg (fun p => p.2.settings) h3; simp only [settings_poqCheck, settings_countPoq, settings_pageFrames,
      settings_heatSample] at h4; exact h4.symm.trans h2.symm
    · rename_i h3; have h4 := congrArg (fun p => p.2.settings) h3; simp only [settings_poqCheck, settings_countPoq, settings_pageFrames, settings_heatSample] at h4
      split
      · exact h4.symm.trans h2.symm
      · rw [ih, settings_countPoq]; exact h4.symm.trans h2.symm
theorem settings_bufferFault (a0 a1 a2 a3 a4 : _) : (State.bufferFault a0 a1 a2 a3 a4).settings = a0.settings := by
  unfold State.bufferFault
  simp only [settings_countPoq, settings_finishExec]
theorem settings_deliverFrames (a0 a1 a2 a3 a4 a5 a6 : _) : (State.deliverFrames a0 a1 a2 a3 a4 a5 a6).settings = a0.settings := by
  unfold State.deliverFrames
  (try simp only [settings_bufferFault, settings_emit, settings_finishExec, implies_true, settings_ite, ite_self, settings_foldl']) <;>
    (repeat' (first
      | with_reducible rfl
      | (simp only [settings_bufferFault, settings_emit, settings_finishExec, implies_true, settings_ite, ite_self, settings_foldl']; done)
      | (with_reducible refine (settings_foldl _ ?_ _ _).trans ?_)
      | (with_reducible refine (settings_foldl2 _ ?_ _ _).trans ?_)
      | (split <;> (try (rename_i h; first | (have h2 := congrArg Prod.snd h; simp only at h2; subst h2))))
      | (intro _)
      | (simp only [settings_bufferFault, settings_emit, settings_finishExec, implies_true, settings_ite, ite_self, settings_foldl', *]; done)
      | (simp only [settings_bufferFault, settings_emit, settings_finishExec, implies_true, settings_ite, ite_self, settings_foldl'])))
theorem settings_compressChunk (a0 a1 a2 a3 a4 a5 : _) : (State.compressChunk a0 a1 a2 a3 a4 a5).settings = a0.settings := by
  unfold State.compressChunk
  dsimp only
  have he : ∀ (u : State) (r : W16 × Nat × List Byte), u.settings = a0.settings → (u.deliverFrames a1 a2 a3 a4 a5 r).giveEngines.settings = a0.settings :=
    fun u r h => (settings_giveEngines _).trans ((settings_deliverFrames _ _ _ _ _ _ _).trans h)
  split; · exact he _ _ rfl
  rename_i t _
  have h0 : (if a4.pos % 4096 / 1024 = 0 then a0.poqCheck a3 t.dpn true else (none, a0)).2.settings = a0.settings := by
    split
    · exact settings_poqCheck _ _ _ _
    · rfl
  generalize (if a4.pos % 4096 / 1024 = 0 then a0.poqCheck a3 t.dpn true else (none, a0)) = p at h0 ⊢
  split; · exact he _ _ h0
  have h1 : ((if a4.pos % 4096 / 1024 = 0 then p.2.heatSample t.dpn else p.2).chunkFrame t a4.d.level (a4.pos % 4096 / 1024)).2.settings = a0.settings :=
    (settings_chunkFrame _ _ _ _).trans (settings_if ((settings_heatSample _ _).trans h0) h0)
  generalize (if a4.pos % 4096 / 1024 = 0 then p.2.heatSample t.dpn else p.2).chunkFrame t a4.d.level (a4.pos % 4096 / 1024) = q at h1 ⊢
  split
  · exact he _ _ h1
  · split
    · exact he _ _ h1
    · split
      · exact he _ _ (settings_if ((settings_countPoq _ _ _ _).trans h1) h1)
      · exact (settings_chunkBoundary _ _).trans ((settings_updExec _ _ _ _).trans (settings_if ((settings_countPoq _ _ _ _).trans h1) h1))
theorem settings_heatAll (ld d n i buf) (s : State) : (State.heatAll ld d n i buf s).2.settings = s.settings := by
  induction n generalizing i buf s with
  | zero => rfl
  | succ n ih =>
    unfold State.heatAll
    split; · rfl
    split; · rfl
    split
    · rename_i h1; have h2 := congrArg (fun p => p.2.settings) h1; simp only [settings_countPoq, settings_poqCheck] at h2; exact h2.symm
    rename_i h1; have h2 := congrArg (fun p => p.2.settings) h1; simp only [settings_countPoq, settings_poqCheck] at h2
    rw [ih, settings_countPoq]; exact h2.symm
theorem settings_queueInterrupt (a0 a1 a2 : _) : (State.queueInterrupt a0 a1 a2).settings = a0.settings := by
  unfold State.queueInterrupt
  simp only [settings_countPoq, settings_raiseVector, settings_setCtx]
theorem settings_writeCompletion (a0 a1 a2 a3 a4 a5 : _) : (State.writeCompletion a0 a1 a2 a3 a4 a5).settings = a0.settings := by
  unfold State.writeCompletion
  (repeat' split) <;> simp only [settings_countPoq, settings_emit, settings_queueInterrupt, settings_setCtx, implies_true, settings_ite, ite_self]
theorem settings_freeCtx (a0 a1 a2 : _) : (State.freeCtx a0 a1 a2).settings = a0.settings := by
  unfold State.freeCtx
  simp only [settings_setCtx, settings_updPoqLd]

/-! ### Machine/Eyelet.lean -/

theorem settings_postEyelet (a0 a1 a2 a3 a4 : _) : (State.postEyelet a0 a1 a2 a3 a4).settings = a0.settings := by
  unfold State.postEyelet
  (repeat' split) <;> simp only [settings_countEye, settings_updEye, settings_raise, implies_true, settings_ite, ite_self]
theorem settings_writeEyeConfig (a0 a1 a2 : _) : (State.writeEyeConfig a0 a1 a2).settings = a0.settings := by
  unfold State.writeEyeConfig
  simp only [settings_updEye]
theorem settings_writeEventRing (a0 a1 a2 : _) : (State.writeEventRing a0 a1 a2).settings = a0.settings := by
  unfold State.writeEventRing
  simp only [settings_updCmdLd]
theorem settings_grantLock (a0 a1 a2 a3 : _) : (State.grantLock a0 a1 a2 a3).settings = a0.settings := by
  unfold State.grantLock
  simp only [settings_updLock]
theorem settings_readLock (a0 a1 a2 : _) : (State.readLock a0 a1 a2).settings = a0.settings := by
  unfold State.readLock
  (try simp only [settings_grantLock, settings_mapCmd, implies_true, settings_ite, ite_self, settings_foldl']) <;>
    (repeat' (first
      | with_reducible rfl
      | (simp only [settings_grantLock, settings_mapCmd, implies_true, settings_ite, ite_self, settings_foldl']; done)
      | (with_reducible refine (settings_foldl _ ?_ _ _).trans ?_)
      | (with_reducible refine (settings_foldl2 _ ?_ _ _).trans ?_)
      | (split <;> (try (rename_i h; first | (have h2 := congrArg Prod.snd h; simp only at h2; subst h2))))
      | (intro _)
      | (simp only [settings_grantLock, settings_mapCmd, implies_true, settings_ite, ite_self, settings_foldl', *]; done)
      | (simp only [settings_grantLock, settings_mapCmd, implies_true, settings_ite, ite_self, settings_foldl'])))
theorem settings_releaseLock (a0 a1 a2 : _) : (State.releaseLock a0 a1 a2).settings = a0.settings := by
  unfold State.releaseLock
  split <;> simp only [settings_freeLock]

/-! ### Machine/Regs.lean -/

theorem settings_writeControlPage (a0 a1 a2 a3 : _) : (State.writeControlPage a0 a1 a2 a3).settings = a0.settings := by
  unfold State.writeControlPage
  (repeat' split) <;> simp only [settings_setFreeze, settings_updPerfFn, settings_writeDumpRing, settings_writeSampleCfg, implies_true, settings_ite, ite_self]
theorem settings_writeUnit (a0 a1 a2 a3 a4 : _) : (State.writeUnit a0 a1 a2 a3 a4).settings = a0.settings := by
  unfold State.writeUnit
  split <;> simp only [settings_setUnitFreeze, settings_updPerfFn]
theorem settings_writeMsix (a0 a1 a2 a3 : _) : (State.writeMsix a0 a1 a2 a3).settings = a0.settings := by
  unfold State.writeMsix
  (repeat' split) <;> simp only [settings_unmask, settings_updFn, implies_true]

/-! ### Machine/Keys.lean -/

theorem settings_loadSlot (a0 a1 a2 a3 a4 a5 : _) : (State.loadSlot a0 a1 a2 a3 a4 a5).settings = a0.settings := by
  unfold State.loadSlot
  split <;> simp only [settings_updSlot, settings_wrapKeys]
theorem settings_seeded (a0 : _) : (State.seeded a0).2.settings = a0.settings := by
  unfold State.seeded
  (try simp only [settings_draw, implies_true, settings_ite, ite_self, settings_foldl']) <;>
    (repeat' (first
      | with_reducible rfl
      | (simp only [settings_draw, implies_true, settings_ite, ite_self, settings_foldl']; done)
      | (with_reducible refine (settings_foldl _ ?_ _ _).trans ?_)
      | (with_reducible refine (settings_foldl2 _ ?_ _ _).trans ?_)
      | (split <;> (try (rename_i h; first | (have h2 := congrArg Prod.snd h; simp only at h2; subst h2))))
      | (intro _)
      | (simp only [settings_draw, implies_true, settings_ite, ite_self, settings_foldl', *]; done)
      | (simp only [settings_draw, implies_true, settings_ite, ite_self, settings_foldl'])))
theorem settings_drawKey (a0 : _) : (State.drawKey a0).2.settings = a0.settings := by
  unfold State.drawKey
  (try simp only [settings_mapKeys, settings_seeded, implies_true, settings_ite, ite_self, settings_foldl']) <;>
    (repeat' (first
      | with_reducible rfl
      | (simp only [settings_mapKeys, settings_seeded, implies_true, settings_ite, ite_self, settings_foldl']; done)
      | (with_reducible refine (settings_foldl _ ?_ _ _).trans ?_)
      | (with_reducible refine (settings_foldl2 _ ?_ _ _).trans ?_)
      | (split <;> (try (rename_i h; first | (have h2 := congrArg Prod.snd h; simp only at h2; subst h2))))
      | (intro _)
      | (simp only [settings_mapKeys, settings_seeded, implies_true, settings_ite, ite_self, settings_foldl', *]; done)
      | (simp only [settings_mapKeys, settings_seeded, implies_true, settings_ite, ite_self, settings_foldl'])))
theorem settings_setCkid (a0 a1 a2 a3 : _) : (State.setCkid a0 a1 a2 a3).settings = a0.settings := by
  unfold State.setCkid
  simp only [settings_updTspOf]
theorem settings_startDestroy (a0 a1 : _) : (State.startDestroy a0 a1).settings = a0.settings := by
  unfold State.startDestroy
  exact settings_foldl _ (fun _ _ => by (repeat' split) <;> simp only [settings_abandon, settings_updSlot, implies_true]) _ _
theorem settings_zeroizeSlot (a0 a1 : _) : (State.zeroizeSlot a0 a1).settings = a0.settings := by
  unfold State.zeroizeSlot
  (repeat' split) <;> simp only [settings_setSlot, settings_slotZero, settings_wrapKeys, implies_true, settings_ite, ite_self]
theorem settings_answerDestroyed (a0 a1 a2 : _) : (State.answerDestroyed a0 a1 a2).settings = a0.settings := by
  unfold State.answerDestroyed
  (try simp only [settings_emit, settings_reply, implies_true, settings_ite, ite_self, settings_foldl']) <;>
    (repeat' (first
      | with_reducible rfl
      | (simp only [settings_emit, settings_reply, implies_true, settings_ite, ite_self, settings_foldl']; done)
      | (with_reducible refine (settings_foldl _ ?_ _ _).trans ?_)
      | (with_reducible refine (settings_foldl2 _ ?_ _ _).trans ?_)
      | (split <;> (try (rename_i h; first | (have h2 := congrArg Prod.snd h; simp only at h2; subst h2))))
      | (intro _)
      | (simp only [settings_emit, settings_reply, implies_true, settings_ite, ite_self, settings_foldl', *]; done)
      | (simp only [settings_emit, settings_reply, implies_true, settings_ite, ite_self, settings_foldl'])))
theorem settings_zeroizeAll (a0 : _) : (State.zeroizeAll a0).settings = a0.settings := by
  unfold State.zeroizeAll
  exact settings_foldl _ (fun _ _ => by (repeat' split) <;> simp only [settings_answerDestroyed, settings_mapKeys, settings_slots, settings_updSlot,
    settings_zeroizeSlot, implies_true]) _ _
theorem settings_nextEpochKey (a0 : _) : (State.nextEpochKey a0).settings = a0.settings := by
  unfold State.nextEpochKey
  simp only [settings_mapKeys, implies_true]
theorem settings_tspProgram (s : State) (l c k x : _) : (State.tspProgram s l c k x).settings = s.settings := by
  unfold State.tspProgram
  dsimp only
  split; · rw [settings_emit]
  split; · rw [settings_emit]
  split; · rw [settings_emit]
  split
  · rw [settings_emit]
  · rw [settings_emit, settings_setCkid, settings_loadSlot]

/-! ### Machine/Standard.lean -/

theorem settings_clearPage (a0 a1 a2 : _) : (State.clearPage a0 a1 a2).settings = a0.settings := by
  unfold State.clearPage
  simp only [settings_dropBuffered, settings_toUnwritten]
theorem settings_clearFree (a0 a1 : _) : (State.clearFree a0 a1).settings = a0.settings := by
  unfold State.clearFree
  exact settings_foldl _ (fun _ _ => by (repeat' split) <;> simp only [settings_clearPage, implies_true]) _ _
theorem settings_settleRemovals (a0 : _) : (State.settleRemovals a0).settings = a0.settings := by
  unfold State.settleRemovals
  (try simp only [settings_setMap, settings_clearFree, settings_mapCmd, settings_respStd, settings_wake, implies_true, settings_ite, ite_self, settings_foldl']) <;>
    (repeat' (first
      | with_reducible rfl
      | (simp only [settings_setMap, settings_clearFree, settings_mapCmd, settings_respStd, settings_wake, implies_true, settings_ite, ite_self, settings_foldl']; done)
      | (with_reducible refine (settings_foldl _ ?_ _ _).trans ?_)
      | (with_reducible refine (settings_foldl2 _ ?_ _ _).trans ?_)
      | (split <;> (try (rename_i h; first | (have h2 := congrArg Prod.snd h; simp only at h2; subst h2))))
      | (intro _)
      | (simp only [settings_setMap, settings_clearFree, settings_mapCmd, settings_respStd, settings_wake, implies_true, settings_ite, ite_self, settings_foldl',
        *]; done)
      | (simp only [settings_setMap, settings_clearFree, settings_mapCmd, settings_respStd, settings_wake, implies_true, settings_ite, ite_self, settings_foldl'])))
theorem settings_removeEntries (a0 a1 a2 a3 : _) : (State.removeEntries a0 a1 a2 a3).settings = a0.settings := by
  unfold State.removeEntries
  simp only [settings_mapCmd, settings_mapShank, settings_mapTier, settings_setMap, settings_settleRemovals, implies_true, settings_ite, ite_self, settings_foldl']
theorem settings_addEntry (a0 a1 a2 : _) : (State.addEntry a0 a1 a2).settings = a0.settings := by
  unfold State.addEntry
  simp only [settings_mapShank, settings_setMap, implies_true]
theorem settings_declineRest (a0 a1 a2 : _) : (State.declineRest a0 a1 a2).settings = a0.settings := by
  unfold State.declineRest
  (try simp only [settings_fire, settings_mapTier, implies_true, settings_ite, ite_self, settings_foldl']) <;>
    (repeat' (first
      | with_reducible rfl
      | (simp only [settings_fire, settings_mapTier, implies_true, settings_ite, ite_self, settings_foldl']; done)
      | (with_reducible refine (settings_foldl _ ?_ _ _).trans ?_)
      | (with_reducible refine (settings_foldl2 _ ?_ _ _).trans ?_)
      | (split <;> (try (rename_i h; first | (have h2 := congrArg Prod.snd h; simp only at h2; subst h2))))
      | (intro _)
      | (simp only [settings_fire, settings_mapTier, implies_true, settings_ite, ite_self, settings_foldl', *]; done)
      | (simp only [settings_fire, settings_mapTier, implies_true, settings_ite, ite_self, settings_foldl'])))
theorem settings_lineJob (s : State) (j : LineJob) : (State.lineJob s j).2.settings = s.settings := by
  unfold State.lineJob
  dsimp only
  split; · rfl
  split
  · rename_i h1; have h2 := congrArg (fun p => p.2.settings) h1; simp only [settings_readyPage, settings_dropMerge, settings_draw, settings_completeMerge,
    settings_bufferLine, settings_poqCheck] at h2; exact h2.symm
  rename_i u h1; have h2 := congrArg (fun p => p.2.settings) h1; simp only [settings_readyPage, settings_dropMerge, settings_draw, settings_completeMerge,
    settings_bufferLine, settings_poqCheck] at h2
  have h2 := h2.symm
  split; · exact h2
  rename_i t _ _ _ _
  have hr := settings_readyPage u j.ld.val t 0 mFw
  split
  · rename_i h3; rw [h3] at hr; exact hr.trans h2
  · rename_i h3; rw [h3] at hr; exact hr.trans h2
  · rename_i v h3; rw [h3] at hr
    have hr : v.settings = s.settings := Eq.trans hr h2
    have h4 : ∀ o : Option MergeEntry,
      (match o with | some x => (v.completeMerge x).dropMerge t.dpn (Fin.ofNat 64 (j.dpa / 64)).val | none => v : State).settings = s.settings := by
      intro o; split
      · rw [settings_dropMerge, settings_completeMerge, hr]
      · exact hr
    split
    · rw [settings_bufferLine]; exact h4 _
    · rw [settings_bufferLine, settings_draw]; exact h4 _
theorem settings_settleLines (a0 : _) : (State.settleLines a0).settings = a0.settings := by
  unfold State.settleLines
  (try simp only [settings_lineJob, settings_mapCmd, settings_respStd, implies_true, settings_ite, ite_self, settings_foldl']) <;>
    (repeat' (first
      | with_reducible rfl
      | (simp only [settings_lineJob, settings_mapCmd, settings_respStd, implies_true, settings_ite, ite_self, settings_foldl']; done)
      | (with_reducible refine (settings_foldl _ ?_ _ _).trans ?_)
      | (with_reducible refine (settings_foldl2 _ ?_ _ _).trans ?_)
      | (split <;> (try (rename_i h; first | (have h2 := congrArg Prod.snd h; simp only at h2; subst h2))))
      | (intro _)
      | (simp only [settings_lineJob, settings_mapCmd, settings_respStd, implies_true, settings_ite, ite_self, settings_foldl', *]; done)
      | (simp only [settings_lineJob, settings_mapCmd, settings_respStd, implies_true, settings_ite, ite_self, settings_foldl'])))
theorem settings_sanitizeLd (a0 a1 : _) : (State.sanitizeLd a0 a1).settings = a0.settings := by
  unfold State.sanitizeLd
  exact settings_foldl _ (fun _ _ => by (repeat' split) <;> simp only [settings_clearPage, implies_true]) _ _
theorem settings_sanitizeAll (a0 : _) : (State.sanitizeAll a0).settings = a0.settings := by
  unfold State.sanitizeAll
  simp only [settings_clearPage, settings_nextEpochKey, settings_wrapKeys, settings_zeroizeAll, implies_true, settings_ite, ite_self, settings_foldl']

/-! ### Machine/FmApi.lean -/

theorem settings_setMaps (a0 a1 : _) : (State.setMaps a0 a1).settings = a0.settings := by
  unfold State.setMaps
  (try simp only [settings_setMap, implies_true, settings_ite, ite_self, settings_foldl']) <;>
    (repeat' (first
      | with_reducible rfl
      | (simp only [settings_setMap, implies_true, settings_ite, ite_self, settings_foldl']; done)
      | (with_reducible refine (settings_foldl _ ?_ _ _).trans ?_)
      | (with_reducible refine (settings_foldl2 _ ?_ _ _).trans ?_)
      | (split <;> (try (rename_i h; first | (have h2 := congrArg Prod.snd h; simp only at h2; subst h2))))
      | (intro _)
      | (simp only [settings_setMap, implies_true, settings_ite, ite_self, settings_foldl', *]; done)
      | (simp only [settings_setMap, implies_true, settings_ite, ite_self, settings_foldl'])))
theorem settings_allocate (a0 a1 : _) : (State.allocate a0 a1).settings = a0.settings := by
  unfold State.allocate
  exact settings_foldl _ (fun _ _ => by (repeat' split) <;> simp only [settings_attach, settings_bind, settings_updFn, implies_true]) _ _
theorem settings_setOwner (a0 a1 a2 : _) : (State.setOwner a0 a1 a2).settings = a0.settings := by
  unfold State.setOwner
  (try simp only [settings_breakSpan, settings_formSpan, settings_putEntry, settings_updFrameRec, implies_true, settings_ite, ite_self, settings_foldl']) <;>
    (repeat' (first
      | with_reducible rfl
      | (simp only [settings_breakSpan, settings_formSpan, settings_putEntry, settings_updFrameRec, implies_true, settings_ite, ite_self, settings_foldl']; done)
      | (with_reducible refine (settings_foldl _ ?_ _ _).trans ?_)
      | (with_reducible refine (settings_foldl2 _ ?_ _ _).trans ?_)
      | (split <;> (try (rename_i h; first | (have h2 := congrArg Prod.snd h; simp only at h2; subst h2))))
      | (intro _)
      | (simp only [settings_breakSpan, settings_formSpan, settings_putEntry, settings_updFrameRec, implies_true, settings_ite, ite_self, settings_foldl', *]; done)
      | (simp only [settings_breakSpan, settings_formSpan, settings_putEntry, settings_updFrameRec, implies_true, settings_ite, ite_self, settings_foldl'])))
theorem settings_moveFrame (a0 a1 a2 : _) : (State.moveFrame a0 a1 a2).settings = a0.settings := by
  unfold State.moveFrame
  (try simp only [settings_breakSpan, settings_poisonLine, settings_putEntry, settings_setFrameRec, settings_writeLine, implies_true, settings_ite, ite_self,
    settings_foldl']) <;>
    (repeat' (first
      | with_reducible rfl
      | (simp only [settings_breakSpan, settings_poisonLine, settings_putEntry, settings_setFrameRec, settings_writeLine, implies_true, settings_ite, ite_self,
        settings_foldl']; done)
      | (with_reducible refine (settings_foldl _ ?_ _ _).trans ?_)
      | (with_reducible refine (settings_foldl2 _ ?_ _ _).trans ?_)
      | (split <;> (try (rename_i h; first | (have h2 := congrArg Prod.snd h; simp only at h2; subst h2))))
      | (intro _)
      | (simp only [settings_breakSpan, settings_poisonLine, settings_putEntry, settings_setFrameRec, settings_writeLine, implies_true, settings_ite, ite_self,
        settings_foldl', *]; done)
      | (simp only [settings_breakSpan, settings_poisonLine, settings_putEntry, settings_setFrameRec, settings_writeLine, implies_true, settings_ite, ite_self,
        settings_foldl'])))
theorem settings_recountFree (a0 : _) : (State.recountFree a0).settings = a0.settings := by
  unfold State.recountFree
  simp only [settings_mapTier, implies_true]
theorem settings_reconfigure (a0 a1 : _) : (State.reconfigure a0 a1).settings = a0.settings := by
  unfold State.reconfigure
  (try simp only [settings_abandon, settings_afterFree, settings_mapLast, settings_mapResume, settings_mapTier, settings_mapWelt, settings_moveFrame,
    settings_recountFree, implies_true, settings_ite, ite_self, settings_foldl']) <;>
    (repeat' (first
      | with_reducible rfl
      | (simp only [settings_abandon, settings_afterFree, settings_mapLast, settings_mapResume, settings_mapTier, settings_mapWelt, settings_moveFrame,
        settings_recountFree, implies_true, settings_ite, ite_self, settings_foldl']; done)
      | (with_reducible refine (settings_foldl _ ?_ _ _).trans ?_)
      | (with_reducible refine (settings_foldl2 _ ?_ _ _).trans ?_)
      | (split <;> (try (rename_i h; first | (have h2 := congrArg Prod.snd h; simp only at h2; subst h2))))
      | (intro _)
      | (simp only [settings_abandon, settings_afterFree, settings_mapLast, settings_mapResume, settings_mapTier, settings_mapWelt, settings_moveFrame,
        settings_recountFree, implies_true, settings_ite, ite_self, settings_foldl', *]; done)
      | (simp only [settings_abandon, settings_afterFree, settings_mapLast, settings_mapResume, settings_mapTier, settings_mapWelt, settings_moveFrame,
        settings_recountFree, implies_true, settings_ite, ite_self, settings_foldl'])))

/-! ### Machine/Worlds.lean -/

theorem settings_extendM (a0 a1 : _) : (State.extendM a0 a1).settings = a0.settings := by
  unfold State.extendM
  simp only [settings_mapWorld, implies_true]
theorem settings_endSecureCommands (a0 : _) : (State.endSecureCommands a0).settings = a0.settings := by
  unfold State.endSecureCommands
  simp only [settings_emit, settings_reply, settings_slots, settings_updSlot, implies_true, settings_ite, ite_self, settings_foldl']
theorem settings_failActivation (a0 : _) : (State.failActivation a0).settings = a0.settings := by
  unfold State.failActivation
  (try simp only [settings_mapWorld, settings_respStd, implies_true, settings_ite, ite_self, settings_foldl']) <;>
    (repeat' (first
      | with_reducible rfl
      | (simp only [settings_mapWorld, settings_respStd, implies_true, settings_ite, ite_self, settings_foldl']; done)
      | (with_reducible refine (settings_foldl _ ?_ _ _).trans ?_)
      | (with_reducible refine (settings_foldl2 _ ?_ _ _).trans ?_)
      | (split <;> (try (rename_i h; first | (have h2 := congrArg Prod.snd h; simp only at h2; subst h2))))
      | (intro _)
      | (simp only [settings_mapWorld, settings_respStd, implies_true, settings_ite, ite_self, settings_foldl', *]; done)
      | (simp only [settings_mapWorld, settings_respStd, implies_true, settings_ite, ite_self, settings_foldl'])))
theorem settings_secureBringup (a0 a1 a2 a3 : _) : (State.secureBringup a0 a1 a2 a3).settings = a0.settings := by
  unfold State.secureBringup
  (repeat' split) <;> simp only [settings_mapPower, settings_mapResume, settings_mapWorld, settings_secureDown, implies_true, settings_ite, ite_self]
theorem settings_secureRestarted (a0 a1 a2 a3 : _) : (State.secureRestarted a0 a1 a2 a3).settings = a0.settings := by
  unfold State.secureRestarted
  (try simp only [settings_supplyHeartbeat, settings_l2NormalOut, settings_endSecureCommands, settings_extendM, settings_failActivation, settings_mapWorld,
    settings_secureDown, implies_true, settings_ite, ite_self, settings_foldl']) <;>
    (repeat' (first
      | with_reducible rfl
      | (simp only [settings_supplyHeartbeat, settings_l2NormalOut, settings_endSecureCommands, settings_extendM, settings_failActivation, settings_mapWorld,
        settings_secureDown, implies_true, settings_ite, ite_self, settings_foldl']; done)
      | (with_reducible refine (settings_foldl _ ?_ _ _).trans ?_)
      | (with_reducible refine (settings_foldl2 _ ?_ _ _).trans ?_)
      | (split <;> (try (rename_i h; first | (have h2 := congrArg Prod.snd h; simp only at h2; subst h2))))
      | (intro _)
      | (simp only [settings_supplyHeartbeat, settings_l2NormalOut, settings_endSecureCommands, settings_extendM, settings_failActivation, settings_mapWorld,
        settings_secureDown, implies_true, settings_ite, ite_self, settings_foldl', *]; done)
      | (simp only [settings_supplyHeartbeat, settings_l2NormalOut, settings_endSecureCommands, settings_extendM, settings_failActivation, settings_mapWorld,
        settings_secureDown, implies_true, settings_ite, ite_self, settings_foldl'])))
theorem settings_endNormalCommands (a0 : _) : (State.endNormalCommands a0).settings = a0.settings := by
  unfold State.endNormalCommands
  (try simp only [settings_eyeletDone, settings_mapCmd, settings_reply, settings_respStd, settings_setCtx, settings_slots, settings_updChan, settings_updHeadOf,
    settings_updLaceMod, settings_updSlot, implies_true, settings_ite, ite_self, settings_foldl']) <;>
    (repeat' (first
      | with_reducible rfl
      | (simp only [settings_eyeletDone, settings_mapCmd, settings_reply, settings_respStd, settings_setCtx, settings_slots, settings_updChan, settings_updHeadOf,
        settings_updLaceMod, settings_updSlot, implies_true, settings_ite, ite_self, settings_foldl']; done)
      | (with_reducible refine (settings_foldl _ ?_ _ _).trans ?_)
      | (with_reducible refine (settings_foldl2 _ ?_ _ _).trans ?_)
      | (split <;> (try (rename_i h; first | (have h2 := congrArg Prod.snd h; simp only at h2; subst h2))))
      | (intro _)
      | (simp only [settings_eyeletDone, settings_mapCmd, settings_reply, settings_respStd, settings_setCtx, settings_slots, settings_updChan, settings_updHeadOf,
        settings_updLaceMod, settings_updSlot, implies_true, settings_ite, ite_self, settings_foldl', *]; done)
      | (simp only [settings_eyeletDone, settings_mapCmd, settings_reply, settings_respStd, settings_setCtx, settings_slots, settings_updChan, settings_updHeadOf,
        settings_updLaceMod, settings_updSlot, implies_true, settings_ite, ite_self, settings_foldl'])))
theorem settings_activated (a0 a1 : _) : (State.activated a0 a1).settings = a0.settings := by
  unfold State.activated
  (try simp only [settings_mapWorld, settings_respStd, implies_true, settings_ite, ite_self, settings_foldl']) <;>
    (repeat' (first
      | with_reducible rfl
      | (simp only [settings_mapWorld, settings_respStd, implies_true, settings_ite, ite_self, settings_foldl']; done)
      | (with_reducible refine (settings_foldl _ ?_ _ _).trans ?_)
      | (with_reducible refine (settings_foldl2 _ ?_ _ _).trans ?_)
      | (split <;> (try (rename_i h; first | (have h2 := congrArg Prod.snd h; simp only at h2; subst h2))))
      | (intro _)
      | (simp only [settings_mapWorld, settings_respStd, implies_true, settings_ite, ite_self, settings_foldl', *]; done)
      | (simp only [settings_mapWorld, settings_respStd, implies_true, settings_ite, ite_self, settings_foldl'])))
theorem settings_securityRecord (a0 a1 a2 a3 a4 a5 : _) : (securityRecord a0 a1 a2 a3 a4 a5).settings = a5.settings := by
  unfold securityRecord
  simp only [settings_insoleOther]

/-! ### Machine/Power.lean -/

theorem settings_slotPinsFall (a0 : _) : (State.slotPinsFall a0).settings = a0.settings := by
  unfold State.slotPinsFall
  exact settings_foldl _ (fun _ _ => settings_slotPin _ _ _) _ _
theorem settings_coldLoss (s : State) :
    s.coldLoss.settings = { State.reset.settings with ev8820 := s.ev8820, pending := s.pending, shadowPolicy := (State.resetShank s.ev8820).policy } := by
  have h : s.slotPinsFall.ev8820 = s.ev8820 ∧ s.slotPinsFall.pending = s.pending :=
    ⟨congrArg Settings.ev8820 (settings_slotPinsFall s), congrArg Settings.pending (settings_slotPinsFall s)⟩
  rw [← h.1, ← h.2]
  rfl
theorem settings_warmLoss (s : State) : s.warmLoss.settings = s.settings := by
  unfold State.warmLoss
  exact settings_foldl _ (fun _ _ => settings_clearPerf _ _) _ _
theorem settings_assignGpio (a0 a1 : _) : (State.assignGpio a0 a1).settings = a0.settings := by
  unfold State.assignGpio
  simp only [settings_mapPower, settings_fire, settings_insoleOther, implies_true, settings_ite, ite_self, settings_foldl']
theorem settings_readBoard (a0 a1 : _) : (State.readBoard a0 a1).settings = a0.settings := by
  unfold State.readBoard
  split <;> simp only [settings_assignGpio, settings_mapPower, settings_fire]
theorem settings_replan (a0 a1 a2 : _) : (State.replan a0 a1 a2).settings = a0.settings := by
  unfold State.replan
  (repeat' split) <;> simp only [settings_mapPower, settings_fire, implies_true, settings_ite, ite_self]
theorem settings_checkPopulation (a0 a1 : _) : (State.checkPopulation a0 a1).settings = a0.settings := by
  unfold State.checkPopulation
  exact settings_foldl _ (fun _ _ => by (repeat' split) <;> simp only [settings_mapDdr, settings_raise, implies_true]) _ _
theorem settings_fillChannel (a0 a1 a2 : _) : (State.fillChannel a0 a1 a2).settings = a0.settings := by
  unfold State.fillChannel
  (repeat' split) <;> simp only [settings_slotPin, settings_emit, settings_mapPower, settings_updChan, implies_true, settings_ite, ite_self]
theorem settings_treatRecord (a0 a1 a2 : _) : (State.treatRecord a0 a1 a2).settings = a0.settings := by
  unfold State.treatRecord
  (try simp only [settings_forgetUnit, settings_mapWelt, settings_setUnit, settings_unitWithdrawn, settings_updChan, implies_true, settings_ite, ite_self,
    settings_foldl']) <;>
    (repeat' (first
      | with_reducible rfl
      | (simp only [settings_forgetUnit, settings_mapWelt, settings_setUnit, settings_unitWithdrawn, settings_updChan, implies_true, settings_ite, ite_self,
        settings_foldl']; done)
      | (with_reducible refine (settings_foldl _ ?_ _ _).trans ?_)
      | (with_reducible refine (settings_foldl2 _ ?_ _ _).trans ?_)
      | (split <;> (try (rename_i h; first | (have h2 := congrArg Prod.snd h; simp only at h2; subst h2))))
      | (intro _)
      | (simp only [settings_forgetUnit, settings_mapWelt, settings_setUnit, settings_unitWithdrawn, settings_updChan, implies_true, settings_ite, ite_self,
        settings_foldl', *]; done)
      | (simp only [settings_forgetUnit, settings_mapWelt, settings_setUnit, settings_unitWithdrawn, settings_updChan, implies_true, settings_ite, ite_self,
        settings_foldl'])))
theorem settings_selfTest (a0 a1 : _) : (State.selfTest a0 a1).settings = a0.settings := by
  unfold State.selfTest
  simp only [settings_mapWorld, settings_secureDown, settings_setCore, settings_raise, implies_true, settings_ite, ite_self, settings_foldl']
theorem settings_firstConfiguration (a0 : _) : (State.firstConfiguration a0).settings = a0.settings := by
  unfold State.firstConfiguration
  simp only [settings_mapLast, settings_mapTier, settings_mapWelt, implies_true]
theorem settings_trainPorts (a0 : _) : (State.trainPorts a0).settings = a0.settings := by
  unfold State.trainPorts
  exact settings_foldl _ (fun _ _ => by (repeat' split) <;> simp only [settings_emit, implies_true]) _ _
theorem settings_bringUp (a0 a1 a2 : _) : (State.bringUp a0 a1 a2).settings = a0.settings := by
  unfold State.bringUp
  (try simp only [settings_mapCodec, settings_beginTraining, settings_checkPopulation, settings_fillChannel, settings_firstConfiguration, settings_mapFault,
    settings_mapPower, settings_mapResume, settings_mapShank, settings_readBoard, settings_recomputeUsable, settings_replan, settings_selfTest, settings_trainPorts,
    settings_treatRecord, settings_updLaceMod, settings_insoleOther, implies_true, settings_ite, ite_self, settings_foldl']) <;>
    (repeat' (first
      | with_reducible rfl
      | (simp only [settings_mapCodec, settings_beginTraining, settings_checkPopulation, settings_fillChannel, settings_firstConfiguration, settings_mapFault,
        settings_mapPower, settings_mapResume, settings_mapShank, settings_readBoard, settings_recomputeUsable, settings_replan, settings_selfTest,
        settings_trainPorts, settings_treatRecord, settings_updLaceMod, settings_insoleOther, implies_true, settings_ite, ite_self, settings_foldl']; done)
      | (with_reducible refine (settings_foldl _ ?_ _ _).trans ?_)
      | (with_reducible refine (settings_foldl2 _ ?_ _ _).trans ?_)
      | (split <;> (try (rename_i h; first | (have h2 := congrArg Prod.snd h; simp only at h2; subst h2))))
      | (intro _)
      | (simp only [settings_mapCodec, settings_beginTraining, settings_checkPopulation, settings_fillChannel, settings_firstConfiguration, settings_mapFault,
        settings_mapPower, settings_mapResume, settings_mapShank, settings_readBoard, settings_recomputeUsable, settings_replan, settings_selfTest,
        settings_trainPorts, settings_treatRecord, settings_updLaceMod, settings_insoleOther, implies_true, settings_ite, ite_self, settings_foldl', *]; done)
      | (simp only [settings_mapCodec, settings_beginTraining, settings_checkPopulation, settings_fillChannel, settings_firstConfiguration, settings_mapFault,
        settings_mapPower, settings_mapResume, settings_mapShank, settings_readBoard, settings_recomputeUsable, settings_replan, settings_selfTest,
        settings_trainPorts, settings_treatRecord, settings_updLaceMod, settings_insoleOther, implies_true, settings_ite, ite_self, settings_foldl'])))

/-! ### Machine/Tap.lean -/

theorem settings_selectTap (a0 a1 a2 : _) : (State.selectTap a0 a1 a2).settings = a0.settings := by
  unfold State.selectTap
  simp only [settings_emit, settings_mapWorld, implies_true]
theorem settings_boundaryTap (s : State) (c : Byte) (f : State → State) (h : ∀ u, (f u).settings = u.settings) : (State.boundaryTap s c f).settings = s.settings := by
  unfold State.boundaryTap
  split
  · rw [h]; simp only [settings_selectTap, settings_mapWorld, implies_true]
  · simp only [settings_mapWorld, settings_selectTap]

end Sys2Proof.Machine
end

