-- ==== Sys2Proof/Laws/State.lean ====
section
/-! SUPPORT. One lemma for each field under each update of State: a claim that reads a field never unfolds a record update. -/

namespace Sys2Proof.Machine

variable (s : State)

/-! State.mapPath -/
@[simp] theorem State.mapPath_ev8820 (f : PathSt → PathSt) : (s.mapPath f).ev8820 = s.ev8820 := rfl
@[simp] theorem State.mapPath_path (f : PathSt → PathSt) : (s.mapPath f).path = f s.path := rfl
@[simp] theorem State.mapPath_last (f : PathSt → PathSt) : (s.mapPath f).last = s.last := rfl
@[simp] theorem State.mapPath_tier (f : PathSt → PathSt) : (s.mapPath f).tier = s.tier := rfl
@[simp] theorem State.mapPath_codec (f : PathSt → PathSt) : (s.mapPath f).codec = s.codec := rfl
@[simp] theorem State.mapPath_keys (f : PathSt → PathSt) : (s.mapPath f).keys = s.keys := rfl
@[simp] theorem State.mapPath_dram (f : PathSt → PathSt) : (s.mapPath f).dram = s.dram := rfl
@[simp] theorem State.mapPath_welt (f : PathSt → PathSt) : (s.mapPath f).welt = s.welt := rfl
@[simp] theorem State.mapPath_ddr (f : PathSt → PathSt) : (s.mapPath f).ddr = s.ddr := rfl
@[simp] theorem State.mapPath_lace (f : PathSt → PathSt) : (s.mapPath f).lace = s.lace := rfl
@[simp] theorem State.mapPath_shank (f : PathSt → PathSt) : (s.mapPath f).shank = s.shank := rfl
@[simp] theorem State.mapPath_image (f : PathSt → PathSt) : (s.mapPath f).image = s.image := rfl
@[simp] theorem State.mapPath_resume (f : PathSt → PathSt) : (s.mapPath f).resume = s.resume := rfl
@[simp] theorem State.mapPath_reg (f : PathSt → PathSt) : (s.mapPath f).reg = s.reg := rfl
@[simp] theorem State.mapPath_port (f : PathSt → PathSt) : (s.mapPath f).port = s.port := rfl
@[simp] theorem State.mapPath_poq (f : PathSt → PathSt) : (s.mapPath f).poq = s.poq := rfl
@[simp] theorem State.mapPath_cmd (f : PathSt → PathSt) : (s.mapPath f).cmd = s.cmd := rfl
@[simp] theorem State.mapPath_world (f : PathSt → PathSt) : (s.mapPath f).world = s.world := rfl
@[simp] theorem State.mapPath_fault (f : PathSt → PathSt) : (s.mapPath f).fault = s.fault := rfl
@[simp] theorem State.mapPath_perf (f : PathSt → PathSt) : (s.mapPath f).perf = s.perf := rfl
@[simp] theorem State.mapPath_power (f : PathSt → PathSt) : (s.mapPath f).power = s.power := rfl
@[simp] theorem State.mapPath_time (f : PathSt → PathSt) : (s.mapPath f).time = s.time := rfl
@[simp] theorem State.mapPath_free (f : PathSt → PathSt) : (s.mapPath f).free = s.free := rfl
@[simp] theorem State.mapPath_out (f : PathSt → PathSt) : (s.mapPath f).out = s.out := rfl
@[simp] theorem State.mapPath_pending (f : PathSt → PathSt) : (s.mapPath f).pending = s.pending := rfl

/-! State.mapLast -/
@[simp] theorem State.mapLast_ev8820 (f : Last → Last) : (s.mapLast f).ev8820 = s.ev8820 := rfl
@[simp] theorem State.mapLast_path (f : Last → Last) : (s.mapLast f).path = s.path := rfl
@[simp] theorem State.mapLast_last (f : Last → Last) : (s.mapLast f).last = f s.last := rfl
@[simp] theorem State.mapLast_tier (f : Last → Last) : (s.mapLast f).tier = s.tier := rfl
@[simp] theorem State.mapLast_codec (f : Last → Last) : (s.mapLast f).codec = s.codec := rfl
@[simp] theorem State.mapLast_keys (f : Last → Last) : (s.mapLast f).keys = s.keys := rfl
@[simp] theorem State.mapLast_dram (f : Last → Last) : (s.mapLast f).dram = s.dram := rfl
@[simp] theorem State.mapLast_welt (f : Last → Last) : (s.mapLast f).welt = s.welt := rfl
@[simp] theorem State.mapLast_ddr (f : Last → Last) : (s.mapLast f).ddr = s.ddr := rfl
@[simp] theorem State.mapLast_lace (f : Last → Last) : (s.mapLast f).lace = s.lace := rfl
@[simp] theorem State.mapLast_shank (f : Last → Last) : (s.mapLast f).shank = s.shank := rfl
@[simp] theorem State.mapLast_image (f : Last → Last) : (s.mapLast f).image = s.image := rfl
@[simp] theorem State.mapLast_resume (f : Last → Last) : (s.mapLast f).resume = s.resume := rfl
@[simp] theorem State.mapLast_reg (f : Last → Last) : (s.mapLast f).reg = s.reg := rfl
@[simp] theorem State.mapLast_port (f : Last → Last) : (s.mapLast f).port = s.port := rfl
@[simp] theorem State.mapLast_poq (f : Last → Last) : (s.mapLast f).poq = s.poq := rfl
@[simp] theorem State.mapLast_cmd (f : Last → Last) : (s.mapLast f).cmd = s.cmd := rfl
@[simp] theorem State.mapLast_world (f : Last → Last) : (s.mapLast f).world = s.world := rfl
@[simp] theorem State.mapLast_fault (f : Last → Last) : (s.mapLast f).fault = s.fault := rfl
@[simp] theorem State.mapLast_perf (f : Last → Last) : (s.mapLast f).perf = s.perf := rfl
@[simp] theorem State.mapLast_power (f : Last → Last) : (s.mapLast f).power = s.power := rfl
@[simp] theorem State.mapLast_time (f : Last → Last) : (s.mapLast f).time = s.time := rfl
@[simp] theorem State.mapLast_free (f : Last → Last) : (s.mapLast f).free = s.free := rfl
@[simp] theorem State.mapLast_out (f : Last → Last) : (s.mapLast f).out = s.out := rfl
@[simp] theorem State.mapLast_pending (f : Last → Last) : (s.mapLast f).pending = s.pending := rfl

/-! State.mapTier -/
@[simp] theorem State.mapTier_ev8820 (f : Tier → Tier) : (s.mapTier f).ev8820 = s.ev8820 := rfl
@[simp] theorem State.mapTier_path (f : Tier → Tier) : (s.mapTier f).path = s.path := rfl
@[simp] theorem State.mapTier_last (f : Tier → Tier) : (s.mapTier f).last = s.last := rfl
@[simp] theorem State.mapTier_tier (f : Tier → Tier) : (s.mapTier f).tier = f s.tier := rfl
@[simp] theorem State.mapTier_codec (f : Tier → Tier) : (s.mapTier f).codec = s.codec := rfl
@[simp] theorem State.mapTier_keys (f : Tier → Tier) : (s.mapTier f).keys = s.keys := rfl
@[simp] theorem State.mapTier_dram (f : Tier → Tier) : (s.mapTier f).dram = s.dram := rfl
@[simp] theorem State.mapTier_welt (f : Tier → Tier) : (s.mapTier f).welt = s.welt := rfl
@[simp] theorem State.mapTier_ddr (f : Tier → Tier) : (s.mapTier f).ddr = s.ddr := rfl
@[simp] theorem State.mapTier_lace (f : Tier → Tier) : (s.mapTier f).lace = s.lace := rfl
@[simp] theorem State.mapTier_shank (f : Tier → Tier) : (s.mapTier f).shank = s.shank := rfl
@[simp] theorem State.mapTier_image (f : Tier → Tier) : (s.mapTier f).image = s.image := rfl
@[simp] theorem State.mapTier_resume (f : Tier → Tier) : (s.mapTier f).resume = s.resume := rfl
@[simp] theorem State.mapTier_reg (f : Tier → Tier) : (s.mapTier f).reg = s.reg := rfl
@[simp] theorem State.mapTier_port (f : Tier → Tier) : (s.mapTier f).port = s.port := rfl
@[simp] theorem State.mapTier_poq (f : Tier → Tier) : (s.mapTier f).poq = s.poq := rfl
@[simp] theorem State.mapTier_cmd (f : Tier → Tier) : (s.mapTier f).cmd = s.cmd := rfl
@[simp] theorem State.mapTier_world (f : Tier → Tier) : (s.mapTier f).world = s.world := rfl
@[simp] theorem State.mapTier_fault (f : Tier → Tier) : (s.mapTier f).fault = s.fault := rfl
@[simp] theorem State.mapTier_perf (f : Tier → Tier) : (s.mapTier f).perf = s.perf := rfl
@[simp] theorem State.mapTier_power (f : Tier → Tier) : (s.mapTier f).power = s.power := rfl
@[simp] theorem State.mapTier_time (f : Tier → Tier) : (s.mapTier f).time = s.time := rfl
@[simp] theorem State.mapTier_free (f : Tier → Tier) : (s.mapTier f).free = s.free := rfl
@[simp] theorem State.mapTier_out (f : Tier → Tier) : (s.mapTier f).out = s.out := rfl
@[simp] theorem State.mapTier_pending (f : Tier → Tier) : (s.mapTier f).pending = s.pending := rfl

/-! State.mapCodec -/
@[simp] theorem State.mapCodec_ev8820 (f : Codec → Codec) : (s.mapCodec f).ev8820 = s.ev8820 := rfl
@[simp] theorem State.mapCodec_path (f : Codec → Codec) : (s.mapCodec f).path = s.path := rfl
@[simp] theorem State.mapCodec_last (f : Codec → Codec) : (s.mapCodec f).last = s.last := rfl
@[simp] theorem State.mapCodec_tier (f : Codec → Codec) : (s.mapCodec f).tier = s.tier := rfl
@[simp] theorem State.mapCodec_codec (f : Codec → Codec) : (s.mapCodec f).codec = f s.codec := rfl
@[simp] theorem State.mapCodec_keys (f : Codec → Codec) : (s.mapCodec f).keys = s.keys := rfl
@[simp] theorem State.mapCodec_dram (f : Codec → Codec) : (s.mapCodec f).dram = s.dram := rfl
@[simp] theorem State.mapCodec_welt (f : Codec → Codec) : (s.mapCodec f).welt = s.welt := rfl
@[simp] theorem State.mapCodec_ddr (f : Codec → Codec) : (s.mapCodec f).ddr = s.ddr := rfl
@[simp] theorem State.mapCodec_lace (f : Codec → Codec) : (s.mapCodec f).lace = s.lace := rfl
@[simp] theorem State.mapCodec_shank (f : Codec → Codec) : (s.mapCodec f).shank = s.shank := rfl
@[simp] theorem State.mapCodec_image (f : Codec → Codec) : (s.mapCodec f).image = s.image := rfl
@[simp] theorem State.mapCodec_resume (f : Codec → Codec) : (s.mapCodec f).resume = s.resume := rfl
@[simp] theorem State.mapCodec_reg (f : Codec → Codec) : (s.mapCodec f).reg = s.reg := rfl
@[simp] theorem State.mapCodec_port (f : Codec → Codec) : (s.mapCodec f).port = s.port := rfl
@[simp] theorem State.mapCodec_poq (f : Codec → Codec) : (s.mapCodec f).poq = s.poq := rfl
@[simp] theorem State.mapCodec_cmd (f : Codec → Codec) : (s.mapCodec f).cmd = s.cmd := rfl
@[simp] theorem State.mapCodec_world (f : Codec → Codec) : (s.mapCodec f).world = s.world := rfl
@[simp] theorem State.mapCodec_fault (f : Codec → Codec) : (s.mapCodec f).fault = s.fault := rfl
@[simp] theorem State.mapCodec_perf (f : Codec → Codec) : (s.mapCodec f).perf = s.perf := rfl
@[simp] theorem State.mapCodec_power (f : Codec → Codec) : (s.mapCodec f).power = s.power := rfl
@[simp] theorem State.mapCodec_time (f : Codec → Codec) : (s.mapCodec f).time = s.time := rfl
@[simp] theorem State.mapCodec_free (f : Codec → Codec) : (s.mapCodec f).free = s.free := rfl
@[simp] theorem State.mapCodec_out (f : Codec → Codec) : (s.mapCodec f).out = s.out := rfl
@[simp] theorem State.mapCodec_pending (f : Codec → Codec) : (s.mapCodec f).pending = s.pending := rfl

/-! State.mapKeys -/
@[simp] theorem State.mapKeys_ev8820 (f : Keys → Keys) : (s.mapKeys f).ev8820 = s.ev8820 := rfl
@[simp] theorem State.mapKeys_path (f : Keys → Keys) : (s.mapKeys f).path = s.path := rfl
@[simp] theorem State.mapKeys_last (f : Keys → Keys) : (s.mapKeys f).last = s.last := rfl
@[simp] theorem State.mapKeys_tier (f : Keys → Keys) : (s.mapKeys f).tier = s.tier := rfl
@[simp] theorem State.mapKeys_codec (f : Keys → Keys) : (s.mapKeys f).codec = s.codec := rfl
@[simp] theorem State.mapKeys_keys (f : Keys → Keys) : (s.mapKeys f).keys = f s.keys := rfl
@[simp] theorem State.mapKeys_dram (f : Keys → Keys) : (s.mapKeys f).dram = s.dram := rfl
@[simp] theorem State.mapKeys_welt (f : Keys → Keys) : (s.mapKeys f).welt = s.welt := rfl
@[simp] theorem State.mapKeys_ddr (f : Keys → Keys) : (s.mapKeys f).ddr = s.ddr := rfl
@[simp] theorem State.mapKeys_lace (f : Keys → Keys) : (s.mapKeys f).lace = s.lace := rfl
@[simp] theorem State.mapKeys_shank (f : Keys → Keys) : (s.mapKeys f).shank = s.shank := rfl
@[simp] theorem State.mapKeys_image (f : Keys → Keys) : (s.mapKeys f).image = s.image := rfl
@[simp] theorem State.mapKeys_resume (f : Keys → Keys) : (s.mapKeys f).resume = s.resume := rfl
@[simp] theorem State.mapKeys_reg (f : Keys → Keys) : (s.mapKeys f).reg = s.reg := rfl
@[simp] theorem State.mapKeys_port (f : Keys → Keys) : (s.mapKeys f).port = s.port := rfl
@[simp] theorem State.mapKeys_poq (f : Keys → Keys) : (s.mapKeys f).poq = s.poq := rfl
@[simp] theorem State.mapKeys_cmd (f : Keys → Keys) : (s.mapKeys f).cmd = s.cmd := rfl
@[simp] theorem State.mapKeys_world (f : Keys → Keys) : (s.mapKeys f).world = s.world := rfl
@[simp] theorem State.mapKeys_fault (f : Keys → Keys) : (s.mapKeys f).fault = s.fault := rfl
@[simp] theorem State.mapKeys_perf (f : Keys → Keys) : (s.mapKeys f).perf = s.perf := rfl
@[simp] theorem State.mapKeys_power (f : Keys → Keys) : (s.mapKeys f).power = s.power := rfl
@[simp] theorem State.mapKeys_time (f : Keys → Keys) : (s.mapKeys f).time = s.time := rfl
@[simp] theorem State.mapKeys_free (f : Keys → Keys) : (s.mapKeys f).free = s.free := rfl
@[simp] theorem State.mapKeys_out (f : Keys → Keys) : (s.mapKeys f).out = s.out := rfl
@[simp] theorem State.mapKeys_pending (f : Keys → Keys) : (s.mapKeys f).pending = s.pending := rfl

/-! State.mapDram -/
@[simp] theorem State.mapDram_ev8820 (f : Dram → Dram) : (s.mapDram f).ev8820 = s.ev8820 := rfl
@[simp] theorem State.mapDram_path (f : Dram → Dram) : (s.mapDram f).path = s.path := rfl
@[simp] theorem State.mapDram_last (f : Dram → Dram) : (s.mapDram f).last = s.last := rfl
@[simp] theorem State.mapDram_tier (f : Dram → Dram) : (s.mapDram f).tier = s.tier := rfl
@[simp] theorem State.mapDram_codec (f : Dram → Dram) : (s.mapDram f).codec = s.codec := rfl
@[simp] theorem State.mapDram_keys (f : Dram → Dram) : (s.mapDram f).keys = s.keys := rfl
@[simp] theorem State.mapDram_dram (f : Dram → Dram) : (s.mapDram f).dram = f s.dram := rfl
@[simp] theorem State.mapDram_welt (f : Dram → Dram) : (s.mapDram f).welt = s.welt := rfl
@[simp] theorem State.mapDram_ddr (f : Dram → Dram) : (s.mapDram f).ddr = s.ddr := rfl
@[simp] theorem State.mapDram_lace (f : Dram → Dram) : (s.mapDram f).lace = s.lace := rfl
@[simp] theorem State.mapDram_shank (f : Dram → Dram) : (s.mapDram f).shank = s.shank := rfl
@[simp] theorem State.mapDram_image (f : Dram → Dram) : (s.mapDram f).image = s.image := rfl
@[simp] theorem State.mapDram_resume (f : Dram → Dram) : (s.mapDram f).resume = s.resume := rfl
@[simp] theorem State.mapDram_reg (f : Dram → Dram) : (s.mapDram f).reg = s.reg := rfl
@[simp] theorem State.mapDram_port (f : Dram → Dram) : (s.mapDram f).port = s.port := rfl
@[simp] theorem State.mapDram_poq (f : Dram → Dram) : (s.mapDram f).poq = s.poq := rfl
@[simp] theorem State.mapDram_cmd (f : Dram → Dram) : (s.mapDram f).cmd = s.cmd := rfl
@[simp] theorem State.mapDram_world (f : Dram → Dram) : (s.mapDram f).world = s.world := rfl
@[simp] theorem State.mapDram_fault (f : Dram → Dram) : (s.mapDram f).fault = s.fault := rfl
@[simp] theorem State.mapDram_perf (f : Dram → Dram) : (s.mapDram f).perf = s.perf := rfl
@[simp] theorem State.mapDram_power (f : Dram → Dram) : (s.mapDram f).power = s.power := rfl
@[simp] theorem State.mapDram_time (f : Dram → Dram) : (s.mapDram f).time = s.time := rfl
@[simp] theorem State.mapDram_free (f : Dram → Dram) : (s.mapDram f).free = s.free := rfl
@[simp] theorem State.mapDram_out (f : Dram → Dram) : (s.mapDram f).out = s.out := rfl
@[simp] theorem State.mapDram_pending (f : Dram → Dram) : (s.mapDram f).pending = s.pending := rfl

/-! State.mapWelt -/
@[simp] theorem State.mapWelt_ev8820 (f : Welt → Welt) : (s.mapWelt f).ev8820 = s.ev8820 := rfl
@[simp] theorem State.mapWelt_path (f : Welt → Welt) : (s.mapWelt f).path = s.path := rfl
@[simp] theorem State.mapWelt_last (f : Welt → Welt) : (s.mapWelt f).last = s.last := rfl
@[simp] theorem State.mapWelt_tier (f : Welt → Welt) : (s.mapWelt f).tier = s.tier := rfl
@[simp] theorem State.mapWelt_codec (f : Welt → Welt) : (s.mapWelt f).codec = s.codec := rfl
@[simp] theorem State.mapWelt_keys (f : Welt → Welt) : (s.mapWelt f).keys = s.keys := rfl
@[simp] theorem State.mapWelt_dram (f : Welt → Welt) : (s.mapWelt f).dram = s.dram := rfl
@[simp] theorem State.mapWelt_welt (f : Welt → Welt) : (s.mapWelt f).welt = f s.welt := rfl
@[simp] theorem State.mapWelt_ddr (f : Welt → Welt) : (s.mapWelt f).ddr = s.ddr := rfl
@[simp] theorem State.mapWelt_lace (f : Welt → Welt) : (s.mapWelt f).lace = s.lace := rfl
@[simp] theorem State.mapWelt_shank (f : Welt → Welt) : (s.mapWelt f).shank = s.shank := rfl
@[simp] theorem State.mapWelt_image (f : Welt → Welt) : (s.mapWelt f).image = s.image := rfl
@[simp] theorem State.mapWelt_resume (f : Welt → Welt) : (s.mapWelt f).resume = s.resume := rfl
@[simp] theorem State.mapWelt_reg (f : Welt → Welt) : (s.mapWelt f).reg = s.reg := rfl
@[simp] theorem State.mapWelt_port (f : Welt → Welt) : (s.mapWelt f).port = s.port := rfl
@[simp] theorem State.mapWelt_poq (f : Welt → Welt) : (s.mapWelt f).poq = s.poq := rfl
@[simp] theorem State.mapWelt_cmd (f : Welt → Welt) : (s.mapWelt f).cmd = s.cmd := rfl
@[simp] theorem State.mapWelt_world (f : Welt → Welt) : (s.mapWelt f).world = s.world := rfl
@[simp] theorem State.mapWelt_fault (f : Welt → Welt) : (s.mapWelt f).fault = s.fault := rfl
@[simp] theorem State.mapWelt_perf (f : Welt → Welt) : (s.mapWelt f).perf = s.perf := rfl
@[simp] theorem State.mapWelt_power (f : Welt → Welt) : (s.mapWelt f).power = s.power := rfl
@[simp] theorem State.mapWelt_time (f : Welt → Welt) : (s.mapWelt f).time = s.time := rfl
@[simp] theorem State.mapWelt_free (f : Welt → Welt) : (s.mapWelt f).free = s.free := rfl
@[simp] theorem State.mapWelt_out (f : Welt → Welt) : (s.mapWelt f).out = s.out := rfl
@[simp] theorem State.mapWelt_pending (f : Welt → Welt) : (s.mapWelt f).pending = s.pending := rfl

/-! State.mapDdr -/
@[simp] theorem State.mapDdr_ev8820 (f : Ddr → Ddr) : (s.mapDdr f).ev8820 = s.ev8820 := rfl
@[simp] theorem State.mapDdr_path (f : Ddr → Ddr) : (s.mapDdr f).path = s.path := rfl
@[simp] theorem State.mapDdr_last (f : Ddr → Ddr) : (s.mapDdr f).last = s.last := rfl
@[simp] theorem State.mapDdr_tier (f : Ddr → Ddr) : (s.mapDdr f).tier = s.tier := rfl
@[simp] theorem State.mapDdr_codec (f : Ddr → Ddr) : (s.mapDdr f).codec = s.codec := rfl
@[simp] theorem State.mapDdr_keys (f : Ddr → Ddr) : (s.mapDdr f).keys = s.keys := rfl
@[simp] theorem State.mapDdr_dram (f : Ddr → Ddr) : (s.mapDdr f).dram = s.dram := rfl
@[simp] theorem State.mapDdr_welt (f : Ddr → Ddr) : (s.mapDdr f).welt = s.welt := rfl
@[simp] theorem State.mapDdr_ddr (f : Ddr → Ddr) : (s.mapDdr f).ddr = f s.ddr := rfl
@[simp] theorem State.mapDdr_lace (f : Ddr → Ddr) : (s.mapDdr f).lace = s.lace := rfl
@[simp] theorem State.mapDdr_shank (f : Ddr → Ddr) : (s.mapDdr f).shank = s.shank := rfl
@[simp] theorem State.mapDdr_image (f : Ddr → Ddr) : (s.mapDdr f).image = s.image := rfl
@[simp] theorem State.mapDdr_resume (f : Ddr → Ddr) : (s.mapDdr f).resume = s.resume := rfl
@[simp] theorem State.mapDdr_reg (f : Ddr → Ddr) : (s.mapDdr f).reg = s.reg := rfl
@[simp] theorem State.mapDdr_port (f : Ddr → Ddr) : (s.mapDdr f).port = s.port := rfl
@[simp] theorem State.mapDdr_poq (f : Ddr → Ddr) : (s.mapDdr f).poq = s.poq := rfl
@[simp] theorem State.mapDdr_cmd (f : Ddr → Ddr) : (s.mapDdr f).cmd = s.cmd := rfl
@[simp] theorem State.mapDdr_world (f : Ddr → Ddr) : (s.mapDdr f).world = s.world := rfl
@[simp] theorem State.mapDdr_fault (f : Ddr → Ddr) : (s.mapDdr f).fault = s.fault := rfl
@[simp] theorem State.mapDdr_perf (f : Ddr → Ddr) : (s.mapDdr f).perf = s.perf := rfl
@[simp] theorem State.mapDdr_power (f : Ddr → Ddr) : (s.mapDdr f).power = s.power := rfl
@[simp] theorem State.mapDdr_time (f : Ddr → Ddr) : (s.mapDdr f).time = s.time := rfl
@[simp] theorem State.mapDdr_free (f : Ddr → Ddr) : (s.mapDdr f).free = s.free := rfl
@[simp] theorem State.mapDdr_out (f : Ddr → Ddr) : (s.mapDdr f).out = s.out := rfl
@[simp] theorem State.mapDdr_pending (f : Ddr → Ddr) : (s.mapDdr f).pending = s.pending := rfl

/-! State.mapLace -/
@[simp] theorem State.mapLace_ev8820 (f : Lace → Lace) : (s.mapLace f).ev8820 = s.ev8820 := rfl
@[simp] theorem State.mapLace_path (f : Lace → Lace) : (s.mapLace f).path = s.path := rfl
@[simp] theorem State.mapLace_last (f : Lace → Lace) : (s.mapLace f).last = s.last := rfl
@[simp] theorem State.mapLace_tier (f : Lace → Lace) : (s.mapLace f).tier = s.tier := rfl
@[simp] theorem State.mapLace_codec (f : Lace → Lace) : (s.mapLace f).codec = s.codec := rfl
@[simp] theorem State.mapLace_keys (f : Lace → Lace) : (s.mapLace f).keys = s.keys := rfl
@[simp] theorem State.mapLace_dram (f : Lace → Lace) : (s.mapLace f).dram = s.dram := rfl
@[simp] theorem State.mapLace_welt (f : Lace → Lace) : (s.mapLace f).welt = s.welt := rfl
@[simp] theorem State.mapLace_ddr (f : Lace → Lace) : (s.mapLace f).ddr = s.ddr := rfl
@[simp] theorem State.mapLace_lace (f : Lace → Lace) : (s.mapLace f).lace = f s.lace := rfl
@[simp] theorem State.mapLace_shank (f : Lace → Lace) : (s.mapLace f).shank = s.shank := rfl
@[simp] theorem State.mapLace_image (f : Lace → Lace) : (s.mapLace f).image = s.image := rfl
@[simp] theorem State.mapLace_resume (f : Lace → Lace) : (s.mapLace f).resume = s.resume := rfl
@[simp] theorem State.mapLace_reg (f : Lace → Lace) : (s.mapLace f).reg = s.reg := rfl
@[simp] theorem State.mapLace_port (f : Lace → Lace) : (s.mapLace f).port = s.port := rfl
@[simp] theorem State.mapLace_poq (f : Lace → Lace) : (s.mapLace f).poq = s.poq := rfl
@[simp] theorem State.mapLace_cmd (f : Lace → Lace) : (s.mapLace f).cmd = s.cmd := rfl
@[simp] theorem State.mapLace_world (f : Lace → Lace) : (s.mapLace f).world = s.world := rfl
@[simp] theorem State.mapLace_fault (f : Lace → Lace) : (s.mapLace f).fault = s.fault := rfl
@[simp] theorem State.mapLace_perf (f : Lace → Lace) : (s.mapLace f).perf = s.perf := rfl
@[simp] theorem State.mapLace_power (f : Lace → Lace) : (s.mapLace f).power = s.power := rfl
@[simp] theorem State.mapLace_time (f : Lace → Lace) : (s.mapLace f).time = s.time := rfl
@[simp] theorem State.mapLace_free (f : Lace → Lace) : (s.mapLace f).free = s.free := rfl
@[simp] theorem State.mapLace_out (f : Lace → Lace) : (s.mapLace f).out = s.out := rfl
@[simp] theorem State.mapLace_pending (f : Lace → Lace) : (s.mapLace f).pending = s.pending := rfl

/-! State.mapShank -/
@[simp] theorem State.mapShank_ev8820 (f : Shank → Shank) : (s.mapShank f).ev8820 = s.ev8820 := rfl
@[simp] theorem State.mapShank_path (f : Shank → Shank) : (s.mapShank f).path = s.path := rfl
@[simp] theorem State.mapShank_last (f : Shank → Shank) : (s.mapShank f).last = s.last := rfl
@[simp] theorem State.mapShank_tier (f : Shank → Shank) : (s.mapShank f).tier = s.tier := rfl
@[simp] theorem State.mapShank_codec (f : Shank → Shank) : (s.mapShank f).codec = s.codec := rfl
@[simp] theorem State.mapShank_keys (f : Shank → Shank) : (s.mapShank f).keys = s.keys := rfl
@[simp] theorem State.mapShank_dram (f : Shank → Shank) : (s.mapShank f).dram = s.dram := rfl
@[simp] theorem State.mapShank_welt (f : Shank → Shank) : (s.mapShank f).welt = s.welt := rfl
@[simp] theorem State.mapShank_ddr (f : Shank → Shank) : (s.mapShank f).ddr = s.ddr := rfl
@[simp] theorem State.mapShank_lace (f : Shank → Shank) : (s.mapShank f).lace = s.lace := rfl
@[simp] theorem State.mapShank_shank (f : Shank → Shank) : (s.mapShank f).shank = f s.shank := rfl
@[simp] theorem State.mapShank_image (f : Shank → Shank) : (s.mapShank f).image = s.image := rfl
@[simp] theorem State.mapShank_resume (f : Shank → Shank) : (s.mapShank f).resume = s.resume := rfl
@[simp] theorem State.mapShank_reg (f : Shank → Shank) : (s.mapShank f).reg = s.reg := rfl
@[simp] theorem State.mapShank_port (f : Shank → Shank) : (s.mapShank f).port = s.port := rfl
@[simp] theorem State.mapShank_poq (f : Shank → Shank) : (s.mapShank f).poq = s.poq := rfl
@[simp] theorem State.mapShank_cmd (f : Shank → Shank) : (s.mapShank f).cmd = s.cmd := rfl
@[simp] theorem State.mapShank_world (f : Shank → Shank) : (s.mapShank f).world = s.world := rfl
@[simp] theorem State.mapShank_fault (f : Shank → Shank) : (s.mapShank f).fault = s.fault := rfl
@[simp] theorem State.mapShank_perf (f : Shank → Shank) : (s.mapShank f).perf = s.perf := rfl
@[simp] theorem State.mapShank_power (f : Shank → Shank) : (s.mapShank f).power = s.power := rfl
@[simp] theorem State.mapShank_time (f : Shank → Shank) : (s.mapShank f).time = s.time := rfl
@[simp] theorem State.mapShank_free (f : Shank → Shank) : (s.mapShank f).free = s.free := rfl
@[simp] theorem State.mapShank_out (f : Shank → Shank) : (s.mapShank f).out = s.out := rfl
@[simp] theorem State.mapShank_pending (f : Shank → Shank) : (s.mapShank f).pending = s.pending := rfl

/-! State.mapImage -/
@[simp] theorem State.mapImage_ev8820 (f : Image → Image) : (s.mapImage f).ev8820 = s.ev8820 := rfl
@[simp] theorem State.mapImage_path (f : Image → Image) : (s.mapImage f).path = s.path := rfl
@[simp] theorem State.mapImage_last (f : Image → Image) : (s.mapImage f).last = s.last := rfl
@[simp] theorem State.mapImage_tier (f : Image → Image) : (s.mapImage f).tier = s.tier := rfl
@[simp] theorem State.mapImage_codec (f : Image → Image) : (s.mapImage f).codec = s.codec := rfl
@[simp] theorem State.mapImage_keys (f : Image → Image) : (s.mapImage f).keys = s.keys := rfl
@[simp] theorem State.mapImage_dram (f : Image → Image) : (s.mapImage f).dram = s.dram := rfl
@[simp] theorem State.mapImage_welt (f : Image → Image) : (s.mapImage f).welt = s.welt := rfl
@[simp] theorem State.mapImage_ddr (f : Image → Image) : (s.mapImage f).ddr = s.ddr := rfl
@[simp] theorem State.mapImage_lace (f : Image → Image) : (s.mapImage f).lace = s.lace := rfl
@[simp] theorem State.mapImage_shank (f : Image → Image) : (s.mapImage f).shank = s.shank := rfl
@[simp] theorem State.mapImage_image (f : Image → Image) : (s.mapImage f).image = f s.image := rfl
@[simp] theorem State.mapImage_resume (f : Image → Image) : (s.mapImage f).resume = s.resume := rfl
@[simp] theorem State.mapImage_reg (f : Image → Image) : (s.mapImage f).reg = s.reg := rfl
@[simp] theorem State.mapImage_port (f : Image → Image) : (s.mapImage f).port = s.port := rfl
@[simp] theorem State.mapImage_poq (f : Image → Image) : (s.mapImage f).poq = s.poq := rfl
@[simp] theorem State.mapImage_cmd (f : Image → Image) : (s.mapImage f).cmd = s.cmd := rfl
@[simp] theorem State.mapImage_world (f : Image → Image) : (s.mapImage f).world = s.world := rfl
@[simp] theorem State.mapImage_fault (f : Image → Image) : (s.mapImage f).fault = s.fault := rfl
@[simp] theorem State.mapImage_perf (f : Image → Image) : (s.mapImage f).perf = s.perf := rfl
@[simp] theorem State.mapImage_power (f : Image → Image) : (s.mapImage f).power = s.power := rfl
@[simp] theorem State.mapImage_time (f : Image → Image) : (s.mapImage f).time = s.time := rfl
@[simp] theorem State.mapImage_free (f : Image → Image) : (s.mapImage f).free = s.free := rfl
@[simp] theorem State.mapImage_out (f : Image → Image) : (s.mapImage f).out = s.out := rfl
@[simp] theorem State.mapImage_pending (f : Image → Image) : (s.mapImage f).pending = s.pending := rfl

/-! State.mapResume -/
@[simp] theorem State.mapResume_ev8820 (f : Resume → Resume) : (s.mapResume f).ev8820 = s.ev8820 := rfl
@[simp] theorem State.mapResume_path (f : Resume → Resume) : (s.mapResume f).path = s.path := rfl
@[simp] theorem State.mapResume_last (f : Resume → Resume) : (s.mapResume f).last = s.last := rfl
@[simp] theorem State.mapResume_tier (f : Resume → Resume) : (s.mapResume f).tier = s.tier := rfl
@[simp] theorem State.mapResume_codec (f : Resume → Resume) : (s.mapResume f).codec = s.codec := rfl
@[simp] theorem State.mapResume_keys (f : Resume → Resume) : (s.mapResume f).keys = s.keys := rfl
@[simp] theorem State.mapResume_dram (f : Resume → Resume) : (s.mapResume f).dram = s.dram := rfl
@[simp] theorem State.mapResume_welt (f : Resume → Resume) : (s.mapResume f).welt = s.welt := rfl
@[simp] theorem State.mapResume_ddr (f : Resume → Resume) : (s.mapResume f).ddr = s.ddr := rfl
@[simp] theorem State.mapResume_lace (f : Resume → Resume) : (s.mapResume f).lace = s.lace := rfl
@[simp] theorem State.mapResume_shank (f : Resume → Resume) : (s.mapResume f).shank = s.shank := rfl
@[simp] theorem State.mapResume_image (f : Resume → Resume) : (s.mapResume f).image = s.image := rfl
@[simp] theorem State.mapResume_resume (f : Resume → Resume) : (s.mapResume f).resume = f s.resume := rfl
@[simp] theorem State.mapResume_reg (f : Resume → Resume) : (s.mapResume f).reg = s.reg := rfl
@[simp] theorem State.mapResume_port (f : Resume → Resume) : (s.mapResume f).port = s.port := rfl
@[simp] theorem State.mapResume_poq (f : Resume → Resume) : (s.mapResume f).poq = s.poq := rfl
@[simp] theorem State.mapResume_cmd (f : Resume → Resume) : (s.mapResume f).cmd = s.cmd := rfl
@[simp] theorem State.mapResume_world (f : Resume → Resume) : (s.mapResume f).world = s.world := rfl
@[simp] theorem State.mapResume_fault (f : Resume → Resume) : (s.mapResume f).fault = s.fault := rfl
@[simp] theorem State.mapResume_perf (f : Resume → Resume) : (s.mapResume f).perf = s.perf := rfl
@[simp] theorem State.mapResume_power (f : Resume → Resume) : (s.mapResume f).power = s.power := rfl
@[simp] theorem State.mapResume_time (f : Resume → Resume) : (s.mapResume f).time = s.time := rfl
@[simp] theorem State.mapResume_free (f : Resume → Resume) : (s.mapResume f).free = s.free := rfl
@[simp] theorem State.mapResume_out (f : Resume → Resume) : (s.mapResume f).out = s.out := rfl
@[simp] theorem State.mapResume_pending (f : Resume → Resume) : (s.mapResume f).pending = s.pending := rfl

/-! State.mapReg -/
@[simp] theorem State.mapReg_ev8820 (f : Regul → Regul) : (s.mapReg f).ev8820 = s.ev8820 := rfl
@[simp] theorem State.mapReg_path (f : Regul → Regul) : (s.mapReg f).path = s.path := rfl
@[simp] theorem State.mapReg_last (f : Regul → Regul) : (s.mapReg f).last = s.last := rfl
@[simp] theorem State.mapReg_tier (f : Regul → Regul) : (s.mapReg f).tier = s.tier := rfl
@[simp] theorem State.mapReg_codec (f : Regul → Regul) : (s.mapReg f).codec = s.codec := rfl
@[simp] theorem State.mapReg_keys (f : Regul → Regul) : (s.mapReg f).keys = s.keys := rfl
@[simp] theorem State.mapReg_dram (f : Regul → Regul) : (s.mapReg f).dram = s.dram := rfl
@[simp] theorem State.mapReg_welt (f : Regul → Regul) : (s.mapReg f).welt = s.welt := rfl
@[simp] theorem State.mapReg_ddr (f : Regul → Regul) : (s.mapReg f).ddr = s.ddr := rfl
@[simp] theorem State.mapReg_lace (f : Regul → Regul) : (s.mapReg f).lace = s.lace := rfl
@[simp] theorem State.mapReg_shank (f : Regul → Regul) : (s.mapReg f).shank = s.shank := rfl
@[simp] theorem State.mapReg_image (f : Regul → Regul) : (s.mapReg f).image = s.image := rfl
@[simp] theorem State.mapReg_resume (f : Regul → Regul) : (s.mapReg f).resume = s.resume := rfl
@[simp] theorem State.mapReg_reg (f : Regul → Regul) : (s.mapReg f).reg = f s.reg := rfl
@[simp] theorem State.mapReg_port (f : Regul → Regul) : (s.mapReg f).port = s.port := rfl
@[simp] theorem State.mapReg_poq (f : Regul → Regul) : (s.mapReg f).poq = s.poq := rfl
@[simp] theorem State.mapReg_cmd (f : Regul → Regul) : (s.mapReg f).cmd = s.cmd := rfl
@[simp] theorem State.mapReg_world (f : Regul → Regul) : (s.mapReg f).world = s.world := rfl
@[simp] theorem State.mapReg_fault (f : Regul → Regul) : (s.mapReg f).fault = s.fault := rfl
@[simp] theorem State.mapReg_perf (f : Regul → Regul) : (s.mapReg f).perf = s.perf := rfl
@[simp] theorem State.mapReg_power (f : Regul → Regul) : (s.mapReg f).power = s.power := rfl
@[simp] theorem State.mapReg_time (f : Regul → Regul) : (s.mapReg f).time = s.time := rfl
@[simp] theorem State.mapReg_free (f : Regul → Regul) : (s.mapReg f).free = s.free := rfl
@[simp] theorem State.mapReg_out (f : Regul → Regul) : (s.mapReg f).out = s.out := rfl
@[simp] theorem State.mapReg_pending (f : Regul → Regul) : (s.mapReg f).pending = s.pending := rfl

/-! State.mapPort -/
@[simp] theorem State.mapPort_ev8820 (f : Port → Port) : (s.mapPort f).ev8820 = s.ev8820 := rfl
@[simp] theorem State.mapPort_path (f : Port → Port) : (s.mapPort f).path = s.path := rfl
@[simp] theorem State.mapPort_last (f : Port → Port) : (s.mapPort f).last = s.last := rfl
@[simp] theorem State.mapPort_tier (f : Port → Port) : (s.mapPort f).tier = s.tier := rfl
@[simp] theorem State.mapPort_codec (f : Port → Port) : (s.mapPort f).codec = s.codec := rfl
@[simp] theorem State.mapPort_keys (f : Port → Port) : (s.mapPort f).keys = s.keys := rfl
@[simp] theorem State.mapPort_dram (f : Port → Port) : (s.mapPort f).dram = s.dram := rfl
@[simp] theorem State.mapPort_welt (f : Port → Port) : (s.mapPort f).welt = s.welt := rfl
@[simp] theorem State.mapPort_ddr (f : Port → Port) : (s.mapPort f).ddr = s.ddr := rfl
@[simp] theorem State.mapPort_lace (f : Port → Port) : (s.mapPort f).lace = s.lace := rfl
@[simp] theorem State.mapPort_shank (f : Port → Port) : (s.mapPort f).shank = s.shank := rfl
@[simp] theorem State.mapPort_image (f : Port → Port) : (s.mapPort f).image = s.image := rfl
@[simp] theorem State.mapPort_resume (f : Port → Port) : (s.mapPort f).resume = s.resume := rfl
@[simp] theorem State.mapPort_reg (f : Port → Port) : (s.mapPort f).reg = s.reg := rfl
@[simp] theorem State.mapPort_port (f : Port → Port) : (s.mapPort f).port = f s.port := rfl
@[simp] theorem State.mapPort_poq (f : Port → Port) : (s.mapPort f).poq = s.poq := rfl
@[simp] theorem State.mapPort_cmd (f : Port → Port) : (s.mapPort f).cmd = s.cmd := rfl
@[simp] theorem State.mapPort_world (f : Port → Port) : (s.mapPort f).world = s.world := rfl
@[simp] theorem State.mapPort_fault (f : Port → Port) : (s.mapPort f).fault = s.fault := rfl
@[simp] theorem State.mapPort_perf (f : Port → Port) : (s.mapPort f).perf = s.perf := rfl
@[simp] theorem State.mapPort_power (f : Port → Port) : (s.mapPort f).power = s.power := rfl
@[simp] theorem State.mapPort_time (f : Port → Port) : (s.mapPort f).time = s.time := rfl
@[simp] theorem State.mapPort_free (f : Port → Port) : (s.mapPort f).free = s.free := rfl
@[simp] theorem State.mapPort_out (f : Port → Port) : (s.mapPort f).out = s.out := rfl
@[simp] theorem State.mapPort_pending (f : Port → Port) : (s.mapPort f).pending = s.pending := rfl

/-! State.mapPoq -/
@[simp] theorem State.mapPoq_ev8820 (f : Poq → Poq) : (s.mapPoq f).ev8820 = s.ev8820 := rfl
@[simp] theorem State.mapPoq_path (f : Poq → Poq) : (s.mapPoq f).path = s.path := rfl
@[simp] theorem State.mapPoq_last (f : Poq → Poq) : (s.mapPoq f).last = s.last := rfl
@[simp] theorem State.mapPoq_tier (f : Poq → Poq) : (s.mapPoq f).tier = s.tier := rfl
@[simp] theorem State.mapPoq_codec (f : Poq → Poq) : (s.mapPoq f).codec = s.codec := rfl
@[simp] theorem State.mapPoq_keys (f : Poq → Poq) : (s.mapPoq f).keys = s.keys := rfl
@[simp] theorem State.mapPoq_dram (f : Poq → Poq) : (s.mapPoq f).dram = s.dram := rfl
@[simp] theorem State.mapPoq_welt (f : Poq → Poq) : (s.mapPoq f).welt = s.welt := rfl
@[simp] theorem State.mapPoq_ddr (f : Poq → Poq) : (s.mapPoq f).ddr = s.ddr := rfl
@[simp] theorem State.mapPoq_lace (f : Poq → Poq) : (s.mapPoq f).lace = s.lace := rfl
@[simp] theorem State.mapPoq_shank (f : Poq → Poq) : (s.mapPoq f).shank = s.shank := rfl
@[simp] theorem State.mapPoq_image (f : Poq → Poq) : (s.mapPoq f).image = s.image := rfl
@[simp] theorem State.mapPoq_resume (f : Poq → Poq) : (s.mapPoq f).resume = s.resume := rfl
@[simp] theorem State.mapPoq_reg (f : Poq → Poq) : (s.mapPoq f).reg = s.reg := rfl
@[simp] theorem State.mapPoq_port (f : Poq → Poq) : (s.mapPoq f).port = s.port := rfl
@[simp] theorem State.mapPoq_poq (f : Poq → Poq) : (s.mapPoq f).poq = f s.poq := rfl
@[simp] theorem State.mapPoq_cmd (f : Poq → Poq) : (s.mapPoq f).cmd = s.cmd := rfl
@[simp] theorem State.mapPoq_world (f : Poq → Poq) : (s.mapPoq f).world = s.world := rfl
@[simp] theorem State.mapPoq_fault (f : Poq → Poq) : (s.mapPoq f).fault = s.fault := rfl
@[simp] theorem State.mapPoq_perf (f : Poq → Poq) : (s.mapPoq f).perf = s.perf := rfl
@[simp] theorem State.mapPoq_power (f : Poq → Poq) : (s.mapPoq f).power = s.power := rfl
@[simp] theorem State.mapPoq_time (f : Poq → Poq) : (s.mapPoq f).time = s.time := rfl
@[simp] theorem State.mapPoq_free (f : Poq → Poq) : (s.mapPoq f).free = s.free := rfl
@[simp] theorem State.mapPoq_out (f : Poq → Poq) : (s.mapPoq f).out = s.out := rfl
@[simp] theorem State.mapPoq_pending (f : Poq → Poq) : (s.mapPoq f).pending = s.pending := rfl

/-! State.mapCmd -/
@[simp] theorem State.mapCmd_ev8820 (f : Cmd → Cmd) : (s.mapCmd f).ev8820 = s.ev8820 := rfl
@[simp] theorem State.mapCmd_path (f : Cmd → Cmd) : (s.mapCmd f).path = s.path := rfl
@[simp] theorem State.mapCmd_last (f : Cmd → Cmd) : (s.mapCmd f).last = s.last := rfl
@[simp] theorem State.mapCmd_tier (f : Cmd → Cmd) : (s.mapCmd f).tier = s.tier := rfl
@[simp] theorem State.mapCmd_codec (f : Cmd → Cmd) : (s.mapCmd f).codec = s.codec := rfl
@[simp] theorem State.mapCmd_keys (f : Cmd → Cmd) : (s.mapCmd f).keys = s.keys := rfl
@[simp] theorem State.mapCmd_dram (f : Cmd → Cmd) : (s.mapCmd f).dram = s.dram := rfl
@[simp] theorem State.mapCmd_welt (f : Cmd → Cmd) : (s.mapCmd f).welt = s.welt := rfl
@[simp] theorem State.mapCmd_ddr (f : Cmd → Cmd) : (s.mapCmd f).ddr = s.ddr := rfl
@[simp] theorem State.mapCmd_lace (f : Cmd → Cmd) : (s.mapCmd f).lace = s.lace := rfl
@[simp] theorem State.mapCmd_shank (f : Cmd → Cmd) : (s.mapCmd f).shank = s.shank := rfl
@[simp] theorem State.mapCmd_image (f : Cmd → Cmd) : (s.mapCmd f).image = s.image := rfl
@[simp] theorem State.mapCmd_resume (f : Cmd → Cmd) : (s.mapCmd f).resume = s.resume := rfl
@[simp] theorem State.mapCmd_reg (f : Cmd → Cmd) : (s.mapCmd f).reg = s.reg := rfl
@[simp] theorem State.mapCmd_port (f : Cmd → Cmd) : (s.mapCmd f).port = s.port := rfl
@[simp] theorem State.mapCmd_poq (f : Cmd → Cmd) : (s.mapCmd f).poq = s.poq := rfl
@[simp] theorem State.mapCmd_cmd (f : Cmd → Cmd) : (s.mapCmd f).cmd = f s.cmd := rfl
@[simp] theorem State.mapCmd_world (f : Cmd → Cmd) : (s.mapCmd f).world = s.world := rfl
@[simp] theorem State.mapCmd_fault (f : Cmd → Cmd) : (s.mapCmd f).fault = s.fault := rfl
@[simp] theorem State.mapCmd_perf (f : Cmd → Cmd) : (s.mapCmd f).perf = s.perf := rfl
@[simp] theorem State.mapCmd_power (f : Cmd → Cmd) : (s.mapCmd f).power = s.power := rfl
@[simp] theorem State.mapCmd_time (f : Cmd → Cmd) : (s.mapCmd f).time = s.time := rfl
@[simp] theorem State.mapCmd_free (f : Cmd → Cmd) : (s.mapCmd f).free = s.free := rfl
@[simp] theorem State.mapCmd_out (f : Cmd → Cmd) : (s.mapCmd f).out = s.out := rfl
@[simp] theorem State.mapCmd_pending (f : Cmd → Cmd) : (s.mapCmd f).pending = s.pending := rfl

/-! State.mapWorld -/
@[simp] theorem State.mapWorld_ev8820 (f : WorldsSt → WorldsSt) : (s.mapWorld f).ev8820 = s.ev8820 := rfl
@[simp] theorem State.mapWorld_path (f : WorldsSt → WorldsSt) : (s.mapWorld f).path = s.path := rfl
@[simp] theorem State.mapWorld_last (f : WorldsSt → WorldsSt) : (s.mapWorld f).last = s.last := rfl
@[simp] theorem State.mapWorld_tier (f : WorldsSt → WorldsSt) : (s.mapWorld f).tier = s.tier := rfl
@[simp] theorem State.mapWorld_codec (f : WorldsSt → WorldsSt) : (s.mapWorld f).codec = s.codec := rfl
@[simp] theorem State.mapWorld_keys (f : WorldsSt → WorldsSt) : (s.mapWorld f).keys = s.keys := rfl
@[simp] theorem State.mapWorld_dram (f : WorldsSt → WorldsSt) : (s.mapWorld f).dram = s.dram := rfl
@[simp] theorem State.mapWorld_welt (f : WorldsSt → WorldsSt) : (s.mapWorld f).welt = s.welt := rfl
@[simp] theorem State.mapWorld_ddr (f : WorldsSt → WorldsSt) : (s.mapWorld f).ddr = s.ddr := rfl
@[simp] theorem State.mapWorld_lace (f : WorldsSt → WorldsSt) : (s.mapWorld f).lace = s.lace := rfl
@[simp] theorem State.mapWorld_shank (f : WorldsSt → WorldsSt) : (s.mapWorld f).shank = s.shank := rfl
@[simp] theorem State.mapWorld_image (f : WorldsSt → WorldsSt) : (s.mapWorld f).image = s.image := rfl
@[simp] theorem State.mapWorld_resume (f : WorldsSt → WorldsSt) : (s.mapWorld f).resume = s.resume := rfl
@[simp] theorem State.mapWorld_reg (f : WorldsSt → WorldsSt) : (s.mapWorld f).reg = s.reg := rfl
@[simp] theorem State.mapWorld_port (f : WorldsSt → WorldsSt) : (s.mapWorld f).port = s.port := rfl
@[simp] theorem State.mapWorld_poq (f : WorldsSt → WorldsSt) : (s.mapWorld f).poq = s.poq := rfl
@[simp] theorem State.mapWorld_cmd (f : WorldsSt → WorldsSt) : (s.mapWorld f).cmd = s.cmd := rfl
@[simp] theorem State.mapWorld_world (f : WorldsSt → WorldsSt) : (s.mapWorld f).world = f s.world := rfl
@[simp] theorem State.mapWorld_fault (f : WorldsSt → WorldsSt) : (s.mapWorld f).fault = s.fault := rfl
@[simp] theorem State.mapWorld_perf (f : WorldsSt → WorldsSt) : (s.mapWorld f).perf = s.perf := rfl
@[simp] theorem State.mapWorld_power (f : WorldsSt → WorldsSt) : (s.mapWorld f).power = s.power := rfl
@[simp] theorem State.mapWorld_time (f : WorldsSt → WorldsSt) : (s.mapWorld f).time = s.time := rfl
@[simp] theorem State.mapWorld_free (f : WorldsSt → WorldsSt) : (s.mapWorld f).free = s.free := rfl
@[simp] theorem State.mapWorld_out (f : WorldsSt → WorldsSt) : (s.mapWorld f).out = s.out := rfl
@[simp] theorem State.mapWorld_pending (f : WorldsSt → WorldsSt) : (s.mapWorld f).pending = s.pending := rfl

/-! State.mapFault -/
@[simp] theorem State.mapFault_ev8820 (f : FaultSt → FaultSt) : (s.mapFault f).ev8820 = s.ev8820 := rfl
@[simp] theorem State.mapFault_path (f : FaultSt → FaultSt) : (s.mapFault f).path = s.path := rfl
@[simp] theorem State.mapFault_last (f : FaultSt → FaultSt) : (s.mapFault f).last = s.last := rfl
@[simp] theorem State.mapFault_tier (f : FaultSt → FaultSt) : (s.mapFault f).tier = s.tier := rfl
@[simp] theorem State.mapFault_codec (f : FaultSt → FaultSt) : (s.mapFault f).codec = s.codec := rfl
@[simp] theorem State.mapFault_keys (f : FaultSt → FaultSt) : (s.mapFault f).keys = s.keys := rfl
@[simp] theorem State.mapFault_dram (f : FaultSt → FaultSt) : (s.mapFault f).dram = s.dram := rfl
@[simp] theorem State.mapFault_welt (f : FaultSt → FaultSt) : (s.mapFault f).welt = s.welt := rfl
@[simp] theorem State.mapFault_ddr (f : FaultSt → FaultSt) : (s.mapFault f).ddr = s.ddr := rfl
@[simp] theorem State.mapFault_lace (f : FaultSt → FaultSt) : (s.mapFault f).lace = s.lace := rfl
@[simp] theorem State.mapFault_shank (f : FaultSt → FaultSt) : (s.mapFault f).shank = s.shank := rfl
@[simp] theorem State.mapFault_image (f : FaultSt → FaultSt) : (s.mapFault f).image = s.image := rfl
@[simp] theorem State.mapFault_resume (f : FaultSt → FaultSt) : (s.mapFault f).resume = s.resume := rfl
@[simp] theorem State.mapFault_reg (f : FaultSt → FaultSt) : (s.mapFault f).reg = s.reg := rfl
@[simp] theorem State.mapFault_port (f : FaultSt → FaultSt) : (s.mapFault f).port = s.port := rfl
@[simp] theorem State.mapFault_poq (f : FaultSt → FaultSt) : (s.mapFault f).poq = s.poq := rfl
@[simp] theorem State.mapFault_cmd (f : FaultSt → FaultSt) : (s.mapFault f).cmd = s.cmd := rfl
@[simp] theorem State.mapFault_world (f : FaultSt → FaultSt) : (s.mapFault f).world = s.world := rfl
@[simp] theorem State.mapFault_fault (f : FaultSt → FaultSt) : (s.mapFault f).fault = f s.fault := rfl
@[simp] theorem State.mapFault_perf (f : FaultSt → FaultSt) : (s.mapFault f).perf = s.perf := rfl
@[simp] theorem State.mapFault_power (f : FaultSt → FaultSt) : (s.mapFault f).power = s.power := rfl
@[simp] theorem State.mapFault_time (f : FaultSt → FaultSt) : (s.mapFault f).time = s.time := rfl
@[simp] theorem State.mapFault_free (f : FaultSt → FaultSt) : (s.mapFault f).free = s.free := rfl
@[simp] theorem State.mapFault_out (f : FaultSt → FaultSt) : (s.mapFault f).out = s.out := rfl
@[simp] theorem State.mapFault_pending (f : FaultSt → FaultSt) : (s.mapFault f).pending = s.pending := rfl

/-! State.mapPerf -/
@[simp] theorem State.mapPerf_ev8820 (f : Perf → Perf) : (s.mapPerf f).ev8820 = s.ev8820 := rfl
@[simp] theorem State.mapPerf_path (f : Perf → Perf) : (s.mapPerf f).path = s.path := rfl
@[simp] theorem State.mapPerf_last (f : Perf → Perf) : (s.mapPerf f).last = s.last := rfl
@[simp] theorem State.mapPerf_tier (f : Perf → Perf) : (s.mapPerf f).tier = s.tier := rfl
@[simp] theorem State.mapPerf_codec (f : Perf → Perf) : (s.mapPerf f).codec = s.codec := rfl
@[simp] theorem State.mapPerf_keys (f : Perf → Perf) : (s.mapPerf f).keys = s.keys := rfl
@[simp] theorem State.mapPerf_dram (f : Perf → Perf) : (s.mapPerf f).dram = s.dram := rfl
@[simp] theorem State.mapPerf_welt (f : Perf → Perf) : (s.mapPerf f).welt = s.welt := rfl
@[simp] theorem State.mapPerf_ddr (f : Perf → Perf) : (s.mapPerf f).ddr = s.ddr := rfl
@[simp] theorem State.mapPerf_lace (f : Perf → Perf) : (s.mapPerf f).lace = s.lace := rfl
@[simp] theorem State.mapPerf_shank (f : Perf → Perf) : (s.mapPerf f).shank = s.shank := rfl
@[simp] theorem State.mapPerf_image (f : Perf → Perf) : (s.mapPerf f).image = s.image := rfl
@[simp] theorem State.mapPerf_resume (f : Perf → Perf) : (s.mapPerf f).resume = s.resume := rfl
@[simp] theorem State.mapPerf_reg (f : Perf → Perf) : (s.mapPerf f).reg = s.reg := rfl
@[simp] theorem State.mapPerf_port (f : Perf → Perf) : (s.mapPerf f).port = s.port := rfl
@[simp] theorem State.mapPerf_poq (f : Perf → Perf) : (s.mapPerf f).poq = s.poq := rfl
@[simp] theorem State.mapPerf_cmd (f : Perf → Perf) : (s.mapPerf f).cmd = s.cmd := rfl
@[simp] theorem State.mapPerf_world (f : Perf → Perf) : (s.mapPerf f).world = s.world := rfl
@[simp] theorem State.mapPerf_fault (f : Perf → Perf) : (s.mapPerf f).fault = s.fault := rfl
@[simp] theorem State.mapPerf_perf (f : Perf → Perf) : (s.mapPerf f).perf = f s.perf := rfl
@[simp] theorem State.mapPerf_power (f : Perf → Perf) : (s.mapPerf f).power = s.power := rfl
@[simp] theorem State.mapPerf_time (f : Perf → Perf) : (s.mapPerf f).time = s.time := rfl
@[simp] theorem State.mapPerf_free (f : Perf → Perf) : (s.mapPerf f).free = s.free := rfl
@[simp] theorem State.mapPerf_out (f : Perf → Perf) : (s.mapPerf f).out = s.out := rfl
@[simp] theorem State.mapPerf_pending (f : Perf → Perf) : (s.mapPerf f).pending = s.pending := rfl

/-! State.mapPower -/
@[simp] theorem State.mapPower_ev8820 (f : Power → Power) : (s.mapPower f).ev8820 = s.ev8820 := rfl
@[simp] theorem State.mapPower_path (f : Power → Power) : (s.mapPower f).path = s.path := rfl
@[simp] theorem State.mapPower_last (f : Power → Power) : (s.mapPower f).last = s.last := rfl
@[simp] theorem State.mapPower_tier (f : Power → Power) : (s.mapPower f).tier = s.tier := rfl
@[simp] theorem State.mapPower_codec (f : Power → Power) : (s.mapPower f).codec = s.codec := rfl
@[simp] theorem State.mapPower_keys (f : Power → Power) : (s.mapPower f).keys = s.keys := rfl
@[simp] theorem State.mapPower_dram (f : Power → Power) : (s.mapPower f).dram = s.dram := rfl
@[simp] theorem State.mapPower_welt (f : Power → Power) : (s.mapPower f).welt = s.welt := rfl
@[simp] theorem State.mapPower_ddr (f : Power → Power) : (s.mapPower f).ddr = s.ddr := rfl
@[simp] theorem State.mapPower_lace (f : Power → Power) : (s.mapPower f).lace = s.lace := rfl
@[simp] theorem State.mapPower_shank (f : Power → Power) : (s.mapPower f).shank = s.shank := rfl
@[simp] theorem State.mapPower_image (f : Power → Power) : (s.mapPower f).image = s.image := rfl
@[simp] theorem State.mapPower_resume (f : Power → Power) : (s.mapPower f).resume = s.resume := rfl
@[simp] theorem State.mapPower_reg (f : Power → Power) : (s.mapPower f).reg = s.reg := rfl
@[simp] theorem State.mapPower_port (f : Power → Power) : (s.mapPower f).port = s.port := rfl
@[simp] theorem State.mapPower_poq (f : Power → Power) : (s.mapPower f).poq = s.poq := rfl
@[simp] theorem State.mapPower_cmd (f : Power → Power) : (s.mapPower f).cmd = s.cmd := rfl
@[simp] theorem State.mapPower_world (f : Power → Power) : (s.mapPower f).world = s.world := rfl
@[simp] theorem State.mapPower_fault (f : Power → Power) : (s.mapPower f).fault = s.fault := rfl
@[simp] theorem State.mapPower_perf (f : Power → Power) : (s.mapPower f).perf = s.perf := rfl
@[simp] theorem State.mapPower_power (f : Power → Power) : (s.mapPower f).power = f s.power := rfl
@[simp] theorem State.mapPower_time (f : Power → Power) : (s.mapPower f).time = s.time := rfl
@[simp] theorem State.mapPower_free (f : Power → Power) : (s.mapPower f).free = s.free := rfl
@[simp] theorem State.mapPower_out (f : Power → Power) : (s.mapPower f).out = s.out := rfl
@[simp] theorem State.mapPower_pending (f : Power → Power) : (s.mapPower f).pending = s.pending := rfl

/-! State.emit, State.draw, tickTime -/
@[simp] theorem State.emit_ev8820 (o : Output) : (s.emit o).ev8820 = s.ev8820 := rfl
@[simp] theorem State.emit_path (o : Output) : (s.emit o).path = s.path := rfl
@[simp] theorem State.emit_last (o : Output) : (s.emit o).last = s.last := rfl
@[simp] theorem State.emit_tier (o : Output) : (s.emit o).tier = s.tier := rfl
@[simp] theorem State.emit_codec (o : Output) : (s.emit o).codec = s.codec := rfl
@[simp] theorem State.emit_keys (o : Output) : (s.emit o).keys = s.keys := rfl
@[simp] theorem State.emit_dram (o : Output) : (s.emit o).dram = s.dram := rfl
@[simp] theorem State.emit_welt (o : Output) : (s.emit o).welt = s.welt := rfl
@[simp] theorem State.emit_ddr (o : Output) : (s.emit o).ddr = s.ddr := rfl
@[simp] theorem State.emit_lace (o : Output) : (s.emit o).lace = s.lace := rfl
@[simp] theorem State.emit_shank (o : Output) : (s.emit o).shank = s.shank := rfl
@[simp] theorem State.emit_image (o : Output) : (s.emit o).image = s.image := rfl
@[simp] theorem State.emit_resume (o : Output) : (s.emit o).resume = s.resume := rfl
@[simp] theorem State.emit_reg (o : Output) : (s.emit o).reg = s.reg := rfl
@[simp] theorem State.emit_port (o : Output) : (s.emit o).port = s.port := rfl
@[simp] theorem State.emit_poq (o : Output) : (s.emit o).poq = s.poq := rfl
@[simp] theorem State.emit_cmd (o : Output) : (s.emit o).cmd = s.cmd := rfl
@[simp] theorem State.emit_world (o : Output) : (s.emit o).world = s.world := rfl
@[simp] theorem State.emit_fault (o : Output) : (s.emit o).fault = s.fault := rfl
@[simp] theorem State.emit_perf (o : Output) : (s.emit o).perf = s.perf := rfl
@[simp] theorem State.emit_power (o : Output) : (s.emit o).power = s.power := rfl
@[simp] theorem State.emit_time (o : Output) : (s.emit o).time = s.time := rfl
@[simp] theorem State.emit_free (o : Output) : (s.emit o).free = s.free := rfl
@[simp] theorem State.emit_out (o : Output) : (s.emit o).out = o :: s.out := rfl
@[simp] theorem State.emit_pending (o : Output) : (s.emit o).pending = s.pending := rfl
@[simp] theorem State.draw_ev8820 : s.draw.2.ev8820 = s.ev8820 := rfl
@[simp] theorem State.draw_path : s.draw.2.path = s.path := rfl
@[simp] theorem State.draw_last : s.draw.2.last = s.last := rfl
@[simp] theorem State.draw_tier : s.draw.2.tier = s.tier := rfl
@[simp] theorem State.draw_codec : s.draw.2.codec = s.codec := rfl
@[simp] theorem State.draw_keys : s.draw.2.keys = s.keys := rfl
@[simp] theorem State.draw_dram : s.draw.2.dram = s.dram := rfl
@[simp] theorem State.draw_welt : s.draw.2.welt = s.welt := rfl
@[simp] theorem State.draw_ddr : s.draw.2.ddr = s.ddr := rfl
@[simp] theorem State.draw_lace : s.draw.2.lace = s.lace := rfl
@[simp] theorem State.draw_shank : s.draw.2.shank = s.shank := rfl
@[simp] theorem State.draw_image : s.draw.2.image = s.image := rfl
@[simp] theorem State.draw_resume : s.draw.2.resume = s.resume := rfl
@[simp] theorem State.draw_reg : s.draw.2.reg = s.reg := rfl
@[simp] theorem State.draw_port : s.draw.2.port = s.port := rfl
@[simp] theorem State.draw_poq : s.draw.2.poq = s.poq := rfl
@[simp] theorem State.draw_cmd : s.draw.2.cmd = s.cmd := rfl
@[simp] theorem State.draw_world : s.draw.2.world = s.world := rfl
@[simp] theorem State.draw_fault : s.draw.2.fault = s.fault := rfl
@[simp] theorem State.draw_perf : s.draw.2.perf = s.perf := rfl
@[simp] theorem State.draw_power : s.draw.2.power = s.power := rfl
@[simp] theorem State.draw_time : s.draw.2.time = s.time := rfl
@[simp] theorem State.draw_free : s.draw.2.free = s.free + 1 := rfl
@[simp] theorem State.draw_out : s.draw.2.out = s.out := rfl
@[simp] theorem State.draw_pending : s.draw.2.pending = s.pending := rfl
@[simp] theorem State.draw_fst : s.draw.1 = s.free := rfl
@[simp] theorem tickTime_ev8820 : (tickTime s).ev8820 = s.ev8820 := rfl
@[simp] theorem tickTime_path : (tickTime s).path = s.path := rfl
@[simp] theorem tickTime_last : (tickTime s).last = s.last := rfl
@[simp] theorem tickTime_tier : (tickTime s).tier = s.tier := rfl
@[simp] theorem tickTime_codec : (tickTime s).codec = s.codec := rfl
@[simp] theorem tickTime_keys : (tickTime s).keys = s.keys := rfl
@[simp] theorem tickTime_dram : (tickTime s).dram = s.dram := rfl
@[simp] theorem tickTime_welt : (tickTime s).welt = s.welt := rfl
@[simp] theorem tickTime_ddr : (tickTime s).ddr = s.ddr := rfl
@[simp] theorem tickTime_lace : (tickTime s).lace = s.lace := rfl
@[simp] theorem tickTime_shank : (tickTime s).shank = s.shank := rfl
@[simp] theorem tickTime_image : (tickTime s).image = s.image := rfl
@[simp] theorem tickTime_resume : (tickTime s).resume = s.resume := rfl
@[simp] theorem tickTime_reg : (tickTime s).reg = s.reg := rfl
@[simp] theorem tickTime_port : (tickTime s).port = s.port := rfl
@[simp] theorem tickTime_poq : (tickTime s).poq = s.poq := rfl
@[simp] theorem tickTime_cmd : (tickTime s).cmd = s.cmd := rfl
@[simp] theorem tickTime_world : (tickTime s).world = s.world := rfl
@[simp] theorem tickTime_fault : (tickTime s).fault = s.fault := rfl
@[simp] theorem tickTime_perf : (tickTime s).perf = s.perf := rfl
@[simp] theorem tickTime_power : (tickTime s).power = s.power := rfl
@[simp] theorem tickTime_time : (tickTime s).time = s.time + 1 := rfl
@[simp] theorem tickTime_free : (tickTime s).free = s.free := rfl
@[simp] theorem tickTime_out : (tickTime s).out = s.out := rfl
@[simp] theorem tickTime_pending : (tickTime s).pending = s.pending := rfl

end Sys2Proof.Machine
end

