-- ==== Sys2Proof/Laws/Welt.lean ====
section
/-! SUPPORT. The side bits of a stored line (06 R123): what each field of a formed side reads, and that a formed line passes its check; and the CRC of a
message of zeros. -/

namespace Sys2Proof.Machine

/-- Bit i of a formed side. -/
theorem sideOf_getLsbD (bp : W64) (lc : BitVec 48) (m : W16) (i : Nat) :
    (sideOf bp lc m).getLsbD i = if i < 64 then bp.getLsbD i else if i < 112 then lc.getLsbD (i - 64) else m.getLsbD (i - 112) := by
  have h1 := BitVec.getLsbD_append (x := m ++ lc) (y := bp) (i := i)
  have h2 := BitVec.getLsbD_append (x := m) (y := lc) (i := i - 64)
  have h3 : (sideOf bp lc m).getLsbD i = ((m ++ lc ++ bp : BitVec (16 + 48 + 64)).getLsbD i) := rfl
  rw [h3, h1, h2]
  by_cases a : i < 64
  · simp [a]
  · by_cases b : i < 112
    · simp [a, b, show i - 64 < 48 by omega]
    · simp [a, b, show ¬ i - 64 < 48 by omega, show i - 64 - 48 = i - 112 by omega]

@[simp] theorem sideBpar_sideOf (bp : W64) (lc : BitVec 48) (m : W16) : sideBpar (sideOf bp lc m) = bp := by
  apply BitVec.eq_of_getLsbD_eq
  intro i hi
  rw [sideBpar, BitVec.getLsbD_extractLsb', sideOf_getLsbD]
  simp [hi]

@[simp] theorem sideLcrc_sideOf (bp : W64) (lc : BitVec 48) (m : W16) : sideLcrc (sideOf bp lc m) = lc := by
  apply BitVec.eq_of_getLsbD_eq
  intro i hi
  rw [sideLcrc, BitVec.getLsbD_extractLsb', sideOf_getLsbD]
  simp [hi, show 64 + i < 112 by omega]

@[simp] theorem sideMeta_sideOf (bp : W64) (lc : BitVec 48) (m : W16) : sideMeta (sideOf bp lc m) = m := by
  apply BitVec.eq_of_getLsbD_eq
  intro i hi
  rw [sideMeta, BitVec.getLsbD_extractLsb', sideOf_getLsbD]
  simp [hi, show ¬ 112 + i < 64 by omega]

/-- A line formed with a kind that is stored passes its check at its place. -/
theorem checkData_freshRaw (d : Line) (p : Nat) (m : W16) (h : [0, 2, 3, 4].contains (metaKind m) = true) : checkData (freshRaw d p m) p = true := by
  simp only [checkData, freshRaw, sideBpar_sideOf, sideLcrc_sideOf, sideMeta_sideOf, h, beq_self_eq_true, Bool.and_self]

/-- A read that meets no flip gives the line as it is stored. -/
@[simp] theorem Raw.flip_none (r : Raw) : r.flip { err := false, flipData := 0, flipSide := 0 } = r := by
  simp [Raw.flip]

/-- A byte of zero leaves a register of zero as it is, whatever the polynomial. -/
theorem crcByteMsb_zero {n : Nat} (poly : BitVec n) : crcByteMsb poly 0 0 = 0 := by
  unfold crcByteMsb
  generalize List.range 8 = l
  induction l with
  | nil => rfl
  | cons a l ih => simpa [List.foldl] using ih

/-- A message of zeros has CRC zero (08 R189). -/
theorem crc64_zeros (k : Nat) : crc64 (List.replicate k 0) = 0 := by
  unfold crc64
  induction k with
  | zero => rfl
  | succ k ih => rw [List.replicate_succ, List.foldl_cons, crcByteMsb_zero]; exact ih

end Sys2Proof.Machine
end

