-- ==== Sys2Proof/Tests/Slice0.lean ====
section
/-! SUPPORT. Tests: the well-formedness checks each refuse an ill-formed command; small facts taken from the spec; and, for every statement that
has hypotheses, a state and operands that meet them, clause by clause. -/

open Sys2Proof Sys2Proof.Machine

namespace Sys2Proof.Tests

set_option linter.all false
set_option Elab.async false

/-! ### What a witness is shown by. -/

theorem some_fst {α β : Type} {f : Option α × β} (h : f.1.isSome = true) : f = (some (f.1.get h), f.2) := by
  obtain ⟨a, b⟩ := f; cases a <;> simp_all

theorem some_pair {α β : Type} {f : Option (α × β)} (h : f.isSome = true) : f = some ((f.get h).1, (f.get h).2) := by
  cases f <;> simp_all

/-! ### Small states for the witnesses. -/

def mb : Msg := { path := .mailbox 0 false, session := none, inLen := 0, outLen := 4096 }
def fm : Msg := { path := .mctpFm, session := none, inLen := 0, outLen := 4096 }
def bmc (n : Nat) : Msg := { path := .mctpBmc, session := none, inLen := n, outLen := 4096 }
def calm : Upset := { err := false, flipData := 0, flipSide := 0 }
def extentEntry : MapEntry :=
  { ldBase := 0, devBase := 0, pages := 65536, valid := true, shared := false, poisonUnw := false, durable := true, dc := true, region := 0, tag := 7 }
def hotEntry : LastEntry := { LastEntry.zero with state := .hot, frame := 1, durable := true }
def warmEntry : LastEntry := { LastEntry.zero with state := .warm, frame := 2, durable := true, c0 := { off := 0, cnt := 1 } }

/-- A device at work: both worlds up, LD 0 bound to head 0, one channel and one module in service, a pool of 12 groups. -/
def live : State :=
  let s := State.reset.mapPower fun p => { p with bringup := 6, state := 0 }
  let s := s.mapWorld fun w => { w with secure := .up, normal := .up }
  let s := s.mapResume fun r => { r with level := 3, initDone := true, imageStep := 2 }
  let s := s.updFn 0 fun f => { f with head := some 0, bound := true }
  let s := s.updHeadOf 0 fun h => { h with up := true, link := some { rate := 3, width := 16, flit256 := true, latencyOpt := false, mld := false, margin := 30 } }
  let s := s.updChan 0 fun c => { c with state := 0, frames := 4000000, rate := 7200, present := true, slotStep := .powered }
  let s := s.updLaceMod 0 fun m => { m with state := 2 }
  let s := s.mapLast fun l => { l with hostPages := 65536 }
  let s := s.mapResume fun r => { r with initGroups := 3000000 }
  s.mapTier fun t => { t with poolFrames := 1000000, freeFrames := 500000 }

def job : CodecJob :=
  { user := .demotion, engine := some 7, since := 0, generation := 0, avoid := none, dpn := 5, chunk := 3, owner := 0, key := 0 }
def req : Req :=
  { tag := 1, head := 0, ld := 0, dpn := 0, line := 0, gen := 0, key := none, poisonUnw := false, shared := false, durable := false, write := none, be := 0
    poison := false, phase := .decode, sampled := false, got := [], frame := 0, off := 0, cnt := 0, raw := false, hint := 0, smp := none }
def wbLine : WbEntry := { dpn := 5, line := 63, data := 0, poison := false, ld := some 0 }
def rbuild : Rebuild := { frame := 1, line := 63, asRead := { data := 0, side := 0 }, err := false, forWhom := .request 1 }
def tracker : Tracker :=
  { dpn := 5, kind := .readPromotion, urgent := false, source := warmEntry, dest := none, place := [], gen := 0, map := 0, round := 0, holdWrites := false
    coded := [], recode := 0xF, mismatched := 0, flipped := false }
def unitOut : UnitSlot :=
  { channel := 1, wholeChannel := true, ranksel := 0, cause := 0, state := 0, progress := 0, exhausted := false, base := .stale, map := [] }
def blank : Flit := { header := 0, payload := 0, crc := 0 }
def zeroRec : Record :=
  { form := .zero, pinned := false, hardened := false, lap := false, gen := 0, heat := 0, dpn := 5, key := 0, owner := 0, epoch := 1, lsn := 0, counts := []
    granules := [], poisonMap := 0, bad := false }
def board : Board :=
  { valid := true, flags := 0, subsysVendor := 0, subsysId := 0, chargeMa := 1000, vsenseRatio := 100, vFullMv := 12000, vMinMv := 6000, cNomMf := 100
    effPct := 90, drivePlp := 0xF, pSaveW := 30, gpio := [] }
def bring : BringUp :=
  { board := board, dimms := [], present := 0xFFF, records := 0, slackPs := List.replicate 17 50, roSlow := 0, coreOk := 0xFF, engineOk := BitVec.allOnes 26, insoleCrcOk := true, vbankMv := 12000 }
def region : RegionEntry :=
  { devDpn := 0, pages := 65536, addedLsn := 0, region := some 0, ld := 0, shared := false, poisonUnw := false, tag := 7 }
def readReq : ChanReq :=
  { tag := 1, master := 0, priority := 4, rt := false, write := false, frame := 0, line := 0, count := 1, aged := false }
def readSlot : ReqSlot := { channel := 0, master := 0, priority := 4, rt := false, tag := 1, line := 63, countM1 := 15, frame := 12 }
def shadowing : State := live.mapShank fun k => { k with imageExists := true }
def saving (n : Nat) : State := shadowing.mapShank fun k => { k with saveStep := n }
def hot5 : State := live.setTableEntry 5 hotEntry
def warm5 : State := live.setTableEntry 5 warmEntry
def recorded : State := live.updChan 0 fun c => { c with
  state := 2, record := some { dimm0 := 0, dimm1 := 0, rate := 7200, temp := 40, trainRev := Config.trainRev, hours := 0 } }
theorem recorded_ok : recorded.recordOk 0 60 = true := by
  have h : recorded.recordOk 0 60 = (true && true && true && true && decide (Config.trainRev = Config.trainRev) && true && true) := rfl
  rw [h]; simp
def scrubbed : State := (live.setRaw 1 0 (freshRaw 3 (pla 1 0) 0)).mapWelt fun w => { w with scrubPos := 64 }
theorem scrub_ok : (scrubbed.scrubOn.charge mScrub (chargeRead 1)).scrubRead 1 (scrubbed.welt.scrubPos % 64) calm
    = some (((live.setRaw 1 0 (freshRaw 3 (pla 1 0) 0)).rawLine 1 0).flip calm, true) := by
  have h1 : (scrubbed.scrubOn.charge mScrub (chargeRead 1)).place 1 = .at 1 := by decide +kernel
  have h2 : checkData (((live.setRaw 1 0 (freshRaw 3 (pla 1 0) 0)).rawLine 1 0).flip calm) (pla 1 0) = true := by
    rw [State.rawLine_setRaw, calm, Raw.flip_none]
    exact checkData_freshRaw _ _ _ (by decide)
  unfold State.scrubRead
  rw [if_neg (by decide +kernel)]
  unfold State.readMember
  rw [h1]
  simp only [State.storedLine_raw _ (show (scrubbed.scrubOn.charge mScrub (chargeRead 1)).metaGroup
    (groupOf (scrubbed.scrubOn.charge mScrub (chargeRead 1)).w 1) = false by decide +kernel)]
  have h3 : (scrubbed.scrubOn.charge mScrub (chargeRead 1)).rawLine 1 (scrubbed.welt.scrubPos % 64) = (live.setRaw 1 0 (freshRaw 3 (pla 1 0) 0)).rawLine 1 0 := rfl
  have h4 : scrubbed.welt.scrubPos % 64 = 0 := rfl
  simp only [h4] at h3 ⊢
  rw [h3, h2]
  rw [show (!calm.err && true) = true from rfl]
def mapped : State := live.setMap 0 [extentEntry]
def desc (op : Byte) : Descriptor :=
  { opcode := op, version := 1, flags := 0, tag := 0, dpa := 0x5000, length := 4096, bufLen := 4096, hostAddr := 0, aux := 0 }
def running (op : Byte) : Exec :=
  { id := 1, d := desc op, started := true, held := false, pos := 0, bufPos := 0, acting := false, dataLost := false, waits := false, passed := [], out := [], finished := none }
def queue (xs : List Exec) : QueueCtx :=
  { sqBase := 0, cqBase := 0, pasid := none, ld := 0, log2 := 4, state := .active, sqTail := 1, sqFetch := 0, cqTail := 0, cqPhase := true, vector := 0xFFFF
    coalCount := 0, coalTime := 0, done := 0, opened := 0, pendingInts := 0, execs := xs, nextId := 2, failed := false, destroyer := none }
def queued (s : State) (c : QueueCtx) : State := s.setCtx 3 (some c)
def package : FwPackage :=
  { secureDigest := 1, normalDigest := 2, manifest := 0, secureSvn := 1, normalSvn := 1, secureSignature := [], normalSignature := [] }
def extent : Extent := { tag := 9, ldDpn := 0, devDpn := 0, pages := 65536, region := 1, shared := false, poisonUnwritten := false }

theorem cons_of {α β γ : Type} {f : (α × β × List Byte) × γ} (h : f.1.2.2 ≠ []) : f = ((f.1.1, f.1.2.1, f.1.2.2.head h :: f.1.2.2.tail), f.2) := by
  obtain ⟨⟨a, b, l⟩, c⟩ := f
  cases l with
  | nil => exact absurd rfl h
  | cons x l => rfl
theorem leBytes_zero {n : Nat} (k : Nat) : leBytes k (0 : BitVec n) = List.replicate k 0 := by
  unfold leBytes
  rw [List.map_congr_left (g := fun _ => (0 : Byte)) (fun i _ => by simp [byteAt]), List.map_const', List.length_range]
theorem blank_bytes (a b : Nat) {n m : Nat} : leBytes a (0 : BitVec n) ++ leBytes b (0 : BitVec m) = List.replicate (a + b) 0 := by
  rw [leBytes_zero, leBytes_zero, List.replicate_append_replicate]
theorem blank_ok : blank.crcOk = true := by
  unfold Flit.crcOk blank
  rw [blank_bytes, crc64_zeros]
  rfl
theorem blank_bad : ({ blank with crc := 1 } : Flit).crcOk = false := by
  unfold Flit.crcOk blank
  rw [blank_bytes, crc64_zeros]
  rfl
def zeroPageFrames : List Byte := (List.replicate 4 (ChunkForm.absent.frame 0 (zeros 1024))).flatten
theorem readPage_four {f c : List Byte} (hf : ∀ r, readFrame (f ++ r) = .ok c r) (hp : ∀ r, (CHeader.parse (f ++ r)).mode = .zero) :
    readPage (f ++ (f ++ (f ++ (f ++ [])))) = .ok (linesOfBytes 64 (c ++ c ++ c ++ c), true, 4 * f.length) := by
  have r4 : List.range 4 = [0, 1, 2, 3] := rfl
  unfold readPage
  simp only [r4, List.foldl, hf, hp]
  simp
  omega
theorem zeroFrame_length : (ChunkForm.absent.frame 0 (zeros 1024)).length = 8 := CHeader.bytes_length _
theorem four_frames {f : List Byte} (h : f.length = 8) : ((List.replicate 4 f).flatten).take 4096 = f ++ (f ++ (f ++ (f ++ []))) := by
  rw [List.take_of_length_le (by simp [h])]
  simp [List.replicate]
theorem zeroPage_ok : readPage (zeroPageFrames.take 4096) = .ok (linesOfBytes 64 (zeros 1024 ++ zeros 1024 ++ zeros 1024 ++ zeros 1024), true, 32) := by
  rw [zeroPageFrames, four_frames zeroFrame_length, readPage_four (readFrame_absent 0 (by decide)) (fun r => ?_), zeroFrame_length]
  rw [ChunkForm.frame, CHeader.parse_bytes _ r (by simp [headerOf]) (by simp [headerOf]) (by simp [headerOf])]
  rfl
def lb (n : Nat) : Msg := { mb with inLen := n }
def fmm (n : Nat) : Msg := { fm with inLen := n }
def found : ImageFound :=
  { candidate := true, versionOk := true, keyWrapOk := true, unwrapFails := [], regionOkA := true, regionOkB := true, heatOkA := true, heatOkB := true
    insoleOk := true }
def injected : AwlDesc := { kind := 3, flags := 0, count := 1, target := 35, address := 0, mask := 0, delayMs := 0, intervalUs := 1 }
def logged : InsoleRec :=
  { seq := 5, kind := .event, inj := false, sameCycle := false, firstFault := false, escalated := false, fenced := false, dry := false, source := 64, time := 0
    cls := .degrade, clsAfter := .degrade, ld := none, detail := [] }
def sess : Session := { ld := some 0, owner := false, keyHash := 7, finished := true, keys := 0 }
def inSession : State := live.setSessionOf 0 (some sess)
def keyed : State := inSession.updSlot 9 fun x => { x with state := .loaded, mask := 1 }
def md (n : Nat) : Msg := { path := .doe 0, session := some 0, inLen := n, outLen := 4096 }
def owned : State := (live.setSessionOf 0 (some { sess with ld := none, owner := true })).mapCmd fun c => { c with owner := some 7 }
def mo (n : Nat) : Msg := { path := .mctpBmc, session := some 0, inLen := n, outLen := 4096 }
def tspState : State := live.setSessionOf 1 (some sess)
def agreed : State := live.mapWorld fun w => { w with negotiated := [.mctpBmc] }
def compatible : State := hot5.setRaw 1 0 (freshRaw 3 (pla 1 0) 0)
theorem content_at {s : State} {f l : Nat} {r : Raw} (h0 : s.metaGroup (groupOf s.w f) = false) (h1 : s.place f = .at f) (h2 : s.rawLine f l = r) (h3 : checkData r (pla f l) = true) :
    s.lineContent f l = some r := by
  have h : s.readMember f l calm = some (r, true) := by
    unfold State.readMember
    simp only [h1, State.storedLine_raw _ h0, h2, calm, Raw.flip_none, h3]
    rfl
  have e : Upset.none = calm := rfl
  unfold State.lineContent State.contentOf
  rw [e, h]
theorem compat_ok {a b : Nat} (ha : a = 1) (hb : b = 0) : compatible.lineContent a b = some (freshRaw 3 (pla 1 0) 0) := by
  subst ha; subst hb
  exact content_at (by decide +kernel) (by decide +kernel) (State.rawLine_setRaw _ _ _ _) (checkData_freshRaw _ _ _ (by decide))
def plugged : DriveInfo := { gen := 5, margin := 10, nvmeOk := true, atomicLbas := 32, blocks := 64, nguid := 0, candidate := false, tag := 0 }
def counting : Source :=
  { cls := .info, sticky := true, inj := false, winCount := 2, count := 16777215, lastTime := 5, winStart := 1, escN := 3, escW := 10, escLimit := 2, notify := true
    fence := false }

/-! ### Ill-formed commands are refused. -/

def dimm : Dimm := { threeDS := false, x8 := false, density := 2, ranks2 := true, height := 0, rate := 6400, id := 5 }
def twice : List MemberRead := [{ channel := 3, upset := calm }, { channel := 3, upset := calm }]

theorem test_wf_bring_up : (Instr.coldReset bring).wf = true ∧ (Instr.resetNRelease bring).wf = true := by decide
theorem test_wf_same_slot_twice : (Instr.coldReset { bring with dimms := [(0, 1, dimm), (0, 1, dimm)] }).wf = false := by decide
theorem test_wf_nine_gpio : (Instr.resetNRelease { bring with board := { board with gpio := List.replicate 9 (0, 0) } }).wf = false := by decide
theorem test_wf_slack_table : (Instr.coldReset { bring with slackPs := List.replicate 16 50 }).wf = false := by decide
theorem test_wf_bypass : (Instr.bypass 0x01).wf = false ∧ (Instr.bypass 0x03).wf = true := by decide
theorem test_wf_lock_readers : (Instr.lockRegisterRead 0 []).wf = false ∧ (Instr.lockRegisterRead 0 [.ld 0, .ld 0]).wf = false := by decide
theorem test_wf_delta_reads : (Instr.weltDeltaWrite 5 63 calm twice).wf = false := by decide
theorem test_wf_rebuild_reads : (Instr.rebuildComplete 1 63 twice).wf = false := by decide
theorem test_wf_parity_reads : (Instr.onchipParityError .other twice).wf = false := by decide
theorem test_wf_scrub_reads : (Instr.scrubLine calm twice).wf = false := by decide
theorem test_wf_step_reads : (Instr.unitRebuildStep 0 twice).wf = false := by decide
theorem test_wf_walk_reads : (Instr.unitMapResolve 0 twice).wf = false := by decide
theorem test_wf_temperatures : (Instr.moduleTempRead 0 [(1, some 40), (1, some 41)] false).wf = false := by decide
theorem test_wf_supply_modules : (Instr.slotSupplySettled 0 [(1, dimm), (1, dimm)]).wf = false := by decide

/-! ### Stops and the queue. -/

theorem test_ill_formed_bring_up_stops : exec (.coldReset { bring with slackPs := [] }) live = .fault .illFormed := by rfl
theorem test_no_word_spells_a_command : decodeTableWord 32 0 = none ∧ State.reset.withFetchWord 32 0 = State.reset := ⟨rfl, rfl⟩
theorem test_empty_queue_passes_time : (match step State.reset with | .next t => decide (State.reset.time < t.time) | _ => false) = true := by decide +kernel

/-! ### Values the spec writes out. -/

/-- 04 R77: the check value of the CRC. -/
theorem test_crc_check_value : crc32c [0x31, 0x32, 0x33, 0x34, 0x35, 0x36, 0x37, 0x38, 0x39] = 0xE3069283 := by decide +kernel

/-! ### Witnesses of the statements. -/

theorem witness_PathEvents :
    (∃ (s : State) (dpn : Sys2Proof.Dpn), (s.last.missq.contains dpn = true) ∧ ((s.pageWay dpn).isSome = true))
    ∧ (∃ (s : State) (dpn : Sys2Proof.Dpn) (line : Fin 64) (w : Sys2Proof.Machine.WbEntry), (s.buffered dpn line.val = some w) ∧ (s.olderRead dpn line.val = false) ∧ ((s.entry dpn).hotForm = true))
    ∧ (∃ (s : State) (frame : Frame) (line : Fin 64) (j : Rebuild) (tag : BitVec 13), ((s.welt.rebuilds.find? fun j => decide (j.frame = frame) && decide (j.line = line)) = some j) ∧ (j.forWhom = .request tag) ∧ (s.place frame.toNat = .missing))
    ∧ (∃ (s : State) (frame : Sys2Proof.Frame) (line : Fin 64) (u : Sys2Proof.Upset) (v : Sys2Proof.Frame × Fin 64 × Sys2Proof.Machine.Raw) (p : ℕ), ((s.welt.verifies.find? fun v => decide (v.1 = frame) && decide (v.2.1 = line)) = some v) ∧ (s.place frame.toNat = .at p) ∧ (u.err = false) ∧ ((if isParity s.w frame.toNat then checkParity ((s.lineAt frame.toNat p line.val).flip u) (s.parityAx (groupOf s.w frame.toNat) line.val) else checkData ((s.lineAt frame.toNat p line.val).flip u) (pla p line.val)) = true))
    ∧ (∃ (dpn : Dpn) (line : Fin 64) (u : Upset) (s : State) (t : State) (m : MergeEntry) (r : Raw), (s.mergeOf dpn line.val = some m) ∧ (m.filled = false) ∧ ((s.entry dpn).hotForm = true) ∧ s.buffered dpn line.val = none ∧ ((s.chargeRebuild m.ld.val (s.entry dpn).frame.toNat line.val u).oldLine (s.entry dpn).frame.toNat line.val u = (some r, t)))
    ∧ (∃ (dpn : Dpn) (line : Fin 64) (s : State) (m : MergeEntry) (w : WbEntry), (s.mergeOf dpn line.val = some m) ∧ (m.filled = false) ∧ ((s.entry dpn).hotForm = true) ∧ s.buffered dpn line.val = some w) :=
  ⟨⟨((live.mapLast fun l => { l with missq := [5] }).setCacheSet (setOfPage 5) { ways := [(0, some { dpn := 5, isSpan := false, entry := hotEntry, modified := false })], tree := 0 }), (5), by decide +kernel, by decide +kernel⟩,
   ⟨(hot5.mapPath fun p => { p with wbuf := [wbLine] }), (5), (63), _, (Option.some_get (by decide +kernel)).symm, by decide +kernel, by decide +kernel⟩,
   ⟨(((live.setFrameRec 1 { map := 0, dpns := [5], kind := .hot, owner := 0 }).mapWelt fun w => { w with rebuilds := [rbuild] }).setUnit 0 (some unitOut)), (1), (63), _, (1), (Option.some_get (by decide +kernel)).symm, by decide +kernel, by decide +kernel⟩,
   ⟨((live.setRaw 1 63 (freshRaw 3 (pla 1 63) 0)).mapWelt fun w => { w with verifies := [(1, 63, { data := 0, side := 0 })] }), (1), (63), (calm), _, (1), (Option.some_get (by decide +kernel)).symm, by decide +kernel, by decide +kernel, by
    have h : ((live.setRaw 1 63 (freshRaw 3 (pla 1 63) 0)).mapWelt fun w => { w with verifies := [(1, 63, { data := 0, side := 0 })] }).metaGroup
      (groupOf ((live.setRaw 1 63 (freshRaw 3 (pla 1 63) 0)).mapWelt fun w => { w with verifies := [(1, 63, { data := 0, side := 0 })] }).w 1) = false := by
      decide +kernel
    have h2 : isParity ((live.setRaw 1 63 (freshRaw 3 (pla 1 63) 0)).mapWelt fun w => { w with verifies := [(1, 63, { data := 0, side := 0 })] }).w
      (1 : Frame).toNat = false := by decide +kernel
    rw [if_neg (by rw [h2]; simp)]
    unfold State.lineAt
    simp only [h2, Bool.false_eq_true, if_false]
    rw [show (1 : Frame).toNat = 1 from rfl, State.storedLine_raw _ h]
    show checkData (((live.setRaw 1 63 (freshRaw 3 (pla 1 63) 0)).rawLine 1 63).flip calm) (pla 1 63) = true
    rw [State.rawLine_setRaw, calm, Raw.flip_none]
    exact checkData_freshRaw _ _ _ (by decide)⟩,
   ⟨(5), (63), (calm), ((hot5.mapWelt fun w => { w with exceptions := [(1, none)] }).mapPath fun p => { p with merge := [{ dpn := 5, line := 63, data := 0, be := 1, filled := false, entered := false, ld := 0, tags := [] }] }), _, _, _, (Option.some_get (by decide +kernel)).symm, by decide +kernel, by decide +kernel, by decide +kernel, some_fst (by decide +kernel)⟩,
   ⟨(5), (63), (hot5.mapPath fun p => { p with wbuf := [wbLine], merge := [{ dpn := 5, line := 63, data := 0, be := 1, filled := false, entered := false, ld := 0, tags := [] }] }), _, _, (Option.some_get (by decide +kernel)).symm, by decide +kernel, by decide +kernel, (Option.some_get (by decide +kernel)).symm⟩⟩

theorem witness_CodecEvents :
    (∃ (s : State) (tag : BitVec 13) (decomp : Fin 16) (r : Sys2Proof.Machine.Req) (ls : List (Option Sys2Proof.Line)), (s.req tag = some r) ∧ (r.phase = .decode) ∧ (s.lateOn (8 + decomp.val) (fun j => decide (j.user = .hostRead tag)) = none) ∧ (s.jobOn (8 + decomp.val) (fun j => decide (j.user = .hostRead tag)) = true) ∧ (((s.endJobs (fun j => decide (j.user = .hostRead tag))).injs.find? fun p => decide (p.2.d.kind = 8) && p.2.due && decide (p.2.d.target.toNat = decomp.val)) = none) ∧ ((s.endJobs (fun j => decide (j.user = .hostRead tag))).reqPlain r r.got = some ls))
    ∧ (∃ (s : State) (tag : BitVec 13) (decomp : Fin 16) (j : CodecJob), s.lateOn (8 + decomp.val) (fun j => decide (j.user = .hostRead tag)) = some j)
    ∧ (∃ (s : State) (dpn : Sys2Proof.Dpn) (chunk : Fin 4) (j : Sys2Proof.Machine.RepairJob) (rec : Sys2Proof.Machine.Record) (ls : List (Option Sys2Proof.Line)), ((s.codec.repair.find? fun j => decide (j.dpn = dpn) && decide (j.chunk = chunk)) = some j) ∧ ((s.charge mScrub (chargeRead 1)).recordOf dpn = some rec) ∧ (rec.bad = false) ∧ ((s.charge mScrub (chargeRead 1)).recordChunk rec chunk.val = some ls) ∧ ((s.entry dpn).hotForm = true))
    ∧ (∃ (s : State) (n : Fin 256) (chunk : Fin 4) (engine : Fin 8) (t : Sys2Proof.Machine.Tracker), (s.tracker n.val = some t) ∧ (t.flipped = false) ∧ (t.recode.getLsbD chunk.val = true) ∧ (Tab.get (fun _ => none) t.coded chunk.val = none) ∧ (s.lateOn engine.val (fun j => decide (j.chunk = chunk.val)) = none) ∧ (s.jobOn engine.val (fun j : CodecJob => decide (j.dpn = t.dpn) && decide (j.chunk = chunk.val) && decide (j.user.kind = 0)) = true)) :=
  ⟨⟨((live.mapPath fun p => { p with reqs := [req] }).mapCodec fun c => { c with jobs := [{ job with user := .hostRead 1, engine := some 23 }] }), (1), (15), _, _, (Option.some_get (by decide +kernel)).symm, by decide +kernel, by decide +kernel, by decide +kernel, by decide +kernel, (Option.some_get (by decide +kernel)).symm⟩,
   ⟨(live.mapCodec fun c => { c with late := [{ job with user := .hostRead 1, engine := some 23 }] }), (1), (15), _, (Option.some_get (by decide +kernel)).symm⟩,
   ⟨((hot5.mapCodec fun c => { c with repair := [{ dpn := 5, chunk := 3, gen := 0, granule := none }] }).mapImage fun i => { i with log := [{ form := .zero, pinned := false, hardened := false, lap := false, gen := 0, heat := 0, dpn := 5, key := 0, owner := 0, epoch := 1, lsn := 0, counts := [], granules := [], poisonMap := 0, bad := false }] }), (5), (3), _, _, _, (Option.some_get (by decide +kernel)).symm, (Option.some_get (by decide +kernel)).symm, by decide +kernel, (Option.some_get (by decide +kernel)).symm, by decide +kernel⟩,
   ⟨((live.setTracker 255 (some { tracker with kind := .demotion })).mapCodec fun c => { c with jobs := [job] }), (255), (3), (7), _, (Option.some_get (by decide +kernel)).symm, by decide +kernel, by decide +kernel, by decide +kernel, by decide +kernel, by decide +kernel⟩⟩

theorem witness_TierEvents :
    (∃ (s : State) (dpn : Sys2Proof.Dpn) (kind : Sys2Proof.MigKind) (hint : Sys2Proof.Frame) (t : Sys2Proof.Machine.State), (s.migrationDue kind dpn = true) ∧ (s.startMigration kind dpn hint = some t))
    ∧ (∃ (s : State) (n : Fin 256) (t : Sys2Proof.Machine.Tracker), (s.tracker n.val = some t) ∧ (t.flipped = false) ∧ (s.writesOpen t.dpn = false) ∧ (t.kind = .readPromotion) ∧ ((s.endDecodes t.dpn).decodesWait t.dpn = false))
    ∧ (∃ (s : State) (hint : Sys2Proof.Frame) (d : Sys2Proof.Dpn) (r : List Sys2Proof.Dpn) (t : Sys2Proof.Machine.State), (s.tier.promoQueue = d :: r) ∧ (s.tier.freeFrames > s.lowFrames) ∧ ((s.entry d).state = .warm) ∧ (s.startMigration .readPromotion d hint = some t))
    ∧ (∃ (s : State) (hint : Sys2Proof.Frame) (d : Sys2Proof.Dpn) (u : Sys2Proof.Machine.State) (t : Sys2Proof.Machine.State), (s.tier.demoting = true) ∧ (s.path.fenced = false) ∧ (s.allFenced 0 = false) ∧ ((s.freeTracker .demotion).isSome = true) ∧ (s.takeCandidate (8 * Config.bucketMax) = (some d, u)) ∧ (u.startMigration .demotion d hint = some t))
    ∧ (∃ (s : State) (bin : Sys2Proof.Frame), ((s.frameRec bin.toNat).kind = .bin) ∧ (granulesUsed (s.frameRec bin.toNat).map < 32) ∧ (s.tier.freeFrames ≤ s.lowFrames))
    ∧ (∃ (s : State) (t : Sys2Proof.Machine.State) (req : List (Fin 32 × BitVec 128 × BitVec 32)), (s.tier.release = []) ∧ (t = s.mapTier (fun t => { t with release := [], releasePending := false })) ∧ (s.tier.poolFrames ≠ 0) ∧ (s.tier.freeFrames ≤ s.pressureFrames) ∧ (req = (t.chooseRelease ((t.highFrames - t.tier.freeFrames) * 64)).flatMap (fun p => p.2.map fun n => (n, p.1.tag, p.1.devBase))))
    ∧ (∃ (s : State) (d : Dpn) (h : Byte), (d = BitVec.ofNat 32 s.tier.sweepPos) ∧ (h = (s.entry d).heat >>> (min 8 s.tier.passShift)) ∧ (s.resume.level ≠ 0) ∧ (s.path.fenced = false) ∧ (s.tier.sweepPos + 1 < s.last.hostPages) ∧ ((s.entry d).state ≠ .hot) ∧ (h ≠ (s.entry d).heat) ∧ (s.pageWay d = none)) :=
  ⟨⟨((hot5.setBucket 0 [5]).mapTier fun t => { t with demoting := true }), (5), (.demotion), (0), _, by decide +kernel, (Option.some_get (by decide +kernel)).symm⟩,
   ⟨(live.setTracker 255 (some tracker)), (255), _, (Option.some_get (by decide +kernel)).symm, by decide +kernel, by decide +kernel, by decide +kernel, by decide +kernel⟩,
   ⟨((live.setTableEntry 5 { warmEntry with c0 := Chunk.none }).mapTier fun t => { t with promoQueue := [5] }), (25), _, _, _, rfl, by decide +kernel, by decide +kernel, (Option.some_get (by decide +kernel)).symm⟩,
   ⟨((hot5.setBucket 0 [5]).mapTier fun t => { t with demoting := true }), (0), _, _, _, by decide +kernel, by decide +kernel, by decide +kernel, by decide +kernel, some_fst (by decide +kernel), (Option.some_get (by decide +kernel)).symm⟩,
   ⟨((live.setFrameRec 2 { map := 1, dpns := [5], kind := .bin, owner := 0 }).mapTier fun t => { t with freeFrames := 0 }), (2), by decide +kernel, by decide +kernel, by decide +kernel⟩,
   ⟨(live.mapTier fun t => { t with freeFrames := 0 }), _, _, by decide +kernel, rfl, by decide +kernel, by decide +kernel, rfl⟩,
   ⟨((live.setTableEntry 0 { warmEntry with heat := 8 }).mapTier fun t => { t with passShift := 1 }), _, _, rfl, rfl, by decide +kernel, by decide +kernel, by decide +kernel, by decide +kernel, by decide +kernel, by decide +kernel⟩⟩

theorem witness_RowEvents :
    (∃ (s : State) (ch : Fin 12) (idx : Fin 256), ((s.row (rowKey ch.val idx.val)).state = .candidate))
    ∧ (∃ (s : State) (ch : Fin 12) (idx : Fin 256) (e : Sys2Proof.Machine.RowEntry), (e = s.row (rowKey ch.val idx.val)) ∧ (e.state = .hard) ∧ (s.rowRepairable ch.val e = true) ∧ (s.unitsOut = []) ∧ (s.inSave = false) ∧ (s.inResume = false) ∧ (((s.unitOut (e.scope ch.val) 2 none).unitFor (e.scope ch.val)).isSome = true))
    ∧ (∃ (s : State) (ch : Fin 12) (idx : Fin 256), ((s.row (rowKey ch.val idx.val)).state = .hard))
    ∧ (∃ (s : State) (ch : Fin 12) (idx : Fin 256) (e : Sys2Proof.Machine.RowEntry) (n : ℕ) (u : Sys2Proof.Machine.UnitSlot), (e = s.row (rowKey ch.val idx.val)) ∧ (s.unitFor (e.scope ch.val) = some (n, u)) ∧ (e.state = .hard) ∧ (u.cause = 2) ∧ (u.state = 0) ∧ (u.wholeChannel = false) ∧ (u.repair = some (rowKey ch.val idx.val)))
    ∧ (∃ (s : State) (ch : Fin 12) (idx : Fin 256) (e : Sys2Proof.Machine.RowEntry) (t : Sys2Proof.Machine.State), (e = s.row (rowKey ch.val idx.val)) ∧ (e.state = .relocating) ∧ (t = (s.rowFrames ch.val e).foldl State.retireFrame s) ∧ ((s.rowFrames ch.val e).all t.frameRetired = true))
    ∧ (∃ (s : State) (dpn : Sys2Proof.Dpn) (line : Fin 64) (w : Sys2Proof.Machine.WbEntry), (s.buffered dpn line.val = some w))
    ∧ (∃ (s : State) (group : BitVec 28) (line : Fin 64) (p : ParityLine), (s.cachedParity group.toNat line.val = some p) ∧ (p.dirty = false))
    ∧ (∃ (s : State) (n : Fin 26), (s.engineFenced n.val = false)) :=
  ⟨⟨(live.setRow (rowKey 11 255) { rowReset with state := .candidate }), (11), (255), by decide +kernel⟩,
   ⟨(live.setRow (rowKey 0 255) { rowReset with state := .hard, mask := 1 }), (0), (255), _, rfl, by decide +kernel, by decide +kernel, by decide +kernel, by decide +kernel, by decide +kernel, by decide +kernel⟩,
   ⟨(live.setRow (rowKey 11 255) { rowReset with state := .hard }), (11), (255), by decide +kernel⟩,
   ⟨((live.setRow (rowKey 1 255) { rowReset with state := .hard }).setUnit 0 (some { unitOut with wholeChannel := false, cause := 2, repair := some (rowKey 1 255) })), (1), (255), _, _, _, rfl, some_pair (by decide +kernel), by decide +kernel, by decide +kernel, by decide +kernel, by decide +kernel, by decide +kernel⟩,
   ⟨(live.setRow (rowKey 1 255) { rowReset with state := .relocating }), (1), (255), _, _, rfl, by decide +kernel, rfl, by decide +kernel⟩,
   ⟨(live.mapPath fun p => { p with wbuf := [wbLine] }), (5), (63), _, (Option.some_get (by decide +kernel)).symm⟩,
   ⟨(live.mapWelt fun w => { w with pcache := [{ group := 9, line := 63, way := 0, raw := { data := 0, side := 0 }, dirty := false }] }), (9), (63), _, (Option.some_get (by decide +kernel)).symm, by decide +kernel⟩,
   ⟨(live), (25), by decide +kernel⟩⟩

def crowd : State := (hot5.setFrameRec 1 { map := 0, dpns := [5], kind := .hot, owner := 0 }).mapWelt fun w => { w with rebalance := some 0 }

theorem witness_UnitEvents :
    (∃ (s : State) (u : Sys2Proof.Upset) (m : ℕ) (r : Sys2Proof.Machine.Raw), (s.groups ≠ 0) ∧ (s.inSave = false) ∧ (s.resume.level ≠ 0) ∧ (s.scrubTarget (s.welt.scrubPos / 64) = some m) ∧ ((s.scrubOn.charge mScrub (chargeRead 1)).scrubRead m (s.welt.scrubPos % 64) u = some (r, true)))
    ∧ (∃ (s : State) (ch : Fin 12) (ranksel : BitVec 6) (device : Fin 20) (count : W16) (bank : BitVec 5) (row : BitVec 18) (i : ℕ) (t : Sys2Proof.Machine.State), (s.hasChannel ch.val = true) ∧ (count.toNat > s.welt.policy.ecsLimit) ∧ ((List.range 256).all (fun i => let e := (raise { Ev.of 71 with detail := [0, 0, 0, ch.val, ranksel.toNat, bank.toNat, row.toNat, 2 ^ device.val] } s).row (rowKey ch.val i); !(decide (e.state ≠ .free) && decide (e.row = row) && decide (e.ranksel = ranksel) && decide (e.bank = bank))) = true) ∧ ((raise { Ev.of 71 with detail := [0, 0, 0, ch.val, ranksel.toNat, bank.toNat, row.toNat, 2 ^ device.val] } s).newRow ch.val = some (i, t)))
    ∧ (∃ (s : State) (slot : Fin 4) (reads : List Sys2Proof.MemberRead) (u : Sys2Proof.Machine.UnitSlot) (f : ℕ) (t : Sys2Proof.Machine.State), (s.unit slot.val = some u) ∧ (u.cause ≠ 2) ∧ (u.state = 1) ∧ (u.base ≠ .withdrawn) ∧ (s.inSave = false) ∧ (u.progress ≥ s.rebuildPrelude) ∧ (s.spareToMove u = none) ∧ (s.nextStale u.scope = some f) ∧ (s.spareOne f reads = some t))
    ∧ (∃ (s : State) (slot : Fin 4) (u : Sys2Proof.Machine.UnitSlot), (s.unit slot.val = some u) ∧ (u.state = 5) ∧ (s.inSave = false) ∧ (u.progress ≥ s.groups))
    ∧ (∃ (s : State) (dpn : Sys2Proof.Dpn) (hint : Sys2Proof.Frame) (t : Sys2Proof.Machine.State) (used : ℕ → ℕ) (c : Fin 12) (f : ℕ), ((∀ c, used c = (s.last.frames.filter fun p => decide (channelOf s.w p.1 = c) && (decide (p.2.kind = .hot) || decide (p.2.kind = .bin))).length)) ∧ (used (channelOf s.w (s.entry dpn).frame.toNat) * s.w * 100 > ((List.range s.w).map used).sum * 101) ∧ (channelOf s.w (s.entry dpn).frame.toNat < s.w) ∧ (s.welt.rebalance = some c) ∧ (s.nextFree (fun f => decide (channelOf s.w f = c.val)) (s.poolGroups * s.w) hint.toNat = some f) ∧ (s.startMigration .rebalance dpn (BitVec.ofNat 32 f) = some t)) :=
  ⟨⟨(scrubbed), (calm), (1), _, by decide +kernel, by decide +kernel, by decide +kernel, by decide +kernel, scrub_ok⟩,
   ⟨(live), (0), (1), (19), (257), (1), (1), _, _, by decide +kernel, by decide +kernel, by decide +kernel, some_pair (by decide +kernel)⟩,
   ⟨(((live.setUnit 3 (some { unitOut with state := 1, progress := 100000000 })).setFrameRec 1 { map := 0, dpns := [5], kind := .hot, owner := 0 }).mapWelt fun w => { w with spareFrames := 1100 }), (3), ([]), _, _, _, (Option.some_get (by decide +kernel)).symm, by decide +kernel, by decide +kernel, by decide +kernel, by decide +kernel, by decide +kernel, by decide +kernel, (Option.some_get (by decide +kernel)).symm, (Option.some_get (by decide +kernel)).symm⟩,
   ⟨(live.setUnit 3 (some { unitOut with state := 5, progress := 100000000 })), (3), _, (Option.some_get (by decide +kernel)).symm, by decide +kernel, by decide +kernel, by decide +kernel⟩,
   ⟨crowd, (5), (24), _, (fun c => (crowd.last.frames.filter fun p => decide (channelOf crowd.w p.1 = c) && (decide (p.2.kind = .hot) || decide (p.2.kind = .bin))).length), (0), (24), fun _ => rfl, by decide +kernel, by decide +kernel, by decide +kernel, by decide +kernel, (Option.some_get (by decide +kernel)).symm⟩⟩

def dimms0 : State := live.updChan 0 fun c => { c with pwrEn := true, dimms := Tab.set (fun _ => none) 0 (some dimm) c.dimms }

theorem witness_ChannelTimers :
    (∃ (s : State) (ch : Fin 12) (rank : Fin 4), (s.hasChannel ch.val = true) ∧ ((s.chan ch.val).live = true) ∧ (s.rankThere ch.val rank.val = true) ∧ (s.queuedFor ch.val rank.val = false))
    ∧ (∃ (s : State) (ch : Fin 12) (rank : Fin 4), (s.hasChannel ch.val = true) ∧ ((s.chan ch.val).live = true) ∧ (s.rankThere ch.val rank.val = true) ∧ (s.queuedFor ch.val rank.val = true) ∧ ((s.chan ch.val).owedOf rank.val < (s.chan ch.val).owedLimit))
    ∧ (∃ (s : State) (ch : Fin 12) (rank : Fin 4), ((s.chan ch.val).owedOf rank.val ≠ 0) ∧ (s.queuedFor ch.val rank.val = false))
    ∧ (∃ (s : State) (ch : Fin 12) (lr : Fin 32), (lr.val < s.logicalRanks ch.val) ∧ ((s.chan ch.val).state = 0) ∧ ((s.chan ch.val).unusable.getLsbD lr.val = false) ∧ (s.unitFor { channel := ch.val, whole := false, ranksel := s.rankOfLr ch.val lr.val } = none) ∧ (s.ddr.mcuDown.getLsbD (ch.val / 6) = false)) :=
  ⟨⟨dimms0, (0), (0), by decide +kernel, by decide +kernel, by decide +kernel, by decide +kernel⟩,
   ⟨(dimms0.updChan 0 fun c => { c with queue := [{ tag := 1, master := 0, priority := 4, rt := false, write := false, frame := 0, line := 0, count := 1, aged := false }] }), (0), (0), by decide +kernel, by decide +kernel, by decide +kernel, by decide +kernel, by decide +kernel⟩,
   ⟨(live.updChan 0 fun c => c.setOwed 3 2), (0), (3), by decide +kernel, by decide +kernel⟩,
   ⟨dimms0, (0), (1), by decide +kernel, by decide +kernel, by decide +kernel, by decide +kernel, by decide +kernel⟩⟩

theorem witness_ChannelTrouble :
    (∃ (s : State) (ch : Fin 12) (r : Sys2Proof.TrainResult) (t : State), (s.hasChannel ch.val = true) ∧ (s.training ch.val = true) ∧ ((s.chan ch.val).pendingRate = none) ∧ ((s.chan ch.val).full = false) ∧ (t = s.updChan ch.val (fun c => { c with dimms := r.spd.foldl (fun t d => Tab.set (fun _ => none) d.1.val (some d.2) t) c.dimms })) ∧ (t.recordOk ch.val r.temp = true) ∧ (r.cachedCheckOk = true) ∧ (r.rdMargin ≥ 20) ∧ (r.wrMargin ≥ 20))
    ∧ (∃ (s : State) (ch : Fin 12), (s.hasChannel ch.val = true))
    ∧ (∃ (s : State) (ch : Fin 12), ((s.chan ch.val).slotStep = .powering))
    ∧ (∃ (s : State) (ch : Fin 12), (s.hasChannel ch.val = true))
    ∧ (∃ (s : State) (die : Fin 2), (s.ev8820 = false ∨ die.val = 0))
    ∧ (∃ (s : State) (ch : Fin 12) (temps : List (Fin 2 × Option Byte)) (b : Byte), ((Tab.get (fun _ => none) (s.chan ch.val).dimms 0).isSome = true) ∧ (temps = [(0, some b)])) :=
  ⟨⟨(recorded), (0), ({ cachedCheckOk := true, rankOk := 0xFFFFFFFF, rdMargin := 20, wrMargin := 20, temp := 60, rfm := false, noSpares := [] }), _, by decide +kernel, by decide +kernel, by decide +kernel, by decide +kernel, rfl, recorded_ok, by decide +kernel, by decide +kernel, by decide +kernel⟩,
   ⟨(live), (0), by decide +kernel⟩,
   ⟨(live.updChan 0 fun c => { c with slotStep := .powering }), (0), by decide +kernel⟩,
   ⟨(live), (0), by decide +kernel⟩,
   ⟨(live), (1), by decide +kernel⟩,
   ⟨(live.updChan 0 fun c => { c with dimms := Tab.set (fun _ => none) 0 (some { threeDS := false, x8 := false, density := 0, ranks2 := false, height := 0, rate := 7200, id := 1 }) c.dimms }), (0), _, (82), by decide +kernel, rfl⟩⟩

theorem witness_FlitsJudged :
    (∃ (s : State) (m : Fin 4) (e : LaceEnd) (f : Flit), (s.hasModule m.val = true) ∧ ((s.laceMod m.val).state ≠ 0) ∧ ((s.laceMod m.val).state ≠ 4) ∧ (s.laceInj 5 m.val e = none) ∧ (s.laceInj 6 m.val e = none) ∧ (s.laceInj 7 m.val e = none) ∧ (f.crcOk = true) ∧ ((s.side m.val e).ackValid f.acknak f.ackSeq = true))
    ∧ (∃ (s : State) (m : Fin 4) (e : LaceEnd) (f : Flit), (s.hasModule m.val = true) ∧ ((s.laceMod m.val).state ≠ 0) ∧ (s.laceInj 5 m.val e = none) ∧ (s.laceInj 6 m.val e = none) ∧ (f.crcOk = false)) :=
  ⟨⟨(live), (0), (.hub), (blank), by decide +kernel, by decide +kernel, by decide +kernel, by decide +kernel, by decide +kernel, by decide +kernel, blank_ok, by decide +kernel⟩,
   ⟨(live), (0), (.die), ({ blank with crc := 1 }), by decide +kernel, by decide +kernel, by decide +kernel, by decide +kernel, blank_bad⟩⟩

theorem witness_DieMessages :
    (∃ (s : State) (m : Fin 4) (r : ReqSlot), (s.carries m.val r.channel.val = true))
    ∧ (∃ (s : State) (m : Fin 4) (r : ReqSlot), (s.carries m.val r.channel.val = true) ∧ (channelOf s.w r.frame.toNat = r.channel.val))
    ∧ (∃ (s : State) (m : Fin 4) (ch : Fin 12), (s.carries m.val ch.val = true))
    ∧ (∃ (s : State) (m : Fin 4) (num : Sys2Proof.W16) (source : BitVec 11), (s.hasModule m.val = true) ∧ (1024 + 512 * (m.val / 2) ≤ source.toNat) ∧ (source.toNat < 1024 + 512 * (m.val / 2) + 384) ∧ ((s.laceMod m.val).events.contains num = false))
    ∧ (∃ (s : State) (m : Fin 4) (entries : List LineEntry), (s.hasModule m.val = true) ∧ (countOk entries.length = true))
    ∧ (∃ (s : State) (m : Fin 4) (tags : List (BitVec 13)), (s.hasModule m.val = true) ∧ (countOk tags.length = true))
    ∧ (∃ (s : State) (m : Fin 4), (s.hasModule m.val = true))
    ∧ (∃ (s : State) (m : Fin 4) (nums : List W16), (s.hasModule m.val = true) ∧ (countOk nums.length = true)) :=
  ⟨⟨(live), (0), (readSlot), by decide +kernel⟩,
   ⟨(live), (0), (readSlot), by decide +kernel, by decide +kernel⟩,
   ⟨(live), (0), (0), by decide +kernel⟩,
   ⟨(live), (0), (0xFFFF), (1407), by decide +kernel, by decide +kernel, by decide +kernel, by decide +kernel⟩,
   ⟨(live), (0), ([{ tag := 1, last := true, upset := calm }]), by decide +kernel, by decide +kernel⟩,
   ⟨(live), (0), ([1, 2, 3, 4, 5, 6, 7]), by decide +kernel, by decide +kernel⟩,
   ⟨(live), (3), by decide +kernel⟩,
   ⟨(live), (0), ([0]), by decide +kernel, by decide +kernel⟩⟩

theorem witness_LaceTimers :
    (∃ (s : State) (m : Fin 4) (e : LaceEnd), (s.laceUp m.val = true) ∧ ((s.side m.val e).sinceAck > 0))
    ∧ (∃ (s : State) (m : Fin 4), (s.laceUp m.val = true))
    ∧ (∃ (s : State) (m : Fin 4) (e : LaceEnd) (t : Sys2Proof.Machine.State), (s.laceUp m.val = true) ∧ ((s.side m.val e).replay ≠ []) ∧ (t = raiseFencing { Ev.of (srcLace m.val 1) with detail := [m.val, if e = .hub then 0 else 1, (s.side m.val e).oldest] } (.module m.val) ((s.replayFrom m.val e (s.side m.val e).oldest).updSide m.val e fun d => { d with timeouts := d.timeouts + 1 })))
    ∧ (∃ (s : State) (m : Fin 4) (e : LaceEnd), (s.laceUp m.val = true) ∧ ((s.side m.val e).leakRun = true) ∧ ((s.laceMod m.val).leakScheduled = false))
    ∧ (∃ (s : State) (m : Fin 4), (s.laceUp m.val = true) ∧ ((s.laceMod m.val).leakScheduled = true))
    ∧ (∃ (s : State) (m : Fin 4), (s.laceUp m.val = true))
    ∧ (∃ (s : State) (m : Fin 4), (s.hasModule m.val = true) ∧ ((s.laceMod m.val).state = 3))
    ∧ (∃ (s : State) (die : Fin 2), (s.hasModule (2 * die.val) = true) ∧ ((s.laceMod (2 * die.val)).state = 4) ∧ ((s.laceMod (partner (2 * die.val))).state ≠ 4) ∧ ((s.laceMod (partner (2 * die.val))).state ≠ 0) ∧ ((s.laceMod (partner (2 * die.val))).carryAll = false))
    ∧ (∃ (s : State) (m : Fin 4), (s.hasModule m.val = true) ∧ ((s.laceMod m.val).state = 4) ∧ ((s.laceMod (partner m.val)).carryAll = true) ∧ ((s.laceMod m.val).returnAttempts < 16) ∧ ((s.laceMod m.val).soaking = false) ∧ ((s.laceMod m.val).returning = false))
    ∧ (∃ (s : State) (m : Fin 4), ((s.laceMod m.val).soaking = true)) :=
  ⟨⟨(live.updSide 0 .hub fun d => { d with sinceAck := 1 }), (0), (.hub), by decide +kernel, by decide +kernel⟩,
   ⟨(live), (0), by decide +kernel⟩,
   ⟨(live.updSide 0 .hub fun d => { d with replay := [{ seq := 0, cls := .req, msgs := [] }] }), (0), (.hub), _, by decide +kernel, by decide +kernel, rfl⟩,
   ⟨(live.updSide 0 .hub fun d => { d with leakRun := true }), (0), (.hub), by decide +kernel, by decide +kernel, by decide +kernel⟩,
   ⟨(live.updLaceMod 0 fun m => { m with leakScheduled := true }), (0), by decide +kernel, by decide +kernel⟩,
   ⟨(live), (0), by decide +kernel⟩,
   ⟨(live.updLaceMod 3 fun m => { m with state := 3 }), (3), by decide +kernel, by decide +kernel⟩,
   ⟨((live.updLaceMod 0 fun m => { m with state := 4 }).updLaceMod 1 fun m => { m with state := 2 }), (0), by decide +kernel, by decide +kernel, by decide +kernel, by decide +kernel, by decide +kernel⟩,
   ⟨((live.updLaceMod 0 fun m => { m with state := 4, returnAttempts := 15 }).updLaceMod 1 fun m => { m with state := 2, carryAll := true }), (0), by decide +kernel, by decide +kernel, by decide +kernel, by decide +kernel, by decide +kernel, by decide +kernel⟩,
   ⟨(live.updLaceMod 3 fun m => { m with soaking := true }), (3), by decide +kernel⟩⟩

theorem witness_ShadowEvents :
    (∃ (s : State) (q : Sys2Proof.Machine.QEntry) (rest : List Sys2Proof.Machine.QEntry), (s.canRecord = true) ∧ (s.shank.queue = q :: rest) ∧ (s.repairWaits q.dpn = false) ∧ ((s.slot (s.entry q.dpn).key.toNat).state = .loaded) ∧ ((s.slot (s.entry q.dpn).key.toNat).persistent = false) ∧ (s.shank.emergency = false) ∧ ((s.entry q.dpn).state = .hot) ∧ ((s.entry q.dpn).dirty = true) ∧ (q.kind = .changed) ∧ (s.writePending q.dpn = false) ∧ ((s.idleEngine 0).isSome = true ∨ s.allFenced 0 = true))
    ∧ (∃ (s : State) (n : Fin 4) (id : ℕ) (w : Sys2Proof.Machine.RecWrite), ((s.drive n.val).commands.contains id = true) ∧ ((s.shank.writes.find? fun w => decide (w.page.lsn = id)) = some w) ∧ ((s.updDrive n.val fun x => { x with commands := x.commands.erase id, written := x.written + 64 * (1 + w.page.granules.length) }).driveWaits id = false))
    ∧ (∃ (s : State), (s.shank.imageExists = true) ∧ (s.shank.saveStep = 0) ∧ (s.shank.saveDone = false))
    ∧ (∃ (s : State) (e : ℕ) (rest : List ℕ), (s.shank.epochEnded = e :: rest) ∧ (s.epochOpen e = false) ∧ (s.shank.imageExists = true) ∧ (s.shank.saveFailed = false) ∧ (s.shank.harden = []))
    ∧ (∃ (s : State) (d : Sys2Proof.Dpn) (t : Sys2Proof.Machine.State), (s.canRecord = true) ∧ (s.inSave = false) ∧ (s.nextDurable s.shank.lapPos = some d) ∧ (t = s.mapShank (fun k => { k with lapPos := d.toNat + 1 })) ∧ ((s.slot (s.entry d).key.toNat).state = .loaded) ∧ ((s.slot (s.entry d).key.toNat).persistent = false) ∧ (t.repairWaits d = false) ∧ ((s.entry d).state ≠ .restoring))
    ∧ (∃ (s : State) (sat : Option ℕ) (t : Sys2Proof.Machine.State), (t = (List.range 4).foldl (fun (s : State) n => s.updDrive n fun d => { d with rate := d.written / 100000000, written := 0 }) (s.mapShank fun k => { k with rFlushLog := (sat :: k.rFlushLog).take 60, rFlush := match (((sat :: k.rFlushLog).take 60).filterMap id).foldl (fun m x => match m with | none => some x | some y => some (min x y)) none with | some x => x | none => k.rFlush })))
    ∧ (∃ (s : State) (b : Sys2Proof.Board), (s.holdup = some b)) :=
  ⟨⟨((shadowing.setTableEntry 5 { hotEntry with dirty := true, key := 1 }).updSlot 1 (fun x => { x with state := .loaded }) |>.mapShank fun k => { k with queue := [{ dpn := 5, kind := .changed, serial := 0 }] }), _, _, by decide +kernel, rfl, by decide +kernel, by decide +kernel, by decide +kernel, by decide +kernel, by decide +kernel, by decide +kernel, by decide +kernel, by decide +kernel, by decide +kernel⟩,
   ⟨((shadowing.mapShank fun k => { k with writes := [{ page := zeroRec, amount := 1 }] }).updDrive 3 fun d => { d with commands := [0] }), (3), (0), _, by decide +kernel, (Option.some_get (by decide +kernel)).symm, by decide +kernel⟩,
   ⟨(shadowing), by decide +kernel, by decide +kernel, by decide +kernel⟩,
   ⟨(shadowing.mapShank fun k => { k with epochEnded := [1] }), _, _, rfl, by decide +kernel, by decide +kernel, by decide +kernel, by decide +kernel⟩,
   ⟨((shadowing.setTableEntry 5 { hotEntry with key := 1 }).updSlot 1 fun x => { x with state := .loaded }), _, _, by decide +kernel, by decide +kernel, (Option.some_get (by decide +kernel)).symm, rfl, by decide +kernel, by decide +kernel, by decide +kernel, by decide +kernel⟩,
   ⟨(live), (some 5), _, rfl⟩,
   ⟨(live.mapPower fun p => { p with board := some board, boardOk := true }), _, (Option.some_get (by decide +kernel)).symm⟩⟩

theorem witness_SaveSteps :
    (∃ (s : State) (head : Fin 4), ((s.headOf head.val).up = true))
    ∧ (∃ (s : State) (head : Fin 4) (t : Sys2Proof.Machine.State), ((s.headOf head.val).up = true) ∧ (s.shank.saveStep = 1) ∧ (s.shank.emergency = false) ∧ (t = (s.emit (.port head "gpf phase 2 complete" 0)).mapShank (fun k => { k with gpfHeads := k.gpfHeads ||| (1#4 <<< head.val) })))
    ∧ (∃ (s : State) (t : Sys2Proof.Machine.State), (s.shank.saveDone = false) ∧ (s.shank.saveStep = 0) ∧ (s.inResume = false) ∧ (t = ((s.countShank 4).mapShank fun k => { k with saveStep := 1, pwrfailLow := true, gpfHeads := 0 }).mapPower (fun p => { p with state := 1 })))
    ∧ (∃ (s : State), (s.shank.saveStep = 1) ∧ (s.shank.emergency = false))
    ∧ (∃ (s : State), (s.shank.saveStep = 2) ∧ (s.imageUntouched = false) ∧ (s.shank.queue = []) ∧ (s.shank.writes = []))
    ∧ (∃ (s : State) (t : Sys2Proof.Machine.State), (s.shank.saveStep = 3) ∧ (t = ((if s.saveClean then s.countShank 5 else s).mapShank fun k => { k with saveStep := 4, saveDone := true })))
    ∧ (∃ (s : State) (t : Sys2Proof.Machine.State), (s.shank.saveDone = true) ∧ (s.shank.savedParity = false) ∧ (t = (s.welt.pcache.filter (·.dirty)).foldl (fun s p => s.writeBackParity p) s))
    ∧ (∃ (s : State) (t : Sys2Proof.Machine.State), (s.shank.pwrfailLow = true) ∧ (s.shank.saveStep = 1) ∧ (s.shank.emergency = false) ∧ (t = ((s.mapShank fun k => { k with pwrfailLow := false }).mapShank fun k => { k with saveStep := 0, gpfHeads := 0 })))
    ∧ (∃ (s : State) (r t u : Sys2Proof.Machine.State), (s.shank.saveDone = true) ∧ (s.shank.savedParity = true) ∧ (s.shank.pwrfailLow = false) ∧ (s.power.pwrgood = true) ∧ (r = s.mapShank (fun k => { k with saveStep := 0, saveDone := false, savedParity := false, emergency := false, gpfHeads := 0 })) ∧ (t = (if s.shank.saveFailed then r.loseImage else r.refreshSupers false)) ∧ (u = (List.range t.channels).foldl (fun (s : State) c => s.setSelfRefresh c false) t)) :=
  ⟨⟨(live), (0), by decide +kernel⟩,
   ⟨(saving 1), (0), _, by decide +kernel, by decide +kernel, by decide +kernel, rfl⟩,
   ⟨(shadowing), _, by decide +kernel, by decide +kernel, by decide +kernel, rfl⟩,
   ⟨(saving 1), by decide +kernel, by decide +kernel⟩,
   ⟨(saving 2), by decide +kernel, by decide +kernel, by decide +kernel, by decide +kernel⟩,
   ⟨(saving 3), _, by decide +kernel, rfl⟩,
   ⟨((saving 4).mapShank fun k => { k with saveDone := true }), _, by decide +kernel, by decide +kernel, rfl⟩,
   ⟨((saving 1).mapShank fun k => { k with pwrfailLow := true }), _, by decide +kernel, by decide +kernel, by decide +kernel, rfl⟩,
   ⟨((saving 4).mapShank fun k => { k with saveDone := true, savedParity := true }), _, _, _, by decide +kernel, by decide +kernel, by decide +kernel, by decide +kernel, rfl, rfl, rfl⟩⟩

theorem witness_DriveEvents :
    (∃ (s : State) (n : Fin 4), (s.inSave = true) ∧ (s.shank.saveDone = false) ∧ (s.driveWrites n.val = true))
    ∧ (∃ (s : State) (n : Fin 4), (s.driveWrites n.val = true) ∧ (s.inSave = false))
    ∧ (∃ (s : State) (n : Fin 4) (blocks : ℕ) (t : Sys2Proof.Machine.State), (s.shank.failedMember = some n) ∧ ((s.drive n.val).state = 3) ∧ (s.inSave = false) ∧ (s.inResume = false) ∧ (t = s.updDrive n.val (fun d => { d with rebuilt := min s.driveBlocks (d.rebuilt + blocks) })) ∧ ((t.drive n.val).rebuilt ≥ t.driveBlocks))
    ∧ (∃ (s : State), (s.shank.imageExists = false) ∧ (s.inSave = false) ∧ (s.holdup.isSome = true) ∧ (s.fitDrives ≠ []) ∧ (s.resume.image = 0)) :=
  ⟨⟨((saving 2).updDrive 3 fun d => { d with state := 1 }), (3), by decide +kernel, by decide +kernel, by decide +kernel⟩,
   ⟨(shadowing.updDrive 3 fun d => { d with state := 3 }), (3), by decide +kernel, by decide +kernel⟩,
   ⟨((shadowing.updDrive 3 fun d => { d with state := 3 }).mapShank fun k => { k with failedMember := some 3 }), (3), (0), _, by decide +kernel, by decide +kernel, by decide +kernel, by decide +kernel, rfl, by decide +kernel⟩,
   ⟨((live.mapPower fun p => { p with board := some board, boardOk := true }).updDrive 3 fun d => { d with fit := true }), by decide +kernel, by decide +kernel, by decide +kernel, by decide +kernel, by decide +kernel⟩⟩

theorem witness_Resets :
    (∃ (b : BringUp), (b.wf = true))
    ∧ (∃ (s : State), (s.power.pwrgood = true) ∧ (s.power.resetNLow = false) ∧ (s.shank.saveDone = false))
    ∧ (∃ (s : State) (p : Fin 2), (s.hasHead (2 * p.val) = true) ∧ (s.port.perstLow.getLsbD p.val = true))
    ∧ (∃ (s : State) (p : Fin 2) (a : Sys2Proof.Machine.State) (b : Sys2Proof.Machine.State), (s.hasHead (2 * p.val) = true) ∧ (s.port.perstLow.getLsbD p.val = false) ∧ (a = [2 * p.val, 2 * p.val + 1].foldl (fun (s : State) h => if (s.headOf h).up then (raise { Ev.of (srcPort p.val 0) with detail := [h] } s).headDown h else s) (s.mapPort fun x => { x with perstLow := x.perstLow ||| (1#2 <<< p.val) })) ∧ (b = [2 * p.val, 2 * p.val + 1].foldl (fun (s : State) h => s.updHeadOf h fun x => { headReset with maxRate := x.maxRate, rateWait := x.rateWait }) a)) :=
  ⟨⟨(bring), by decide +kernel⟩,
   ⟨(live), by decide +kernel, by decide +kernel, by decide +kernel⟩,
   ⟨(live.mapPort fun p => { p with perstLow := 3 }), (1), by decide +kernel, by decide +kernel⟩,
   ⟨(live), (1), _, _, by decide +kernel, by decide +kernel, rfl, rfl⟩⟩

theorem witness_ResumeEvents :
    (∃ (s : State) (t : Sys2Proof.Machine.State) (u : Sys2Proof.Machine.State) (fresh : ℕ), (s.resume.initGroups + 1 < s.poolGroups) ∧ (s.resume.tableZeroed = true) ∧ (s.inSave = false) ∧ (s.power.bringup = 6) ∧ (s.capacityUp = true) ∧ ((List.range s.channels).all (fun c => !decide ((s.chan c).state = 2 ∧ (s.chanUnit c).isNone)) = true) ∧ (fresh = ((s.dataMembers s.resume.initGroups).filter fun f => decide ((s.frameRec f).kind = .free) && decide (s.place f = .at f)).length) ∧ (t = (s.charge mRestore (chargeRead (64 * s.w))).mapResume (fun r => { r with initGroups := s.resume.initGroups + 1, initDone := decide (s.resume.initGroups + 1 = s.poolGroups) })) ∧ (u = t.mapTier (fun x => { x with freeFrames := x.freeFrames + fresh })))
    ∧ (∃ (s : State), (s.resume.imageStep = 0) ∧ (s.shank.imageExists = false) ∧ (s.inSave = false) ∧ (s.inResume = true))
    ∧ (∃ (s : State), (s.resume.imageStep = 1) ∧ (s.inSave = false) ∧ (s.image.log = []))
    ∧ (∃ (s : State) (v : ℕ × ℕ) (rest : List (ℕ × ℕ)) (blocks : ℕ), (s.shank.voids = v :: rest) ∧ (s.inSave = false) ∧ (s.resume.imageStep = 2) ∧ ((s.shank.voidBlocks + blocks) * 64 < v.2 - v.1))
    ∧ (∃ (s : State) (v : ℕ × ℕ) (rest : List (ℕ × ℕ)) (blocks : ℕ), (s.shank.voids = v :: rest) ∧ (s.inSave = false) ∧ (s.resume.imageStep = 2) ∧ (v.2 - v.1 ≤ (s.shank.voidBlocks + blocks) * 64))
    ∧ (∃ (s : State) (x : Sys2Proof.Machine.RExtent) (d : Sys2Proof.Dpn) (r : Sys2Proof.Machine.Record), (s.inSave = false) ∧ (s.resume.imageStep = 2) ∧ ((s.resume.extents.find? fun x => decide (x.state = .running)) = some x) ∧ ((s.resume.index.find? fun p => x.has p.1) = some (d, r)) ∧ (r.form = .zero) ∧ (r.bad = false))
    ∧ (∃ (s : State) (x : Sys2Proof.Machine.RExtent), (s.inSave = false) ∧ (s.resume.level ≠ 0) ∧ ((s.resume.extents.find? fun x => decide (x.state = .running)) = some x) ∧ (s.extentLeft x = false)) :=
  ⟨⟨(live.mapResume fun r => { r with level := 0, initGroups := 0, tableZeroed := true, initDone := false }), _, _, _, by decide +kernel, by decide +kernel, by decide +kernel, by decide +kernel, by decide +kernel, by decide +kernel, rfl, rfl, rfl⟩,
   ⟨(live.mapResume fun r => { r with level := 1, imageStep := 0 }), by decide +kernel, by decide +kernel, by decide +kernel, by decide +kernel⟩,
   ⟨(live.mapResume fun r => { r with level := 1, imageStep := 1 }), by decide +kernel, by decide +kernel, by decide +kernel⟩,
   ⟨(live.mapShank fun k => { k with voids := [(0, 128)] }), _, _, (1), rfl, by decide +kernel, by decide +kernel, by decide +kernel⟩,
   ⟨(live.mapShank fun k => { k with voids := [(0, 128)] }), _, _, (2), rfl, by decide +kernel, by decide +kernel, by decide +kernel⟩,
   ⟨(live.mapResume fun r => { r with level := 2, extents := [{ entries := [region], state := .running }], index := [(5, zeroRec)] }), _, _, _, by decide +kernel, by decide +kernel, (Option.some_get (by decide +kernel)).symm, some_pair (by decide +kernel), by decide +kernel, by decide +kernel⟩,
   ⟨(live.mapResume fun r => { r with level := 2, extents := [{ entries := [region], state := .running }] }), _, by decide +kernel, by decide +kernel, (Option.some_get (by decide +kernel)).symm, by decide +kernel⟩⟩

theorem witness_LinkEvents :
    (∃ (s : State) (head : Fin 4) (l : LinkState) (k : Sys2Proof.LinkState) (t : Sys2Proof.Machine.State), (s.mayTrain head.val = true) ∧ (l.width ≠ 0) ∧ ((s.headOf head.val).up = false) ∧ (k = s.reached head.val l) ∧ (k.mld = false) ∧ (k.width.val = (s.setLink head.val k).fullWidth head.val) ∧ (t = (((s.setLink head.val k).checkHeadMargin head.val k).rateWaitEnds head.val).mapResume (fun r => { r with upspeed := Tab.set (fun _ => 0) head.val 0 r.upspeed })))
    ∧ (∃ (s : State) (head : Fin 4), ((s.headOf head.val).up = true) ∧ ((raise { Ev.of (srcPort (portOfHead head.val) 0) with detail := [head.val] } s).headOf head.val = { s.headOf head.val with rateWait := none }))
    ∧ (∃ (s : State) (head : Fin 4) (l : Sys2Proof.LinkState), ((s.headOf head.val).link = some l) ∧ (s.resume.level ≠ 0) ∧ (s.inSave = false) ∧ (Tab.get (fun _ => 0) s.resume.upspeed head.val < 3) ∧ (l.rate ≠ 3) ∧ (l.flit256 = true) ∧ (s.headCap head.val ≥ 3) ∧ ((s.headOf head.val).rateWait = none)) :=
  ⟨⟨(live), (2), ({ rate := 3, width := 16, flit256 := true, latencyOpt := true, mld := false, margin := 30 }), _, _, by decide +kernel, by decide +kernel, by decide +kernel, rfl, by decide +kernel, by decide +kernel, rfl⟩,
   ⟨(live), (0), by decide +kernel, by decide +kernel⟩,
   ⟨(live.updHeadOf 0 fun h => { h with link := some { rate := 2, width := 16, flit256 := true, latencyOpt := false, mld := false, margin := 30 } }), (0), _, (Option.some_get (by decide +kernel)).symm, by decide +kernel, by decide +kernel, by decide +kernel, by decide +kernel, by decide +kernel, by decide +kernel,
    by decide +kernel⟩⟩

theorem witness_FunctionEvents :
    (∃ (s : State) (head : Fin 4) (width : Fin 17) (l : Sys2Proof.LinkState), ((s.headOf head.val).link = some l) ∧ (l.flit256 = true) ∧ (l.rate.val ≥ 2) ∧ ((width.val = l.width.val ∨ (width.val < l.width.val ∧ [2, 4, 8].contains width.val = true))))
    ∧ (∃ (s : State) (fn : Fin 36), (s.hasFn fn.val = true))
    ∧ (∃ (s : State) (head : Fin 4) (fn : Fin 36), ((s.headOf head.val).up = true) ∧ (s.hasFn fn.val = true) ∧ (6 ≤ s.power.bringup))
    ∧ (∃ (s : State) (head : Fin 4) (fn : Fin 36), ((s.headOf head.val).up = true) ∧ (s.hasFn fn.val = true) ∧ (s.power.bringup < 6))
    ∧ (∃ (s : State) (fn : Fin 36) (offset : BitVec 25), (s.hasFn fn.val = true) ∧ (registerRegion offset.toNat = true))
    ∧ (∃ (s : State) (fn : Fin 36) (offset : BitVec 25), (s.hasFn fn.val = true) ∧ ((fn.val < 32 → (s.fn fn.val).bound = true)) ∧ (offset.toNat % 8 = 0))
    ∧ (∃ (s : State) (fn : Fin 36) (offset : BitVec 25), (s.hasFn fn.val = true) ∧ ((fn.val < 32 → (s.fn fn.val).bound = true)) ∧ (offset.toNat % 4 = 0) ∧ (only64 offset.toNat = false))
    ∧ (∃ (s : State) (fn : Fin 36) (offset : BitVec 25), (s.hasFn fn.val = true) ∧ ((fn.val < 32 → (s.fn fn.val).bound = true)) ∧ (only64 offset.toNat = true))
    ∧ (∃ (s : State) (ld : Fin 32) (i : Byte) (v : ℕ) (t : ℕ), (s.hasLd ld.val = true) ∧ (s.world.normal = .up) ∧ (doeProtocols[i.toNat]? = some (v, t)))
    ∧ (∃ (s : State) (ld : Fin 32) (i : Byte), (s.hasLd ld.val = true) ∧ (s.world.normal = .up) ∧ (doeProtocols.length ≤ i.toNat))
    ∧ (∃ (s : State) (ld : Fin 32), (s.hasLd ld.val = true) ∧ (s.world.normal = .up)) :=
  ⟨⟨(live), (0), (16), _, (Option.some_get (by decide +kernel)).symm, by decide +kernel, by decide +kernel, by decide +kernel⟩,
   ⟨(live), (35), by decide +kernel⟩,
   ⟨(live), (0), (35), by decide +kernel, by decide +kernel, by decide +kernel⟩,
   ⟨(live.mapPower fun p => { p with bringup := 5 }), (0), (35), by decide +kernel, by decide +kernel, by decide +kernel⟩,
   ⟨(live), (35), (0x1F000), by decide +kernel, by decide +kernel⟩,
   ⟨(live), (35), (8), by decide +kernel, by decide, by decide +kernel⟩,
   ⟨(live), (0), (0x61F014), by decide +kernel, by decide +kernel, by decide +kernel, by decide +kernel⟩,
   ⟨(live), (0), (0x1300000), by decide +kernel, by decide +kernel, by decide +kernel⟩,
   ⟨(live), (31), (0), _, _, by decide +kernel, by decide +kernel, some_pair (by decide +kernel)⟩,
   ⟨(live), (31), (255), by decide +kernel, by decide +kernel, by decide +kernel⟩,
   ⟨(live), (31), by decide +kernel, by decide +kernel⟩⟩

theorem witness_QueueEvents :
    (∃ (s : State) (ld : Fin 32) (page : Fin 64) (value : W64) (pasid : Option (BitVec 20)) (stamp : Option (BitVec 20)) (c : Sys2Proof.Machine.QueueCtx) (t : Sys2Proof.Machine.State), (s.path.fenced = false) ∧ (s.hasLd ld.val = true) ∧ ((s.fn ld.val).bound = true) ∧ (stampOf (s.bindOf ld.val page.val) pasid = some stamp) ∧ (t = s.useCtx (BitVec.ofNat 20 (fld value 44 20)) ld.val false) ∧ (t.ctx (BitVec.ofNat 20 (fld value 44 20)).toNat = some c) ∧ (c.state = .active) ∧ (c.ld = ld) ∧ (c.pasid = stamp) ∧ (fld value 0 16 < 2 ^ c.log2) ∧ ((fld value 0 16 + 2 ^ c.log2 - c.sqTail) % 2 ^ c.log2 ≠ 0) ∧ (c.opened + (fld value 0 16 + 2 ^ c.log2 - c.sqTail) % 2 ^ c.log2 < 2 ^ c.log2))
    ∧ (∃ (s : State) (q : BitVec 20) (ds : List Descriptor) (c : Sys2Proof.Machine.QueueCtx) (t : Sys2Proof.Machine.State), (s.ctx q.toNat = some c) ∧ (s.path.fenced = false) ∧ (c.state = .active) ∧ (ds.length ≠ 0) ∧ (ds.length ≤ (c.sqTail + 2 ^ c.log2 - c.sqFetch) % 2 ^ c.log2) ∧ (t = s.useCtx q c.ld.val true))
    ∧ (∃ (s : State) (q : BitVec 20) (c : Sys2Proof.Machine.QueueCtx) (x : Sys2Proof.Machine.Exec) (xs : List Sys2Proof.Machine.Exec), (s.ctx q.toNat = some c) ∧ (c.execs = x :: xs) ∧ (s.path.fenced = false) ∧ (x.isFence = true) ∧ (x.finished = none))
    ∧ (∃ (s : State) (q : BitVec 20) (c : Sys2Proof.Machine.QueueCtx) (id : Sys2Proof.W16) (x : Sys2Proof.Machine.Exec) (st : Sys2Proof.W16) (bytes : Sys2Proof.W32), (s.ctx q.toNat = some c) ∧ ((c.execs.find? fun x => decide (x.id = id)) = some x) ∧ (x.finished = some (st, bytes)) ∧ (s.path.fenced = false) ∧ (c.failed = false))
    ∧ (∃ (s : State) (q : BitVec 20) (c : Sys2Proof.Machine.QueueCtx), (s.ctx q.toNat = some c) ∧ (c.pendingInts > 0) ∧ (s.path.fenced = false))
    ∧ (∃ (s : State) (q : BitVec 20) (c : Sys2Proof.Machine.QueueCtx) (m : Sys2Proof.Msg), (s.ctx q.toNat = some c) ∧ (c.state = .draining) ∧ (c.execs = []) ∧ (s.path.fenced = false) ∧ (c.destroyer = some m)) :=
  ⟨⟨(queued (live.updPoqLd 0 fun x => { x with binds := [(63, (3, 0))] }) (queue [])), (0), (63), (0x300000000002), (none), _, _, _, by decide +kernel, by decide +kernel, by decide +kernel, (Option.some_get (by decide +kernel)).symm, rfl, (Option.some_get (by decide +kernel)).symm, by decide +kernel, by decide +kernel, by decide +kernel, by decide +kernel, by decide +kernel, by decide +kernel⟩,
   ⟨(queued live (queue [])), (3), ([desc 1]), _, _, (Option.some_get (by decide +kernel)).symm, by decide +kernel, by decide +kernel, by decide +kernel, by decide +kernel, rfl⟩,
   ⟨(queued live (queue [running 11])), (3), _, _, _, (Option.some_get (by decide +kernel)).symm, rfl, by decide +kernel, by decide +kernel, by decide +kernel⟩,
   ⟨(queued live (queue [{ running 1 with finished := some (0, 4096) }])), (3), _, (1), _, _, _, (Option.some_get (by decide +kernel)).symm, (Option.some_get (by decide +kernel)).symm, some_pair (by decide +kernel), by decide +kernel, by decide +kernel⟩,
   ⟨(queued live { queue [] with pendingInts := 1 }), (3), _, (Option.some_get (by decide +kernel)).symm, by decide +kernel, by decide +kernel⟩,
   ⟨(queued live { queue [] with state := .draining, destroyer := some mb }), (3), _, _, (Option.some_get (by decide +kernel)).symm, by decide +kernel, by decide +kernel, by decide +kernel, (Option.some_get (by decide +kernel)).symm⟩⟩

theorem witness_QueueOperations :
    (∃ (s : State) (q : BitVec 20) (id : W16) (ld : Nat) (x : Exec), (s.running q id 1 = some (ld, x)))
    ∧ (∃ (s : State) (q : BitVec 20) (id : W16) (ld : Nat) (x : Exec), (s.running q id 2 = some (ld, x)))
    ∧ (∃ (s : State) (q : BitVec 20) (id : W16) (ld : Nat) (x : Exec) (t : Sys2Proof.Machine.Target), (s.running q id 3 = some (ld, x)) ∧ (x.d.len = 4096) ∧ (x.pos = 0) ∧ (x.dataLost = false) ∧ (s.poqTarget ld x.d.dpa.toNat = some t) ∧ (x.passed = [] → s.poqCheck ld t.dpn true = (none, s)) ∧ ((s.entry t.dpn).state = .hot) ∧ ((s.entry t.dpn).pinned = false) ∧ (s.tier.pinnedPages + 1 ≤ s.tier.pinMax))
    ∧ (∃ (s : State) (q : BitVec 20) (id : W16) (ld : Nat) (x : Exec) (t : Sys2Proof.Machine.Target), (s.running q id 4 = some (ld, x)) ∧ (x.d.len = 4096) ∧ (x.pos = 0) ∧ (x.dataLost = false) ∧ (s.poqTarget ld x.d.dpa.toNat = some t) ∧ (x.passed = [] → s.poqCheck ld t.dpn true = (none, s)) ∧ ((s.entry t.dpn).state = .hot))
    ∧ (∃ (s : State) (q : BitVec 20) (id : W16) (hint : Frame) (ld : Nat) (x : Exec) (t : Sys2Proof.Machine.Target) (u : Sys2Proof.Machine.State), (s.running q id 5 = some (ld, x)) ∧ (x.d.len = 4096) ∧ (x.pos = 0) ∧ (x.acting = false) ∧ (s.poqTarget ld x.d.dpa.toNat = some t) ∧ (x.passed = [] → s.poqCheck ld t.dpn true = (none, s)) ∧ ((s.entry t.dpn).state = .warm) ∧ (s.tier.freeFrames > s.reserveFrames) ∧ (s.startMigration .poqPromotion t.dpn hint = some u))
    ∧ (∃ (s : State) (q : BitVec 20) (id : W16) (hint : Frame) (ld : Nat) (x : Exec) (t : Sys2Proof.Machine.Target) (u : Sys2Proof.Machine.State), (s.running q id 6 = some (ld, x)) ∧ (x.d.len = 4096) ∧ (x.pos = 0) ∧ (x.acting = false) ∧ (s.poqTarget ld x.d.dpa.toNat = some t) ∧ (x.passed = [] → s.poqCheck ld t.dpn true = (none, s)) ∧ ((s.entry t.dpn).state = .hot) ∧ ((s.entry t.dpn).pinned = false) ∧ (s.allFenced 0 = false) ∧ (s.startMigration .demotion t.dpn hint = some u)) :=
  ⟨⟨(queued (mapped.setTableEntry 5 hotEntry) (queue [running 1])), (3), (1), _, _, some_pair (by decide +kernel)⟩,
   ⟨(queued (mapped.setTableEntry 5 hotEntry) (queue [running 2])), (3), (1), _, _, some_pair (by decide +kernel)⟩,
   ⟨(queued (mapped.setTableEntry 5 hotEntry) (queue [running 3])), (3), (1), (0), (running 3), _, by decide +kernel, by decide +kernel, by decide +kernel, by decide +kernel, (Option.some_get (by decide +kernel)).symm, fun _ => rfl, by decide +kernel, by decide +kernel, by decide +kernel⟩,
   ⟨(queued (mapped.setTableEntry 5 hotEntry) (queue [running 4])), (3), (1), (0), (running 4), _, by decide +kernel, by decide +kernel, by decide +kernel, by decide +kernel, (Option.some_get (by decide +kernel)).symm, fun _ => rfl, by decide +kernel⟩,
   ⟨(queued (mapped.setTableEntry 5 { warmEntry with c0 := Chunk.none }) (queue [running 5])), (3), (1), (25), (0), (running 5), _, _, by decide +kernel, by decide +kernel, by decide +kernel, by decide +kernel, (Option.some_get (by decide +kernel)).symm, fun _ => rfl, by decide +kernel, by decide +kernel, (Option.some_get (by decide +kernel)).symm⟩,
   ⟨(queued (mapped.setTableEntry 5 hotEntry) (queue [running 6])), (3), (1), (0), (0), (running 6), _, _, by decide +kernel, by decide +kernel, by decide +kernel, by decide +kernel, (Option.some_get (by decide +kernel)).symm, fun _ => rfl, by decide +kernel, by decide +kernel, by decide +kernel, (Option.some_get (by decide +kernel)).symm⟩⟩

theorem witness_QueueTransfers :
    (∃ (s : State) (q : BitVec 20) (id : W16) (ld : Nat) (x : Exec) (st : Sys2Proof.W16) (n : ℕ) (b : Sys2Proof.Byte) (bs : List Sys2Proof.Byte) (t : Sys2Proof.Machine.State), (s.running q id 8 = some (ld, x)) ∧ (s.rangeBusy ld x.d = false) ∧ (x.d.level = 0 ∨ s.allFenced 2 = true) ∧ (x.d.level = 0 → s.coderReady false (.compressOut q id) = true) ∧ (State.compressAll ld x.d (x.d.pages + 1) 0 [] s = ((st, n, b :: bs), t)))
    ∧ (∃ (s : State) (q : BitVec 20) (id : W16) (ld : Nat) (x : Exec) (st : Sys2Proof.W16) (n : ℕ) (b : Sys2Proof.Byte) (bs : List Sys2Proof.Byte) (t : Sys2Proof.Machine.State), (s.running q id 10 = some (ld, x)) ∧ (State.heatAll ld x.d (x.d.pages + 1) 0 [] s = ((st, n, b :: bs), t)))
    ∧ (∃ (s : State) (q : BitVec 20) (id : W16) (ld : Nat) (x : Exec) (bs : List Sys2Proof.Byte) (t : Sys2Proof.Machine.Target) (lines : List Sys2Proof.Line) (used : ℕ), (s.running q id 9 = some (ld, x)) ∧ (x.d.len = 4096) ∧ (x.pos = 0) ∧ (x.bufPos = 0) ∧ (x.dataLost = false) ∧ (s.poqTarget ld x.d.dpa.toNat = some t) ∧ (x.passed = [] → s.poqCheck ld t.dpn true = (none, s)) ∧ ((s.entry t.dpn).state = .zero) ∧ ((s.idleEngine 1).isSome = true) ∧ (readPage (bs.take x.d.bufLen.toNat) = .ok (lines, true, used)))
    ∧ (∃ (s : State) (q : BitVec 20) (id : W16) (ld : Nat) (x : Exec) (t : State), (s.running q id 8 = some (ld, x)) ∧ (x.d.level ≠ 0) ∧ (s.allFenced 2 = false) ∧ (t = s.takeDeep (.compressOut q id) ld) ∧ (t.coderReady true (.compressOut q id) = true) ∧ (x.pos % 4096 = 0 → t.rangeBusy ld x.d = false))
    ∧ (∃ (s : State) (q : BitVec 20) (id : W16) (ld : Nat) (x : Exec) (t : Sys2Proof.Machine.Target) (u : Sys2Proof.Machine.State), (s.running q id 7 = some (ld, x)) ∧ (x.d.len = 4096) ∧ (x.pos = 0) ∧ (s.poqTarget ld x.d.dpa.toNat = some t) ∧ (u = (if x.d.level ≠ 0 ∧ s.allFenced 2 = false then s.takeDeep (.harden q id) ld else s)) ∧ (u.coderReady (decide (x.d.level ≠ 0) && !s.allFenced 2) (.harden q id) = true) ∧ (u.poqTarget ld x.d.dpa.toNat = some t) ∧ (x.passed = [] → u.poqCheck ld t.dpn true = (none, u)) ∧ ((u.entry t.dpn).state = .hot) ∧ ((u.entry t.dpn).durable = true) ∧ (u.hardenWaits t.dpn = false)) :=
  ⟨⟨(queued (mapped.setTableEntry 5 { LastEntry.zero with state := .zero }) (queue [running 8])), (3), (1), (0), (running 8), _, _, _, _, _, by decide +kernel, by decide +kernel, by decide +kernel, by decide +kernel, cons_of (by decide +kernel)⟩,
   ⟨(queued (mapped.setTableEntry 5 hotEntry) (queue [running 10])), (3), (1), (0), (running 10), _, _, _, _, _, by decide +kernel, cons_of (by decide +kernel)⟩,
   ⟨(queued (mapped.setTableEntry 5 { LastEntry.zero with state := .zero }) (queue [running 9])), (3), (1), (0), (running 9), (zeroPageFrames), _, _, _, by decide +kernel, by decide +kernel, by decide +kernel, by decide +kernel, by decide +kernel, (Option.some_get (by decide +kernel)).symm, fun _ => rfl, by decide +kernel, by decide +kernel, zeroPage_ok⟩,
   ⟨(queued (mapped.setTableEntry 5 hotEntry) (queue [{ running 8 with d := { desc 8 with aux := 9 } }])), (3), (1), (0), ({ running 8 with d := { desc 8 with aux := 9 } }), _, by decide +kernel, by decide +kernel, by decide +kernel, rfl, by decide +kernel, by decide +kernel⟩,
   ⟨(queued (shadowing.setMap 0 [extentEntry] |>.setTableEntry 5 hotEntry) (queue [running 7])), (3), (1), (0), (running 7), _, _, by decide +kernel, by decide +kernel, by decide +kernel, (Option.some_get (by decide +kernel)).symm, rfl, by decide +kernel, by decide +kernel, fun _ => rfl, by decide +kernel, by decide +kernel, by decide +kernel⟩⟩

theorem witness_EyeletEvents :
    (∃ (s : State) (ld : Fin 32), (s.reach ld.val = true))
    ∧ (∃ (s : State) (ld : Fin 32) (ch : Fin 16) (n : Sys2Proof.W64 × Option (BitVec 20)), ((s.eye (eyeKey ld ch)).notice = some n) ∧ (s.hasLd ld.val = true) ∧ ((s.eye (eyeKey ld ch)).running.length + (s.eye (eyeKey ld ch)).reading.length < 8))
    ∧ (∃ (s : State) (ld : Fin 32) (ch : Fin 16) (addr : Sys2Proof.W64) (pasid : Option (BitVec 20)) (rest : List (Sys2Proof.W64 × Option (BitVec 20))) (b : Sys2Proof.CmdBlock), ((s.eye (eyeKey ld ch)).reading = (addr, pasid) :: rest) ∧ (s.world.normal = .up) ∧ (blockOk b = true))
    ∧ (∃ (s : State) (ld : Fin 32), (s.reach ld.val = true))
    ∧ (∃ (s : State) (ld : Fin 32), (s.reach ld.val = true))
    ∧ (∃ (s : State) (p : Sys2Proof.Party) (value : Sys2Proof.W64), (value.getLsbD 0 = true) ∧ (s.partyHere p = true)) :=
  ⟨⟨(live), (0), by decide +kernel⟩,
   ⟨(live.updEye (eyeKey 0 15) fun e => { e with notice := some (0, none) }), (0), (15), _, (Option.some_get (by decide +kernel)).symm, by decide +kernel, by decide +kernel⟩,
   ⟨(live.updEye (eyeKey 0 15) fun e => { e with reading := [(0, none)] }), (0), (15), _, _, _, ({ opcode := 0, inLen := 1048576, outAddr := 0, outLen := 4, tag := 0 }), rfl, by decide +kernel, by decide +kernel⟩,
   ⟨(live), (0), by decide +kernel⟩,
   ⟨(live), (0), by decide +kernel⟩,
   ⟨(live), (.bmc), (1), by decide +kernel, by decide +kernel⟩⟩

theorem witness_StandardReports :
    (∃ (s : State) (m : Msg) (fn : Nat) (ld : Fin 32), (fn = pathFn m.path) ∧ (s.taken m 0x4000 onMailboxOrBmc) ∧ (pathLd m.path = some ld))
    ∧ (∃ (s : State) (m : Msg) (fn : Nat), (fn = pathFn m.path) ∧ (s.taken m 0x4200 onMailboxOrBmc))
    ∧ (∃ (s : State) (m : Msg) (fn : Nat), (fn = pathFn m.path) ∧ (s.taken m 0x4201 onMailbox))
    ∧ (∃ (s : State) (m : Msg) (fn : Nat), (fn = pathFn m.path) ∧ (s.taken m 0x4203 onMailbox))
    ∧ (∃ (s : State) (m : Msg) (fn : Nat), (fn = pathFn m.path) ∧ (s.taken m 0x0300 onMailbox))
    ∧ (∃ (s : State) (m : Msg) (fn : Nat) (log : Byte), (fn = pathFn m.path) ∧ (s.taken m 0x0100 onMailboxOrBmc) ∧ (log.toNat ≤ 3))
    ∧ (∃ (s : State) (m : Msg) (fn : Nat), (fn = pathFn m.path) ∧ (s.taken m 0x0102 onMailbox))
    ∧ (∃ (s : State) (m : Msg) (fn : Nat), (fn = pathFn m.path) ∧ (s.taken m 0x0400 onMailbox))
    ∧ (∃ (s : State) (m : Msg) (fn : Nat) (offset : W32) (length : W32), (fn = pathFn m.path) ∧ (s.taken m 0x0401 onMailboxOrBmc) ∧ (offset.toNat + length.toNat ≤ 4 * (stdOpcodes.length + slafinDefined.length)))
    ∧ (∃ (s : State) (m : Msg) (fn : Nat), (fn = pathFn m.path) ∧ (s.taken m 0x0200 onMailbox))
    ∧ (∃ (s : State) (m : Msg) (fn : Nat) (op : Sys2Proof.W16) (ended : Bool), (fn = pathFn m.path) ∧ (s.taken m 0x0002 onMailbox) ∧ ((s.cmdLd fn).background = some (op, ended)))
    ∧ (∃ (s : State) (m : Msg) (fn : Nat) (ld : Fin 32), (fn = pathFn m.path) ∧ (s.taken m 0x4100 onMailbox) ∧ (pathLd m.path = some ld))
    ∧ (∃ (s : State) (m : Msg), (s.taken m 0x5400 onFmApi))
    ∧ (∃ (s : State) (m : Msg) (start : Byte), (s.taken m 0x5401 onFmApi) ∧ (start.toNat < s.nLds))
    ∧ (∃ (s : State) (m : Msg) (ld : Byte), (s.taken m 0x5403 onFmApi) ∧ (s.hasLd ld.toNat = true))
    ∧ (∃ (s : State) (m : Msg) (ld : Byte), (s.taken m 0x5405 onFmApi) ∧ (s.hasLd ld.toNat = true))
    ∧ (∃ (s : State) (m : Msg) (start : Byte) (number : Byte) (l : List ℕ), (s.taken m 0x5406 onFmApi) ∧ (start.toNat < s.nLds) ∧ (l = s.fractions start.toNat number.toNat (fun x => qosFracRead x.minRead s.reg.usable)))
    ∧ (∃ (s : State) (m : Msg) (start : Byte) (number : Byte) (l : List ℕ), (s.taken m 0x5408 onFmApi) ∧ (start.toNat < s.nLds) ∧ (l = s.fractions start.toNat number.toNat (fun x => qosFracBudget x.budget s.reg.usable)))
    ∧ (∃ (s : State) (m : Msg), (s.taken m 0x5500 onFmApi))
    ∧ (∃ (s : State) (m : Msg) (start : Byte) (number : Byte) (l : List ℕ), (s.taken m 0x5501 onFmApi) ∧ (start.toNat < s.nHeads) ∧ (l = ((List.range s.nHeads).drop start.toNat).take number.toNat))
    ∧ (∃ (s : State) (m : Msg), (s.taken m 0x5600 onFmApi))
    ∧ (∃ (s : State) (m : Msg) (ld : Byte) (start : Byte), (s.taken m 0x5601 onFmApi) ∧ (s.hasLd ld.toNat = true) ∧ (start.toNat ≤ 7))
    ∧ (∃ (s : State) (m : Msg) (ld : Byte) (start : W32), (s.taken m 0x5603 onFmApi) ∧ (s.hasLd ld.toNat = true) ∧ (start.toNat ≤ (s.extents ld.toNat).length)) :=
  ⟨⟨(live), (mb), _, (0), rfl, ⟨by decide +kernel, by decide +kernel, by decide +kernel⟩, by decide +kernel⟩,
   ⟨(live), (mb), _, rfl, ⟨by decide +kernel, by decide +kernel, by decide +kernel⟩⟩,
   ⟨(live), (mb), _, rfl, ⟨by decide +kernel, by decide +kernel, by decide +kernel⟩⟩,
   ⟨(live), (mb), _, rfl, ⟨by decide +kernel, by decide +kernel, by decide +kernel⟩⟩,
   ⟨(live), (mb), _, rfl, ⟨by decide +kernel, by decide +kernel, by decide +kernel⟩⟩,
   ⟨(live), (mb), _, (3), rfl, ⟨by decide +kernel, by decide +kernel, by decide +kernel⟩, by decide +kernel⟩,
   ⟨(live), (mb), _, rfl, ⟨by decide +kernel, by decide +kernel, by decide +kernel⟩⟩,
   ⟨(live), (mb), _, rfl, ⟨by decide +kernel, by decide +kernel, by decide +kernel⟩⟩,
   ⟨(live), (mb), _, (0), (8), rfl, ⟨by decide +kernel, by decide +kernel, by decide +kernel⟩, by decide +kernel⟩,
   ⟨(live), (mb), _, rfl, ⟨by decide +kernel, by decide +kernel, by decide +kernel⟩⟩,
   ⟨(live.updCmdLd 0 fun c => { c with background := some (0x4400, false) }), (mb), _, _, _, rfl, ⟨by decide +kernel, by decide +kernel, by decide +kernel⟩, some_pair (by decide +kernel)⟩,
   ⟨(live), (mb), _, (0), rfl, ⟨by decide +kernel, by decide +kernel, by decide +kernel⟩, by decide +kernel⟩,
   ⟨(live), (fm), ⟨by decide +kernel, by decide +kernel, by decide +kernel⟩⟩,
   ⟨(live), (fm), (31), ⟨by decide +kernel, by decide +kernel, by decide +kernel⟩, by decide +kernel⟩,
   ⟨(live), (fm), (31), ⟨by decide +kernel, by decide +kernel, by decide +kernel⟩, by decide +kernel⟩,
   ⟨(live), (fm), (31), ⟨by decide +kernel, by decide +kernel, by decide +kernel⟩, by decide +kernel⟩,
   ⟨(live), (fm), (31), (1), _, ⟨by decide +kernel, by decide +kernel, by decide +kernel⟩, by decide +kernel, rfl⟩,
   ⟨(live), (fm), (31), (1), _, ⟨by decide +kernel, by decide +kernel, by decide +kernel⟩, by decide +kernel, rfl⟩,
   ⟨(live), (fm), ⟨by decide +kernel, by decide +kernel, by decide +kernel⟩⟩,
   ⟨(live), (fm), (3), (1), _, ⟨by decide +kernel, by decide +kernel, by decide +kernel⟩, by decide +kernel, rfl⟩,
   ⟨(live), (fm), ⟨by decide +kernel, by decide +kernel, by decide +kernel⟩⟩,
   ⟨(live), (fm), (31), (7), ⟨by decide +kernel, by decide +kernel, by decide +kernel⟩, by decide +kernel, by decide +kernel⟩,
   ⟨(live), (fm), (31), (0), ⟨by decide +kernel, by decide +kernel, by decide +kernel⟩, by decide +kernel, by decide +kernel⟩⟩

theorem witness_StandardSettings :
    (∃ (s : State) (m : Msg) (fn : Nat), (fn = pathFn m.path) ∧ (s.taken m 0x4202 onMailbox))
    ∧ (∃ (s : State) (m : Msg) (fn : Nat), (fn = pathFn m.path) ∧ (s.taken m 0x4204 onMailbox) ∧ (s.image.supB = none))
    ∧ (∃ (s : State) (m : Msg) (fn : Nat), (fn = pathFn m.path) ∧ (s.taken m 0x0301 onMailbox))
    ∧ (∃ (s : State) (m : Msg) (fn : Nat) (log : Byte), (fn = pathFn m.path) ∧ (s.taken m 0x0101 onMailbox) ∧ (log.toNat ≤ 3))
    ∧ (∃ (s : State) (m : Msg) (fn : Nat), (fn = pathFn m.path) ∧ (s.taken m 0x0103 onMailbox))
    ∧ (∃ (s : State) (m : Msg) (fn : Nat) (opcode : W16), (fn = pathFn m.path) ∧ (s.arrives m opcode.toNat = true) ∧ (slafinRange opcode.toNat = false) ∧ (stdOpcodes.contains opcode.toNat = false))
    ∧ (∃ (s : State) (m : Msg), (s.fwTaken m 0x0201 = true) ∧ (s.world.noFirmware = false) ∧ (onMailbox m.path = true) ∧ (s.judgeAway = none) ∧ (s.world.activeB = false) ∧ (s.world.staged = none))
    ∧ (∃ (s : State) (m : Msg) (p : Sys2Proof.FwPackage), (s.fwTaken m 0x0202 = true) ∧ (s.world.noFirmware = false) ∧ (onMailbox m.path = true) ∧ (s.slotFw true = some p))
    ∧ (∃ (s : State) (m : Msg) (p : Sys2Proof.FwPackage), (s.fwTaken m 0x0202 = true) ∧ (s.world.noFirmware = false) ∧ (onMailbox m.path = true) ∧ (s.slotFw true = some p) ∧ (s.judgeAway = none) ∧ (s.activationBusy = false) ∧ (p.manifest = s.world.manifest) ∧ (p.secureDigest ≠ (s.mapWorld fun w => { w with staged := some true, activatedBy := some m }).secureDigest (s.mapWorld fun w => { w with staged := some true, activatedBy := some m }).world.secureB))
    ∧ (∃ (s : State) (m : Msg) (ld : Fin 32) (volatile : Sys2Proof.W64) (es : List Sys2Proof.Machine.MapEntry) (news : List Sys2Proof.Machine.MapEntry) (dc : List Sys2Proof.Machine.MapEntry), (s.taken m 0x4101 onMailbox) ∧ (pathLd m.path = some ld) ∧ (es = (s.ldMap ld.val).filter (fun e => e.valid && !e.dc)) ∧ (dc = (s.map ld.val).filter (fun e => e.valid && e.dc)) ∧ (news = splitStatic (volatile.toNat * block) (sortBy (fun a b => decide (a.ldBase.toNat < b.ldBase.toNat)) es)) ∧ (volatile.toNat * block ≤ pagesOf es) ∧ (news.filter (·.durable) = []) ∧ (es.filter (·.durable) = []) ∧ (news.length + dc.length ≤ 256)) :=
  ⟨⟨(live), (mb), _, rfl, ⟨by decide +kernel, by decide +kernel, by decide +kernel⟩⟩,
   ⟨(live), (mb), _, rfl, ⟨by decide +kernel, by decide +kernel, by decide +kernel⟩, by decide +kernel⟩,
   ⟨(live), (mb), _, rfl, ⟨by decide +kernel, by decide +kernel, by decide +kernel⟩⟩,
   ⟨(live), (mb), _, (3), rfl, ⟨by decide +kernel, by decide +kernel, by decide +kernel⟩, by decide +kernel⟩,
   ⟨(live), (mb), _, rfl, ⟨by decide +kernel, by decide +kernel, by decide +kernel⟩⟩,
   ⟨(live), (mb), _, (0x7777), rfl, by decide +kernel, by decide +kernel, by decide +kernel⟩,
   ⟨(live), (mb), by decide +kernel, by decide +kernel, by decide +kernel, by decide +kernel, by decide +kernel, by decide +kernel⟩,
   ⟨(live.mapWorld fun w => { w with fwB := some package }), (mb), _, by decide +kernel, by decide +kernel, by decide +kernel, (Option.some_get (by decide +kernel)).symm⟩,
   ⟨(live.mapWorld fun w => { w with fwB := some package }), (mb), (package), by decide +kernel, by decide +kernel, by decide +kernel, by decide +kernel, by decide +kernel, by decide +kernel, by decide +kernel, by decide +kernel⟩,
   ⟨(live), (mb), (0), (1), _, _, _, ⟨by decide +kernel, by decide +kernel, by decide +kernel⟩, by decide +kernel, rfl, rfl, rfl, by decide +kernel, by decide +kernel, by decide +kernel, by decide +kernel⟩⟩

theorem witness_MediaCommands :
    (∃ (s : State) (m : Msg) (ld : Fin 32), (pathLd m.path = some ld) ∧ (s.taken m 0x4800 onMailbox) ∧ (s.exposesDc ld.val = true))
    ∧ (∃ (s : State) (m : Msg) (ld : Fin 32) (start : W32), (pathLd m.path = some ld) ∧ (s.taken m 0x4801 onMailbox) ∧ (s.exposesDc ld.val = true) ∧ (start.toNat ≤ (s.extents ld.val).length))
    ∧ (∃ (s : State) (m : Msg) (ld : Fin 32) (tag : BitVec 128) (o : Fin 32 × Sys2Proof.Machine.RegionEntry), (pathLd m.path = some ld) ∧ (s.taken m 0x4802 onMailbox) ∧ (s.exposesDc ld.val = true) ∧ ((s.cmd.offers.find? fun o => decide (o.1 = ld) && decide (o.2.tag = tag)) = some o) ∧ (s.extentRoom ld.val ≠ 0))
    ∧ (∃ (s : State) (m : Msg) (ld : Fin 32) (dpa : W64) (length : W64) (es : List Sys2Proof.Machine.MapEntry), (pathLd m.path = some ld) ∧ (s.taken m 0x4803 onMailbox) ∧ (s.exposesDc ld.val = true) ∧ (es = ((s.extents ld.val).filter fun e => decide (dpa.toNat ≤ e.ldBase.toNat * 4096) && decide ((e.ldBase.toNat + e.pages.toNat) * 4096 ≤ dpa.toNat + length.toNat))) ∧ (es ≠ []) ∧ (pagesOf es * 4096 = length.toNat))
    ∧ (∃ (s : State) (m : Msg) (ld : Fin 32), (pathLd m.path = some ld) ∧ (s.taken m 0x4300 onMailbox))
    ∧ (∃ (s : State) (m : Msg) (ld : Fin 32) (dpa : W64), (pathLd m.path = some ld) ∧ (s.taken m 0x4301 onMailbox) ∧ (dpa.toNat % 64 = 0))
    ∧ (∃ (s : State) (m : Msg) (ld : Fin 32) (dpa : W64), (pathLd m.path = some ld) ∧ (s.taken m 0x4302 onMailbox) ∧ (dpa.toNat % 64 = 0))
    ∧ (∃ (s : State) (m : Msg) (ld : Fin 32), (pathLd m.path = some ld) ∧ (s.taken m 0x4400 onMailbox) ∧ (s.backgroundRuns (pathFn m.path) = false))
    ∧ (∃ (s : State) (m : Msg) (ld : Fin 32), (pathLd m.path = some ld) ∧ (s.taken m 0x4401 onMailbox) ∧ (s.backgroundRuns (pathFn m.path) = false)) :=
  ⟨⟨(live), (mb), (0), by decide +kernel, ⟨by decide +kernel, by decide +kernel, by decide +kernel⟩, by decide +kernel⟩,
   ⟨(mapped), (mb), (0), (1), by decide +kernel, ⟨by decide +kernel, by decide +kernel, by decide +kernel⟩, by decide +kernel, by decide +kernel⟩,
   ⟨(live.mapCmd fun c => { c with offers := [(0, region)] }), (mb), (0), (7), _, by decide +kernel, ⟨by decide +kernel, by decide +kernel, by decide +kernel⟩, by decide +kernel, (Option.some_get (by decide +kernel)).symm, by decide +kernel⟩,
   ⟨(mapped), (mb), (0), (0), (268435456), _, by decide +kernel, ⟨by decide +kernel, by decide +kernel, by decide +kernel⟩, by decide +kernel, rfl, by decide +kernel, by decide +kernel⟩,
   ⟨(live), (mb), (0), by decide +kernel, ⟨by decide +kernel, by decide +kernel, by decide +kernel⟩⟩,
   ⟨(live), (mb), (0), (64), by decide +kernel, ⟨by decide +kernel, by decide +kernel, by decide +kernel⟩, by decide +kernel⟩,
   ⟨(live), (mb), (0), (64), by decide +kernel, ⟨by decide +kernel, by decide +kernel, by decide +kernel⟩, by decide +kernel⟩,
   ⟨(live), (mb), (0), by decide +kernel, ⟨by decide +kernel, by decide +kernel, by decide +kernel⟩, by decide +kernel⟩,
   ⟨(live), (mb), (0), by decide +kernel, ⟨by decide +kernel, by decide +kernel, by decide +kernel⟩, by decide +kernel⟩⟩

theorem witness_FmApiChanges :
    (∃ (s : State) (m : Msg) (start : Byte) (allocs : List (Nat × Option (List Extent))) (l : List (ℕ × ℕ × Option (List Sys2Proof.Extent))) (news : List (ℕ × List Sys2Proof.Machine.MapEntry)), (s.taken m 0x5402 onFmApi) ∧ (l = allocs.zipIdx.map (fun p => (start.toNat + p.2, p.1))) ∧ (news = l.map (fun p => (p.1, s.allocMap p.1 p.2.2))) ∧ (l.all (fun p => s.hasLd p.1) = true) ∧ (s.allocOk news = true))
    ∧ (∃ (s : State) (m : Msg) (ld : Byte), (s.taken m 0x5404 onFmApi) ∧ (s.hasLd ld.toNat = true))
    ∧ (∃ (s : State) (m : Msg) (start : Byte) (fractions : List W16) (news : List (ℕ × Sys2Proof.Machine.Master)), (s.taken m 0x5407 onFmApi) ∧ (news = fractions.zipIdx.map (fun p => (start.toNat + p.2, { s.configured (start.toNat + p.2) with minRead := qosMinRead p.1.toNat s.reg.usable, minWrite := 0 }))) ∧ (news.all (fun p => s.hasLd p.1 && settingOk p.1 p.2) = true) ∧ (fractions.all (fun x => decide (x.toNat ≤ 256)) = true) ∧ (s.admits news = true))
    ∧ (∃ (s : State) (m : Msg) (start : Byte) (fractions : List W16) (news : List (ℕ × Sys2Proof.Machine.Master)), (s.taken m 0x5409 onFmApi) ∧ (news = fractions.zipIdx.map (fun p => (start.toNat + p.2, { s.configured (start.toNat + p.2) with budget := qosBudget p.1.toNat s.reg.usable }))) ∧ (news.all (fun p => s.hasLd p.1 && settingOk p.1 p.2) = true) ∧ (fractions.all (fun x => decide (x.toNat ≤ 256)) = true) ∧ (s.admits news = true))
    ∧ (∃ (s : State) (m : Msg) (region : Byte) (size : W64), (s.taken m 0x5602 onFmApi) ∧ (region.toNat ≤ 7) ∧ (size.toNat = block * 4096) ∧ (s.regionHolds region.toNat = false))
    ∧ (∃ (s : State) (m : Msg) (ld : Byte) (e : Extent), (s.taken m 0x5604 onFmApi) ∧ (s.hasLd ld.toNat = true) ∧ (s.tier.freeFrames > s.pressureFrames) ∧ ((s.addedEntry e).durable = false) ∧ ((s.map ld.toNat).length + (s.cmd.adds.filter fun a => decide (a.1.val = ld.toNat)).length < 256) ∧ (s.addOk ld.toNat (s.addedEntry e) = true) ∧ (s.leaving (s.addedEntry e) = false) ∧ (s.offersReach ld.toNat = true))
    ∧ (∃ (s : State) (m : Msg) (ld : Byte) (tag : BitVec 128), (s.taken m 0x5605 onFmApi) ∧ (s.hasLd ld.toNat = true) ∧ (s.cmd.offers = []) ∧ (s.cmd.declined = []) ∧ (s.cmd.adds = []) ∧ (((s.extents ld.toNat).filter fun e => decide (e.tag = tag)) ≠ [])) :=
  ⟨⟨(live), (fm), (31), ([(1, none)]), _, _, ⟨by decide +kernel, by decide +kernel, by decide +kernel⟩, rfl, rfl, by decide +kernel, by decide +kernel⟩,
   ⟨(live), (fm), (31), ⟨by decide +kernel, by decide +kernel, by decide +kernel⟩, by decide +kernel⟩,
   ⟨(live), (fm), (31), ([0]), _, ⟨by decide +kernel, by decide +kernel, by decide +kernel⟩, rfl, by decide +kernel, by decide +kernel, by decide +kernel⟩,
   ⟨(live), (fm), (31), ([0]), _, ⟨by decide +kernel, by decide +kernel, by decide +kernel⟩, rfl, by decide +kernel, by decide +kernel, by decide +kernel⟩,
   ⟨(live), (fm), (7), (268435456), ⟨by decide +kernel, by decide +kernel, by decide +kernel⟩, by decide +kernel, by decide +kernel, by decide +kernel⟩,
   ⟨(live), (fm), (0), (extent), ⟨by decide +kernel, by decide +kernel, by decide +kernel⟩, by decide +kernel, by decide +kernel, by decide +kernel, by decide +kernel, by decide +kernel, by decide +kernel, by decide +kernel⟩,
   ⟨(mapped), (fm), (0), (7), ⟨by decide +kernel, by decide +kernel, by decide +kernel⟩, by decide +kernel, by decide +kernel, by decide +kernel, by decide +kernel, by decide +kernel⟩⟩

theorem witness_SlafinItself :
    (∃ (s : State) (m : Msg) (opcode : W16), (s.arrives m opcode.toNat = true) ∧ (slafinRange opcode.toNat = true) ∧ (slafinDefined.contains opcode.toNat = false))
    ∧ (∃ (s : State) (m : Msg), (s.runs m { op := 0xC000, roles := rAll, sess := false, l0 := false, secure := false, inLen := 0, body := 10 }))
    ∧ (∃ (s : State) (m : Msg), (s.runs m { op := 0xC001, roles := rAll, sess := false, l0 := false, secure := false, inLen := 2, body := 2 }) ∧ (s.role m = .bmc))
    ∧ (∃ (s : State) (m : Msg), (s.runs m { op := 0xC001, roles := rAll, sess := false, l0 := false, secure := false, inLen := 2, body := 2 }) ∧ (s.role m = .bmc))
    ∧ (∃ (s : State) (m : Msg), (s.runs m { op := 0xC002, roles := s.mayOwn, sess := false, l0 := false, secure := true, inLen := 48, body := 0 }))
    ∧ (∃ (s : State) (m : Msg) (cap : Byte) (ld : Byte) (offset : W16) (length : W32), (s.runs m { op := 0xC003, roles := rBmcOwn, sess := false, l0 := false, secure := false, inLen := 8, body := length.toNat }) ∧ (1 ≤ cap.toNat) ∧ (cap.toNat ≤ 11) ∧ (s.hasLd ld.toNat = true) ∧ (8 ≤ length.toNat) ∧ (offset.toNat + length.toNat ≤ 4096) ∧ (offset.toNat % 8 = 0) ∧ (length.toNat % 8 = 0))
    ∧ (∃ (s : State) (m : Msg) (lock : Byte) (t : Sys2Proof.Machine.State), (s.runs m { op := 0xC004, roles := rBmc, sess := false, l0 := false, secure := false, inLen := 2, body := 8 }) ∧ (lock.toNat ≤ 7) ∧ (t = s.readLock lock.toNat [.bmc])) :=
  ⟨⟨(live), (mb), (0xC00F), by decide +kernel, by decide +kernel, by decide +kernel⟩,
   ⟨(live), (mb), ⟨by decide +kernel, by decide +kernel⟩⟩,
   ⟨(live), (bmc 2), ⟨by decide +kernel, by decide +kernel⟩, by decide +kernel⟩,
   ⟨(live), (bmc 2), ⟨by decide +kernel, by decide +kernel⟩, by decide +kernel⟩,
   ⟨(live), (bmc 48), ⟨by decide +kernel, by decide +kernel⟩⟩,
   ⟨(live), (bmc 8), (1), (0), (4088), (8), ⟨by decide +kernel, by decide +kernel⟩, by decide +kernel, by decide +kernel, by decide +kernel, by decide +kernel, by decide +kernel, by decide +kernel, by decide +kernel⟩,
   ⟨(live), (bmc 2), (7), _, ⟨by decide +kernel, by decide +kernel⟩, by decide +kernel, rfl⟩⟩

theorem witness_TierCommands :
    (∃ (s : State) (m : Msg) (policy : W64) (watermark : W64) (rate : W64) (p : Sys2Proof.Machine.TierPolicy) (w : Sys2Proof.Machine.TierWatermark) (r : Sys2Proof.Machine.TierRate), (s.runs m { op := 0xC010, roles := rBmcOwn, sess := false, l0 := false, secure := false, inLen := 32, body := 0 }) ∧ (tierPolicyOf policy = some p) ∧ (tierWatermarkOf s.tier.poolFrames watermark = some w) ∧ (tierRateOf rate = some r))
    ∧ (∃ (s : State) (m : Msg) (watermark : W64), (s.runs m { op := 0xC010, roles := rBmcOwn, sess := false, l0 := false, secure := false, inLen := 32, body := 0 }) ∧ (tierWatermarkOf s.tier.poolFrames watermark = none))
    ∧ (∃ (s : State) (m : Msg) (ld : Byte) (poison : Byte) (a : W32) (pages : W32) (inside : MapEntry → Bool), (s.runs m { op := 0xC011, roles := rFm, sess := false, l0 := false, secure := false, inLen := 12, body := 0 }) ∧ (s.hasLd ld.toNat = true) ∧ (poison.toNat ≤ 1) ∧ ((∀ e, inside e = (e.valid && decide (a.toNat ≤ e.devBase.toNat) && decide (e.devBase.toNat + e.pages.toNat ≤ a.toNat + pages.toNat)))) ∧ (pagesOf ((s.map ld.toNat).filter inside) = pages.toNat) ∧ ((s.map ld.toNat).filter inside ≠ []))
    ∧ (∃ (s : State) (m : Msg) (a : W32) (pages : W32) (owner : W16) (mine : List (BitVec 32)), (s.runs m { op := 0xC012, roles := rFmOwn, sess := false, l0 := false, secure := false, inLen := 10, body := 0 }) ∧ (1 ≤ owner.toNat) ∧ (owner.toNat ≤ s.nLds) ∧ (mine = (s.last.table.keys.filter fun d => decide (a.toNat ≤ d) && decide (d < a.toNat + pages.toNat)).map (BitVec.ofNat 32)) ∧ (coversRange (s.ldMap (owner.toNat - 1)) (a.toNat + pages.toNat) ((s.ldMap (owner.toNat - 1)).length + 1) a.toNat = true) ∧ (mine.all (fun d => !decide ((s.entry d).state = .restoring)) = true))
    ∧ (∃ (s : State) (m : Msg) (pages : W32), (s.runs m { op := 0xC013, roles := rFmBmcOwn, sess := false, l0 := false, secure := false, inLen := 4, body := 0 }) ∧ (pages ≠ 0) ∧ (s.boundLds = []) ∧ (s.last.maps = []) ∧ (pages.toNat % block = 0) ∧ (pages.toNat ≤ maxHostPages s.ev8820) ∧ ((s.last.frames.filter fun q => decide (q.2.kind = .hot) || decide (q.2.kind = .bin)).length < s.poolFor pages.toNat * (s.w - 1))) :=
  ⟨⟨(live), (bmc 32), (0x0000010000010000), (0x640281407828), (0xA0001), _, _, _, ⟨by decide +kernel, by decide +kernel⟩, (Option.some_get (by decide +kernel)).symm, (Option.some_get (by decide +kernel)).symm, (Option.some_get (by decide +kernel)).symm⟩,
   ⟨(live), (bmc 32), (0), ⟨by decide +kernel, by decide +kernel⟩, by decide +kernel⟩,
   ⟨(mapped), (fmm 12), (0), (1), (0), (65536), (fun e => e.valid && decide ((0 : W32).toNat ≤ e.devBase.toNat) && decide (e.devBase.toNat + e.pages.toNat ≤ (0 : W32).toNat + (65536 : W32).toNat)), ⟨by decide +kernel, by decide +kernel⟩, by decide +kernel, by decide +kernel, fun _ => rfl, by decide +kernel, by decide +kernel⟩,
   ⟨(mapped.setTableEntry 5 hotEntry), (fmm 10), (0), (256), (1), _, ⟨by decide +kernel, by decide +kernel⟩, by decide +kernel, by decide +kernel, rfl, by decide +kernel, by decide +kernel⟩,
   ⟨(live.updFn 0 fun f => { f with head := none, bound := false }), (fmm 4), (65536), ⟨by decide +kernel, by decide +kernel⟩, by decide +kernel, by decide +kernel, by decide +kernel, by decide +kernel, by decide +kernel, by decide +kernel⟩⟩

theorem witness_ShadowCommands :
    (∃ (s : State) (m : Msg) (policy : Sys2Proof.W64) (p : Sys2Proof.Machine.ShadowPolicy), (s.runs m { op := 0xC020, roles := rBmcOwn, sess := false, l0 := false, secure := false, inLen := 8, body := 0 }) ∧ (shadowPolicyOf policy = some p))
    ∧ (∃ (s : State) (m : Msg) (region : Byte), (s.runs m { op := 0xC021, roles := rFmOwn, sess := false, l0 := false, secure := false, inLen := 2, body := 0 }) ∧ (region.toNat ≤ 7) ∧ (s.regionHolds region.toNat = false))
    ∧ (∃ (s : State) (m : Msg) (req : Sys2Proof.PriorityReq), (s.runs m { op := 0xC030, roles := rLdBmcOwn, sess := false, l0 := false, secure := false, inLen := 32, body := 2 }) ∧ (s.mayPrioritize (s.role m) req = true) ∧ (s.resume.level ≠ 3) ∧ ((s.resume.extents.any fun x => prioNames req x && decide (x.state ≠ .restored)) = true) ∧ (s.resume.priority.length < 64))
    ∧ (∃ (s : State) (m : Msg) (cursor : W32) (max : W32) (n : ℕ), (s.runs m { op := 0xC031, roles := rLdBmcOwn, sess := false, l0 := false, secure := false, inLen := 8, body := 16 }) ∧ (s.role m = .bmc) ∧ (cursorOk cursor.toNat s.resume.losses.length = true) ∧ (n = fits m 16 12 max.toNat (s.resume.losses.drop cursor.toNat).length))
    ∧ (∃ (s : State) (m : Msg) (ld : Byte) (tag : BitVec 128) (o : Fin 32 × Sys2Proof.Machine.RegionEntry), (s.runs m { op := 0xC032, roles := rLdFm, sess := false, l0 := false, secure := false, inLen := 32, body := 0 }) ∧ (s.hasLd ld.toNat = true) ∧ (othersLd (s.role m) ld.toNat = false) ∧ ((s.cmd.declined.find? fun o => decide (o.1.val = ld.toNat) && decide (o.2.tag = tag)) = some o))
    ∧ (∃ (s : State) (m : Msg) (policy : W64), (s.runs m { op := 0xC033, roles := rBmcOwn, sess := false, l0 := false, secure := false, inLen := 8, body := 0 }) ∧ (10 ≤ fld policy 0 6) ∧ (fld policy 0 6 ≤ 50) ∧ (1 ≤ fld policy 8 8))
    ∧ (∃ (s : State) (m : Msg) (f : Sys2Proof.ImageFound) (t : Sys2Proof.Machine.State), (s.runs m { op := 0xC034, roles := rBmcOwn, sess := false, l0 := false, secure := false, inLen := 0, body := 1 }) ∧ (s.resume.image = 3) ∧ (s.inSave = false) ∧ (t = (s.mapResume fun r => { r with imageStep := 0 }).readImage f)) :=
  ⟨⟨(live), (bmc 8), (0x0001000100F00064), _, ⟨by decide +kernel, by decide +kernel⟩, (Option.some_get (by decide +kernel)).symm⟩,
   ⟨(live), (fmm 2), (7), ⟨by decide +kernel, by decide +kernel⟩, by decide +kernel, by decide +kernel⟩,
   ⟨(live.mapResume fun r => { r with level := 1, extents := [{ entries := [region], state := .pending }] }), (bmc 32), (.region 0), ⟨by decide +kernel, by decide +kernel⟩, by decide +kernel, by decide +kernel, by decide +kernel, by decide +kernel⟩,
   ⟨(live.mapResume fun r => { r with losses := [(5, 0, false)] }), (bmc 8), (0), (1), _, ⟨by decide +kernel, by decide +kernel⟩, by decide +kernel, by decide +kernel, rfl⟩,
   ⟨(live.mapCmd fun c => { c with declined := [(0, region)] }), (fmm 32), (0), (7), _, ⟨by decide +kernel, by decide +kernel⟩, by decide +kernel, by decide +kernel, (Option.some_get (by decide +kernel)).symm⟩,
   ⟨(live), (bmc 8), (0x10A), ⟨by decide +kernel, by decide +kernel⟩, by decide +kernel, by decide +kernel, by decide +kernel⟩,
   ⟨(live.mapResume fun r => { r with image := 3 }), (bmc 0), (found), _, ⟨by decide +kernel, by decide +kernel⟩, by decide +kernel, by decide +kernel, rfl⟩⟩

theorem witness_QueueCommands :
    (∃ (s : State) (m : Msg) (ld : Nat) (sqBase : W64) (cqBase : W64) (log2 : Byte) (vector : W16) (coalCount : W16) (coalTime : W16) (index : BitVec 20) (q : BitVec 20), (ld = roleLd (s.role m)) ∧ (s.runs m { op := 0xC040, roles := rLd, sess := false, l0 := false, secure := false, inLen := 28, body := 4 }) ∧ (4 ≤ log2.toNat) ∧ (log2.toNat ≤ 16) ∧ (coalesceOk vector coalCount coalTime = true) ∧ (sqBase.toNat % 4096 = 0) ∧ (cqBase.toNat % 4096 = 0) ∧ ((s.poqLd ld).queues < (s.poqLd ld).quota) ∧ (s.newIndex index = some q))
    ∧ (∃ (s : State) (m : Msg) (ld : Nat) (q : Sys2Proof.W32) (c : Sys2Proof.Machine.QueueCtx), (ld = roleLd (s.role m)) ∧ (s.runs m { op := 0xC041, roles := rLd, sess := false, l0 := false, secure := false, inLen := 4, body := 0 }) ∧ (s.ownQueue m q = .ok c) ∧ (c.state ≠ .draining))
    ∧ (∃ (s : State) (m : Msg) (ld : Nat) (q : Sys2Proof.W32) (c : Sys2Proof.Machine.QueueCtx) (vector : W16) (count : W16) (time : W16) (d : Sys2Proof.Machine.QueueCtx) (t : Sys2Proof.Machine.State), (ld = roleLd (s.role m)) ∧ (s.runs m { op := 0xC042, roles := rLd, sess := false, l0 := false, secure := false, inLen := 10, body := 0 }) ∧ (s.ownQueue m q = .ok c) ∧ (coalesceOk vector count time = true) ∧ (d = { c with vector, coalCount := count.toNat, coalTime := time.toNat }) ∧ (t = (s.useCtx (BitVec.ofNat 20 q.toNat) c.ld.val true).setCtx q.toNat (some d)))
    ∧ (∃ (s : State) (m : Msg) (ld : Nat) (page : Byte) (mode : Byte), (ld = roleLd (s.role m)) ∧ (s.runs m { op := 0xC043, roles := rLd, sess := false, l0 := false, secure := false, inLen := 8, body := 0 }) ∧ (page.toNat ≤ 63) ∧ (mode.toNat ≤ 3))
    ∧ (∃ (s : State) (m : Msg) (ld : Nat) (n : Byte) (weight : Byte) (quota : W32), (ld = roleLd (s.role m)) ∧ (s.runs m { op := 0xC044, roles := rFm, sess := false, l0 := false, secure := false, inLen := 8, body := 0 }) ∧ (s.hasLd n.toNat = true) ∧ (weight ≠ 0) ∧ ((((List.range s.nLds).filter (· ≠ n.toNat)).map fun k => (s.poqLd k).quota).sum + quota.toNat ≤ 2 ^ 20)) :=
  ⟨⟨(live), (lb 28), (0), (0), (0x1000), (16), (0xFFFF), (256), (1000), (3), _, by decide +kernel, ⟨by decide +kernel, by decide +kernel⟩, by decide +kernel, by decide +kernel, by decide +kernel, by decide +kernel, by decide +kernel, by decide +kernel, (Option.some_get (by decide +kernel)).symm⟩,
   ⟨(queued live (queue [])), (lb 4), (0), (3), _, by decide +kernel, ⟨by decide +kernel, by decide +kernel⟩, rfl, by decide +kernel⟩,
   ⟨(queued live (queue [])), (lb 10), (0), (3), _, (0xFFFF), (1), (0), _, _, by decide +kernel, ⟨by decide +kernel, by decide +kernel⟩, rfl, by decide +kernel, rfl, rfl⟩,
   ⟨(live), (lb 8), (0), (63), (3), by decide +kernel, ⟨by decide +kernel, by decide +kernel⟩, by decide +kernel, by decide +kernel⟩,
   ⟨(live), (fmm 8), _, (0), (1), (0), rfl, ⟨by decide +kernel, by decide +kernel⟩, by decide +kernel, by decide +kernel, by decide +kernel⟩⟩

theorem witness_RegulationCommands :
    (∃ (s : State) (m : Msg) (entries : List (Byte × W64)) (news : List (ℕ × Sys2Proof.Machine.Master)), (s.runs m { op := 0xC050, roles := rFmBmcOwn, sess := false, l0 := false, secure := false, inLen := 8 + 16 * entries.length, body := 2 }) ∧ (news = entries.map (fun e => (e.1.toNat, (s.configured e.1.toNat).apply e.1.toNat e.2))) ∧ (entries ≠ []) ∧ (entries.length ≤ 39) ∧ (entries.all (fun e => decide (e.1.toNat < masterCount) && (decide (32 ≤ e.1.toNat) || s.hasLd e.1.toNat)) = true) ∧ (entries.all (fun e => maySet (s.role m) e.1.toNat) = true) ∧ (news.all (fun p => settingOk p.1 p.2) = true))
    ∧ (∃ (s : State) (m : Msg) (policy : W64), (s.runs m { op := 0xC051, roles := rBmcOwn, sess := false, l0 := false, secure := false, inLen := 8, body := 0 }) ∧ (1 ≤ fld policy 0 7) ∧ (fld policy 0 7 ≤ 126) ∧ (fld policy 0 7 < fld policy 7 7) ∧ (1 ≤ fld policy 14 8))
    ∧ (∃ (s : State) (t : Sys2Proof.Machine.State), ((List.range masterCount).all (fun n => !(s.master n).overBudget) = true) ∧ (t = (((List.range masterCount).foldl (fun (s : State) n => s.setMaster n { s.configured n with pending := none, interval := 0, overLast := (s.configured n).overBudget, overBudget := false }) s).mapReg fun r => { r with lastTotal := ((List.range masterCount).map fun n => (s.master n).interval).sum }).rescale)) :=
  ⟨⟨(live), (fmm 24), ([(0, 0x800)]), _, ⟨by decide +kernel, by decide +kernel⟩, rfl, by decide +kernel, by decide +kernel, by decide +kernel, by decide +kernel, by decide +kernel⟩,
   ⟨(live), (bmc 8), (0x4101), ⟨by decide +kernel, by decide +kernel⟩, by decide +kernel, by decide +kernel, by decide +kernel, by decide +kernel⟩,
   ⟨(live), _, by decide +kernel, rfl⟩⟩

theorem witness_FaultCommands :
    (∃ (s : State) (m : Msg) (source : W16) (config : W64), (s.runs m { op := 0xC060, roles := rBmcOwn, sess := false, l0 := false, secure := false, inLen := 16, body := 0 }) ∧ (source.toNat < 2048) ∧ (firesHere s source.toNat = true) ∧ (fixedSource source.toNat = false) ∧ (fld config 43 2 ≠ 0) ∧ (fld config 16 27 ≠ 0) ∧ (fld config 16 27 ≤ 86400000))
    ∧ (∃ (s : State) (m : Msg) (source : W16) (count : W16), (s.runs m { op := 0xC061, roles := rBmcOwn, sess := false, l0 := false, secure := false, inLen := 4, body := 0 }) ∧ (count ≠ 0) ∧ (source.toNat + count.toNat ≤ 2048))
    ∧ (∃ (s : State) (m : Msg) (first : W16) (max : W16) (n : ℕ), (s.runs m { op := 0xC062, roles := rAll, sess := false, l0 := false, secure := false, inLen := 4, body := 8 }) ∧ (first.toNat < 2048) ∧ (n = fits m 8 16 max.toNat (2048 - first.toNat)))
    ∧ (∃ (s : State) (m : Msg) (d : Sys2Proof.AwlDesc) (n : ℕ), (s.runs m { op := 0xC063, roles := rBmcOwn, sess := false, l0 := true, secure := false, inLen := 32, body := 4 }) ∧ (s.inSave = false) ∧ (s.inResume = false) ∧ (s.awlRangeOk d = true) ∧ (s.awlRefused d (s.role m) = none) ∧ (((List.range 16).find? fun n => (s.inj n).isNone) = some n))
    ∧ (∃ (s : State) (m : Msg) (i : W32) (n : ℕ) (x : Sys2Proof.Machine.Injection), (s.runs m { op := 0xC064, roles := rBmcOwn, sess := false, l0 := false, secure := false, inLen := 4, body := 0 }) ∧ (i ≠ 0xFFFFFFFF) ∧ ((s.injs.filter fun p => decide (p.1 < 16)).filter (fun p => decide (p.2.number = i)) = [(n, x)]) ∧ (x.marked = false))
    ∧ (∃ (s : State) (m : Msg) (r : InsoleRec) (max : W32), (s.runs m { op := 0xC070, roles := rFmBmcOwn, sess := false, l0 := false, secure := false, inLen := 8, body := 8 }) ∧ (s.fault.insole = [r]) ∧ (fits m 8 64 max.toNat 1 = 1))
    ∧ (∃ (s : State) (m : Msg), (s.runs m { op := 0xC071, roles := rBmcOwn, sess := false, l0 := false, secure := false, inLen := 0, body := 0 })) :=
  ⟨⟨(live), (bmc 16), (64), (0x80000010000), ⟨by decide +kernel, by decide +kernel⟩, by decide +kernel, by decide +kernel, by decide +kernel, by decide +kernel, by decide +kernel, by decide +kernel⟩,
   ⟨(live), (bmc 4), (0), (2048), ⟨by decide +kernel, by decide +kernel⟩, by decide +kernel, by decide +kernel⟩,
   ⟨(live), (bmc 4), (0), (1), _, ⟨by decide +kernel, by decide +kernel⟩, by decide +kernel, rfl⟩,
   ⟨(live), (bmc 32), (injected), _, ⟨by decide +kernel, by decide +kernel⟩, by decide +kernel, by decide +kernel, by decide +kernel, by decide +kernel, (Option.some_get (by decide +kernel)).symm⟩,
   ⟨(live.setInj 2 (some { d := injected, number := 9, left := 1, due := false, marked := false })), (bmc 4), (9), (2), _, ⟨by decide +kernel, by decide +kernel⟩, by decide +kernel, rfl, by decide +kernel⟩,
   ⟨(live.mapFault fun f => { f with insole := [logged] }), (bmc 8), (logged), (1), ⟨by decide +kernel, by decide +kernel⟩, by decide +kernel, by decide +kernel⟩,
   ⟨(live), (bmc 0), ⟨by decide +kernel, by decide +kernel⟩⟩⟩

theorem witness_ChannelCommands :
    (∃ (s : State) (m : Msg) (policy : Sys2Proof.W64) (p : Sys2Proof.Machine.WeltPolicy), (s.runs m { op := 0xC080, roles := rBmcOwn, sess := false, l0 := true, secure := false, inLen := 8, body := 0 }) ∧ (weltPolicyOf policy = some p))
    ∧ (∃ (s : State) (m : Msg) (ch : Byte), (s.runs m { op := 0xC081, roles := rBmcOwn, sess := false, l0 := true, secure := false, inLen := 1, body := 0 }) ∧ (s.hasChannel ch.toNat = true) ∧ (s.chanUnit ch.toNat = none) ∧ (s.unitsOut = []) ∧ ((s.unitIndex false).isSome = true) ∧ (s.sparedOn { channel := ch.toNat, whole := true, ranksel := 0 } = false))
    ∧ (∃ (s : State) (m : Msg) (ch : Byte) (n : ℕ) (u : Sys2Proof.Machine.UnitSlot), (s.runs m { op := 0xC082, roles := rBmcOwn, sess := false, l0 := true, secure := false, inLen := 1, body := 0 }) ∧ (s.hasChannel ch.toNat = true) ∧ (s.chanUnit ch.toNat = some (n, u)) ∧ (u.state = 3) ∧ (u.cause = 1) ∧ ((s.chan ch.toNat).rejoinWait = none) ∧ ((s.chan ch.toNat).present = true))
    ∧ (∃ (s : State) (m : Msg) (ch : Byte) (control : Sys2Proof.W64) (c : Sys2Proof.Machine.DdrControl), (s.runs m { op := 0xC083, roles := rBmcOwn, sess := false, l0 := true, secure := false, inLen := 16, body := 0 }) ∧ (s.hasChannel ch.toNat = true) ∧ (ddrControlOf control = some c) ∧ ((s.setControl ch.toNat c).chosenRate ch.toNat = (s.chan ch.toNat).rate))
    ∧ (∃ (s : State) (m : Msg) (k : Byte) (rate : Byte) (half : Byte), (s.runs m { op := 0xC084, roles := rBmcOwn, sess := false, l0 := true, secure := false, inLen := 3, body := 0 }) ∧ (s.hasModule k.toNat = true) ∧ (rate.toNat ≤ 2) ∧ (half.toNat ≤ 1) ∧ ((s.laceMod k.toNat).carryAll = false) ∧ ((s.laceMod k.toNat).pointWait = none) ∧ ((s.laceMod k.toNat).state = 2))
    ∧ (∃ (s : State) (m : Msg) (ch : Byte) (cursor : W32) (max : W32) (n : ℕ), (s.runs m { op := 0xC085, roles := rFmBmcOwn, sess := false, l0 := false, secure := false, inLen := 12, body := 8 }) ∧ (s.hasChannel ch.toNat = true) ∧ (cursor.toNat < 256) ∧ (n = fits m 8 32 max.toNat (256 - cursor.toNat)))
    ∧ (∃ (s : State) (m : Msg), (s.runs m { op := 0xC0A0, roles := rAll, sess := false, l0 := false, secure := false, inLen := 0, body := 192 }))
    ∧ (∃ (s : State) (m : Msg) (h : Byte) (rate : Byte), (s.runs m { op := 0xC0A1, roles := rBmcOwn, sess := false, l0 := false, secure := false, inLen := 2, body := 0 }) ∧ (s.hasHead h.toNat = true) ∧ ((rateCodeOf rate.toNat).isSome = true) ∧ ((s.headOf h.toNat).rateWait = none) ∧ ((s.headOf h.toNat).up = false))
    ∧ (∃ (s : State) (m : Msg) (n : Byte), (s.runs m { op := 0xC0C0, roles := rBmcOwn, sess := false, l0 := true, secure := false, inLen := 2, body := 0 }) ∧ (s.hasDrive n.toNat = true) ∧ ((s.drive n.toNat).state = 4))
    ∧ (∃ (s : State) (m : Msg) (n : Byte), (s.runs m { op := 0xC0C1, roles := rBmcOwn, sess := false, l0 := true, secure := false, inLen := 1, body := 0 }) ∧ (s.hasDrive n.toNat = true) ∧ (s.shank.imageExists = false))
    ∧ (∃ (s : State) (m : Msg) (dpa : W64) (e : Sys2Proof.Machine.LastEntry) (i : ℕ) (r : Sys2Proof.Machine.Raw), (s.runs m { op := 0xC0B0, roles := rBmcOwn, sess := false, l0 := false, secure := false, inLen := 8, body := 1 }) ∧ (e = s.entry (dpa.extractLsb' 12 32)) ∧ (fld dpa 0 6 = 0) ∧ (dpa.toNat / 4096 < s.last.hostPages) ∧ (e.state = .hot) ∧ (s.compatSlot dpa = some i) ∧ (s.lineContent e.frame.toNat (fld dpa 6 6) = some r))
    ∧ (∃ (s : State) (m : Msg) (n : Byte), (s.runs m { op := 0xC0B1, roles := rBmcOwn, sess := false, l0 := false, secure := false, inLen := 1, body := 0 }) ∧ (n.toNat < 8))
    ∧ (∃ (s : State) (m : Msg) (n : Byte), (s.runs m { op := 0xC0B1, roles := rBmcOwn, sess := false, l0 := false, secure := false, inLen := 1, body := 0 }) ∧ (n.toNat ≥ 8))
    ∧ (∃ (s : State) (m : Msg), (s.runs m { op := 0xC0B2, roles := rFmBmcOwn, sess := false, l0 := false, secure := false, inLen := 0, body := 128 })) :=
  ⟨⟨(live), (bmc 8), (0x100000141), _, ⟨by decide +kernel, by decide +kernel⟩, (Option.some_get (by decide +kernel)).symm⟩,
   ⟨(live), (bmc 1), (0), ⟨by decide +kernel, by decide +kernel⟩, by decide +kernel, by decide +kernel, by decide +kernel, by decide +kernel, by decide +kernel⟩,
   ⟨((live.setUnit 0 (some { unitOut with cause := 1, state := 3 })).updChan 1 fun c => { c with present := true }), (bmc 1), (1), _, _, ⟨by decide +kernel, by decide +kernel⟩, by decide +kernel, some_pair (by decide +kernel), by decide +kernel, by decide +kernel, by decide +kernel, by decide +kernel⟩,
   ⟨(live), (bmc 16), (0), (0x1C20000100000100), _, ⟨by decide +kernel, by decide +kernel⟩, by decide +kernel, (Option.some_get (by decide +kernel)).symm, by decide +kernel⟩,
   ⟨(live), (bmc 3), (0), (2), (1), ⟨by decide +kernel, by decide +kernel⟩, by decide +kernel, by decide +kernel, by decide +kernel, by decide +kernel, by decide +kernel, by decide +kernel⟩,
   ⟨(live), (bmc 12), (0), (0), (1), _, ⟨by decide +kernel, by decide +kernel⟩, by decide +kernel, by decide +kernel, rfl⟩,
   ⟨(live), (bmc 0), ⟨by decide +kernel, by decide +kernel⟩⟩,
   ⟨(live), (bmc 2), (1), (8), ⟨by decide +kernel, by decide +kernel⟩, by decide +kernel, by decide +kernel, by decide +kernel, by decide +kernel⟩,
   ⟨(live.updDrive 3 fun d => { d with state := 4 }), (bmc 2), (3), ⟨by decide +kernel, by decide +kernel⟩, by decide +kernel, by decide +kernel⟩,
   ⟨(live), (bmc 1), (3), ⟨by decide +kernel, by decide +kernel⟩, by decide +kernel, by decide +kernel⟩,
   ⟨(compatible), (bmc 8), (0x5000), _, _, _, ⟨by decide +kernel, by decide +kernel⟩, rfl, by decide +kernel, by decide +kernel, by decide +kernel, (Option.some_get (by decide +kernel)).symm, compat_ok (by decide +kernel) (by decide +kernel)⟩,
   ⟨(live), (bmc 1), (7), ⟨by decide +kernel, by decide +kernel⟩, by decide +kernel⟩,
   ⟨(live), (bmc 1), (8), ⟨by decide +kernel, by decide +kernel⟩, by decide +kernel⟩,
   ⟨(live), (bmc 0), ⟨by decide +kernel, by decide +kernel⟩⟩⟩

theorem witness_KeyCommands :
    (∃ (s : State) (m : Msg) (k : W16) (mask : W32), (s.runs m (keyGate 0xC090 80 0 rLdBmcOwn)) ∧ (1 ≤ k.toNat) ∧ (k.toNat ≤ 4095) ∧ (s.mayMask (s.role m) k.toNat mask = true) ∧ (s.mayAct (s.role m) k.toNat = true) ∧ ((s.slot k.toNat).state = .empty) ∧ (s.overQuota (s.role m) = false))
    ∧ (∃ (s : State) (m : Msg) (k : W16), (s.runs m (keyGate 0xC091 2 0 rLdBmcOwn)) ∧ (1 ≤ k.toNat) ∧ (k.toNat ≤ 4095) ∧ (s.mayAct (s.role m) k.toNat = true) ∧ ((s.slot k.toNat).state = .loaded) ∧ ((s.slot k.toNat).destroying = false))
    ∧ (∃ (s : State) (k : BitVec 12), ((s.slot k.toNat).destroying = true) ∧ (s.keyInflight k.toNat = 0) ∧ ((s.zeroizeSlot k.toNat).world.secure ≠ .restarting))
    ∧ (∃ (s : State) (m : Msg) (k : W16) (x : Sys2Proof.Machine.KeySlot), (s.runs m (keyGate 0xC092 2 16 rLdBmcOwn)) ∧ (k.toNat ≤ 4095) ∧ (s.mayAct (s.role m) k.toNat = true) ∧ (x = s.slot k.toNat))
    ∧ (∃ (s : State) (m : Msg) (ld : Byte) (k : W16), (s.runs m (keyGate 0xC093 4 0 rLdOwn)) ∧ (s.hasLd ld.toNat = true) ∧ (k.toNat ≤ 4095) ∧ (othersLd (s.role m) ld.toNat = false) ∧ ((s.slot k.toNat).state = .loaded) ∧ ((s.slot k.toNat).mask.getLsbD ld.toNat = true))
    ∧ (∃ (s : State) (m : Msg) (ld : Byte), (s.runs m (keyGate 0xC094 4 0 rFmOwn)) ∧ (s.hasLd ld.toNat = true))
    ∧ (∃ (s : State) (m : Msg) (k : W16), (s.runs m (keyGate 0xC095 8 0 rOwn)) ∧ (1 ≤ k.toNat) ∧ (k.toNat ≤ 4095)) :=
  ⟨⟨(inSession), (md 80), (9), (1), ⟨by decide +kernel, by decide +kernel⟩, by decide +kernel, by decide +kernel, by decide +kernel, by decide +kernel, by decide +kernel, by decide +kernel⟩,
   ⟨(keyed), (md 2), (9), ⟨by decide +kernel, by decide +kernel⟩, by decide +kernel, by decide +kernel, by decide +kernel, by decide +kernel, by decide +kernel⟩,
   ⟨(live.updSlot 9 fun x => { x with state := .loaded, destroying := true }), (9), by decide +kernel, by decide +kernel, by decide +kernel⟩,
   ⟨(keyed), (md 2), (9), _, ⟨by decide +kernel, by decide +kernel⟩, by decide +kernel, by decide +kernel, rfl⟩,
   ⟨(keyed), (md 4), (0), (9), ⟨by decide +kernel, by decide +kernel⟩, by decide +kernel, by decide +kernel, by decide +kernel, by decide +kernel, by decide +kernel⟩,
   ⟨(owned), (mo 4), (0), ⟨by decide +kernel, by decide +kernel⟩, by decide +kernel⟩,
   ⟨(owned), (mo 8), (9), ⟨by decide +kernel, by decide +kernel⟩, by decide +kernel, by decide +kernel⟩⟩

theorem witness_TspRequests :
    (∃ (s : State) (ld : Fin 32) (x : Fin 8), (s.tspHere ld x = true) ∧ (s.world.secure = .up) ∧ (∀ h, (s.fn ld.val).head = some h → s.head68 h.val = false))
    ∧ (∃ (s : State) (ld : Fin 32) (x : Fin 8), (s.tspHere ld x = true) ∧ (s.world.secure = .up) ∧ (∀ h, (s.fn ld.val).head = some h → s.head68 h.val = false))
    ∧ (∃ (s : State) (ld : Fin 32) (x : Fin 8), (s.tspHere ld x = true) ∧ (s.world.secure = .up) ∧ (∀ h, (s.fn ld.val).head = some h → s.head68 h.val = false) ∧ ((s.tspOf ld.val).locked = false))
    ∧ (∃ (s : State) (ld : Fin 32) (x : Fin 8), (s.tspHere ld x = true) ∧ (s.world.secure = .up) ∧ (∀ h, (s.fn ld.val).head = some h → s.head68 h.val = false) ∧ ((s.tspOf ld.val).locked = true))
    ∧ (∃ (s : State) (ld : Fin 32) (x : Fin 8), (s.tspHere ld x = true) ∧ (s.world.secure = .up) ∧ (∀ h, (s.fn ld.val).head = some h → s.head68 h.val = false))
    ∧ (∃ (s : State) (ld : Fin 32) (x : Fin 8), (s.tspHere ld x = true) ∧ (s.world.secure = .up) ∧ (∀ h, (s.fn ld.val).head = some h → s.head68 h.val = false))
    ∧ (∃ (s : State) (ld : Fin 32) (x : Fin 8), (s.tspHere ld x = true) ∧ (s.world.secure = .up) ∧ (∀ h, (s.fn ld.val).head = some h → s.head68 h.val = false))
    ∧ (∃ (s : State) (ld : Fin 32) (x : Fin 8) (ckid : BitVec 13) (slot : BitVec 12) (k : ℕ), (s.tspHere ld x = true) ∧ (s.world.secure = .up) ∧ (∀ h, (s.fn ld.val).head = some h → s.head68 h.val = false) ∧ ((s.tspOf ld.val).locked = false) ∧ (ckid.toNat ≤ 127) ∧ ((Tab.get (fun _ => none) (s.tspOf ld.val).ckids ckid.toNat : Option (BitVec 12)) = none) ∧ (s.overQuota (.ld ld) = false) ∧ (s.emptyKeySlot slot.toNat = some k))
    ∧ (∃ (s : State) (ld : Fin 32) (x : Fin 8), (s.tspHere ld x = true) ∧ (s.world.secure = .up) ∧ (∀ h, (s.fn ld.val).head = some h → s.head68 h.val = false) ∧ ((s.tspOf ld.val).locked = true))
    ∧ (∃ (s : State) (ld : Fin 32) (x : Fin 8) (ckid : BitVec 13) (k : BitVec 12), (s.tspHere ld x = true) ∧ (s.world.secure = .up) ∧ (∀ h, (s.fn ld.val).head = some h → s.head68 h.val = false) ∧ ((s.tspOf ld.val).locked = false) ∧ ((Tab.get (fun _ => none) (s.tspOf ld.val).ckids ckid.toNat : Option (BitVec 12)) = some k) ∧ (k ≠ 0) ∧ (((s.setCkid ld.val ckid.toNat none).slot k.toNat).state = .loaded))
    ∧ (∃ (s : State) (ld : Fin 32) (x : Fin 8), (s.tspHere ld x = true) ∧ (s.world.secure = .up) ∧ (∀ h, (s.fn ld.val).head = some h → s.head68 h.val = false)) :=
  ⟨⟨(tspState), (0), (1), by decide +kernel, by decide +kernel, by decide +kernel⟩,
   ⟨(tspState), (0), (1), by decide +kernel, by decide +kernel, by decide +kernel⟩,
   ⟨(tspState), (0), (1), by decide +kernel, by decide +kernel, by decide +kernel, by decide +kernel⟩,
   ⟨(tspState.updTspOf 0 fun t => { t with locked := true }), (0), (1), by decide +kernel, by decide +kernel, by decide +kernel, by decide +kernel⟩,
   ⟨(tspState), (0), (1), by decide +kernel, by decide +kernel, by decide +kernel⟩,
   ⟨(tspState), (0), (1), by decide +kernel, by decide +kernel, by decide +kernel⟩,
   ⟨(tspState), (0), (1), by decide +kernel, by decide +kernel, by decide +kernel⟩,
   ⟨(tspState), (0), (1), (127), (4000), _, by decide +kernel, by decide +kernel, by decide +kernel, by decide +kernel, by decide +kernel, by decide +kernel, by decide +kernel, (Option.some_get (by decide +kernel)).symm⟩,
   ⟨(tspState.updTspOf 0 fun t => { t with locked := true }), (0), (1), by decide +kernel, by decide +kernel, by decide +kernel, by decide +kernel⟩,
   ⟨((tspState.setCkid 0 5 (some 9)).updSlot 9 fun x => { x with state := .loaded }), (0), (1), (5), (9), by decide +kernel, by decide +kernel, by decide +kernel, by decide +kernel, by decide +kernel, by decide +kernel, by decide +kernel⟩,
   ⟨(tspState), (0), (1), by decide +kernel, by decide +kernel, by decide +kernel⟩⟩

theorem witness_SpdmRequests :
    (∃ (s : State) (m : Msg), (spdmPath m.path = true) ∧ (s.pathHere m.path = true) ∧ (s.world.normal = .up) ∧ (s.world.secure = .up))
    ∧ (∃ (s : State) (m : Msg), (spdmPath m.path = true) ∧ (s.pathHere m.path = true) ∧ (s.world.normal = .up) ∧ (s.world.secure = .up))
    ∧ (∃ (s : State) (m : Msg), (spdmPath m.path = true) ∧ (s.pathHere m.path = true) ∧ (s.world.normal = .up) ∧ (s.world.secure = .up))
    ∧ (∃ (s : State) (m : Msg), (spdmPath m.path = true) ∧ (s.pathHere m.path = true) ∧ (s.world.normal = .up) ∧ (s.world.secure = .up) ∧ (s.world.negotiated.contains m.path = true))
    ∧ (∃ (s : State) (m : Msg), (spdmPath m.path = true) ∧ (s.pathHere m.path = true) ∧ (s.world.normal = .up) ∧ (s.world.secure = .up) ∧ (s.world.negotiated.contains m.path = true))
    ∧ (∃ (s : State) (m : Msg), (spdmPath m.path = true) ∧ (s.pathHere m.path = true) ∧ (s.world.normal = .up) ∧ (s.world.secure = .up) ∧ (s.world.negotiated.contains m.path = true))
    ∧ (∃ (s : State) (m : Msg) (i : Byte), (spdmPath m.path = true) ∧ (s.pathHere m.path = true) ∧ (s.world.normal = .up) ∧ (s.world.secure = .up) ∧ (s.world.negotiated.contains m.path = true) ∧ (1 ≤ i.toNat) ∧ (i.toNat ≤ 9))
    ∧ (∃ (s : State) (m : Msg) (k : ℕ), (spdmPath m.path = true) ∧ (s.pathHere m.path = true) ∧ (s.world.normal = .up) ∧ (s.world.secure = .up) ∧ (s.world.negotiated.contains m.path = true) ∧ (((List.range 8).find? fun k => (s.sessionOf k).isNone) = some k))
    ∧ (∃ (s : State) (m : Msg) (i : Fin 8) (x : Sys2Proof.Machine.Session), (spdmPath m.path = true) ∧ (s.pathHere m.path = true) ∧ (s.world.normal = .up) ∧ (s.world.secure = .up) ∧ (s.world.negotiated.contains m.path = true) ∧ (s.sessionOf i.val = some x) ∧ (x.finished = false) ∧ (x.ld = pathLd m.path))
    ∧ (∃ (s : State) (m : Msg) (i : Fin 8) (x : Sys2Proof.Machine.Session), (spdmPath m.path = true) ∧ (s.pathHere m.path = true) ∧ (s.world.normal = .up) ∧ (s.world.secure = .up) ∧ (s.world.negotiated.contains m.path = true) ∧ (s.msgSession m = some x) ∧ (m.session = some i))
    ∧ (∃ (s : State) (m : Msg) (i : Fin 8) (x : Sys2Proof.Machine.Session), (spdmPath m.path = true) ∧ (s.pathHere m.path = true) ∧ (s.world.normal = .up) ∧ (s.world.secure = .up) ∧ (s.world.negotiated.contains m.path = true) ∧ (s.msgSession m = some x) ∧ (m.session = some i))
    ∧ (∃ (s : State) (m : Msg) (i : Fin 8) (x : Sys2Proof.Machine.Session), (spdmPath m.path = true) ∧ (s.pathHere m.path = true) ∧ (s.world.normal = .up) ∧ (s.world.secure = .up) ∧ (s.world.negotiated.contains m.path = true) ∧ (s.msgSession m = some x) ∧ (m.session = some i))
    ∧ (∃ (s : State) (m : Msg) (x : Sys2Proof.Machine.Session) (t : Sys2Proof.Machine.State), (spdmPath m.path = true) ∧ (s.pathHere m.path = true) ∧ (s.world.normal = .up) ∧ (s.world.secure = .up) ∧ (s.world.negotiated.contains m.path = true) ∧ (s.msgSession m = some x) ∧ (s.ownerSession x = true) ∧ (t = securityRecord (match pathLd m.path with | some ld => ld.val | none => 0xFF) 0 0xFE 0 0 s))
    ∧ (∃ (s : State) (m : Msg) (i : Fin 8) (p : Fin 2) (x : Sys2Proof.Machine.Session) (ld : Fin 32), (spdmPath m.path = true) ∧ (s.pathHere m.path = true) ∧ (s.world.normal = .up) ∧ (s.world.secure = .up) ∧ (s.world.negotiated.contains m.path = true) ∧ (s.sessionOf i.val = some x) ∧ (x.ld = some ld) ∧ (x.finished = true) ∧ (portOfLd ld.val = p.val)) :=
  ⟨⟨(live), (bmc 0), by decide +kernel, by decide +kernel, by decide +kernel, by decide +kernel⟩,
   ⟨(live), (bmc 0), by decide +kernel, by decide +kernel, by decide +kernel, by decide +kernel⟩,
   ⟨(live), (bmc 0), by decide +kernel, by decide +kernel, by decide +kernel, by decide +kernel⟩,
   ⟨(agreed), (bmc 0), by decide +kernel, by decide +kernel, by decide +kernel, by decide +kernel, by decide +kernel⟩,
   ⟨(agreed), (bmc 0), by decide +kernel, by decide +kernel, by decide +kernel, by decide +kernel, by decide +kernel⟩,
   ⟨(agreed), (bmc 0), by decide +kernel, by decide +kernel, by decide +kernel, by decide +kernel, by decide +kernel⟩,
   ⟨(agreed), (bmc 0), (9), by decide +kernel, by decide +kernel, by decide +kernel, by decide +kernel, by decide +kernel, by decide +kernel, by decide +kernel⟩,
   ⟨(agreed), (bmc 0), _, by decide +kernel, by decide +kernel, by decide +kernel, by decide +kernel, by decide +kernel, (Option.some_get (by decide +kernel)).symm⟩,
   ⟨(agreed.setSessionOf 7 (some { sess with ld := none, finished := false })), (bmc 0), (7), _, by decide +kernel, by decide +kernel, by decide +kernel, by decide +kernel, by decide +kernel, (Option.some_get (by decide +kernel)).symm, by decide +kernel, by decide +kernel⟩,
   ⟨(agreed.setSessionOf 7 (some { sess with ld := none })), ({ bmc 0 with session := some 7 }), (7), _, by decide +kernel, by decide +kernel, by decide +kernel, by decide +kernel, by decide +kernel, (Option.some_get (by decide +kernel)).symm, by decide +kernel⟩,
   ⟨(agreed.setSessionOf 7 (some { sess with ld := none })), ({ bmc 0 with session := some 7 }), (7), _, by decide +kernel, by decide +kernel, by decide +kernel, by decide +kernel, by decide +kernel, (Option.some_get (by decide +kernel)).symm, by decide +kernel⟩,
   ⟨(agreed.setSessionOf 7 (some { sess with ld := none })), ({ bmc 0 with session := some 7 }), (7), _, by decide +kernel, by decide +kernel, by decide +kernel, by decide +kernel, by decide +kernel, (Option.some_get (by decide +kernel)).symm, by decide +kernel⟩,
   ⟨(owned.mapWorld fun w => { w with negotiated := [.mctpBmc] }), (mo 0), _, _, by decide +kernel, by decide +kernel, by decide +kernel, by decide +kernel, by decide +kernel, (Option.some_get (by decide +kernel)).symm, by decide +kernel, rfl⟩,
   ⟨(agreed.setSessionOf 7 (some sess)), (bmc 0), (7), (0), _, (0), by decide +kernel, by decide +kernel, by decide +kernel, by decide +kernel, by decide +kernel, (Option.some_get (by decide +kernel)).symm, by decide +kernel, by decide +kernel, by decide +kernel⟩⟩

theorem witness_WorldEvents :
    (∃ (s : State), (s.world.secure = .up))
    ∧ (∃ (s : State), (s.world.secure = .up) ∧ (s.world.normal = .up))
    ∧ (∃ (s : State) (core : Fin 8), ((s.core core.val).1 = false) ∧ (core.val ≥ 6) ∧ (s.world.secure = .up))
    ∧ (∃ (s : State) (core : Fin 8), ((s.core core.val).1 = false) ∧ (core.val < 6) ∧ (s.world.normal = .up))
    ∧ (∃ (s : State), (s.power.bringup = 2))
    ∧ (∃ (s : State), (s.power.bringup = 6) ∧ (s.world.secure = .restarting))
    ∧ (∃ (s : State), (s.world.normal = .restarting) ∧ (s.power.bringup = 6) ∧ (s.world.recovery = false) ∧ (s.world.staged = none))
    ∧ (∃ (s : State) (p : Sys2Proof.FwPackage), (s.world.secure = .up) ∧ (s.slotFw s.world.secureB = some p) ∧ (s.time ≥ max s.world.secureStart (s.world.faultTimes.head?.getD 0) + Config.nsDay))
    ∧ (∃ (s : State) (page : BitVec 21) (o : Sys2Proof.PageOwner), (s.world.secure = .up) ∧ (page.toNat < internalPages) ∧ (o ≠ .secure))
    ∧ (∃ (s : State) (page : BitVec 21), (s.world.secure = .up) ∧ (page.toNat < 4096) ∧ (s.pageOwner page.toNat ≠ .secure) ∧ (s.securePages false ≥ 2048))
    ∧ (∃ (s : State) (core : Fin 8) (b : Sys2Proof.HubBlock), ((s.core core.val).1 = false) ∧ (blockWorld b = some (coreWorld core.val)))
    ∧ (∃ (s : State) (core : Fin 8) (b : Sys2Proof.HubBlock), ((s.core core.val).1 = false) ∧ (blockWorld b ≠ some (coreWorld core.val)))
    ∧ (∃ (s : State) (r : Requester) (page : BitVec 21) (write : Bool), (page.toNat < internalPages) ∧ (pageAllows r (s.pageOwner page.toNat) write = false)) :=
  ⟨⟨(live), by decide +kernel⟩,
   ⟨(live), by decide +kernel, by decide +kernel⟩,
   ⟨(live), (7), by decide +kernel, by decide +kernel, by decide +kernel⟩,
   ⟨(live), (5), by decide +kernel, by decide +kernel, by decide +kernel⟩,
   ⟨(live.mapPower fun p => { p with bringup := 2 }), by decide +kernel⟩,
   ⟨(live.mapWorld fun w => { w with secure := .restarting }), by decide +kernel, by decide +kernel⟩,
   ⟨(live.mapWorld fun w => { w with normal := .restarting }), by decide +kernel, by decide +kernel, by decide +kernel, by decide +kernel⟩,
   ⟨({ (live.mapWorld fun w => { w with fwA := some package, fwB := some package }) with time := 100000000000000 }), _, by decide +kernel, (Option.some_get (by decide +kernel)).symm, by decide +kernel⟩,
   ⟨(live), (0), (.normal), by decide +kernel, by decide +kernel, by decide +kernel⟩,
   ⟨((live.mapWorld fun w => { w with pages := (List.range 2048).map fun k => (k, .secure) })), (4095), by decide +kernel, by decide +kernel, by decide +kernel, by decide +kernel⟩,
   ⟨(live), (7), (.fuses), by decide +kernel, by decide +kernel⟩,
   ⟨(live), (0), (.alwaysOn), by decide +kernel, by decide +kernel⟩,
   ⟨((live.setPageOwner 0 .secure)), (.normalCore 5), (0), (false), by decide +kernel, by decide +kernel⟩⟩

theorem witness_TapInstructions :
    (∃ (s : State), (s.power.resetNLow = true))
    ∧ (∃ (s : State), (s.power.resetNLow = true))
    ∧ (∃ (s : State), (s.power.resetNLow = true)) :=
  ⟨⟨(live.mapPower fun p => { p with resetNLow := true }), by decide +kernel⟩,
   ⟨(live.mapPower fun p => { p with resetNLow := true }), by decide +kernel⟩,
   ⟨(live.mapPower fun p => { p with resetNLow := true }), by decide +kernel⟩⟩

theorem witness_FaultEvents :
    (∃ (s : State) (events : List (BitVec 11 × Fin 4 × Option (Fin 32))) (es : List Sys2Proof.Machine.Ev) (us : List Sys2Proof.Machine.FenceUnit), (s.flagFences (events.map fun e => { Ev.of e.1.toNat with cls := some (eventClass e.1.toNat e.2.1.val), ld := e.2.2 }) = (es, us)))
    ∧ (∃ (s : State) (q : Sys2Proof.W32) (rest : List Sys2Proof.W32) (r : Sys2Proof.Machine.InsoleRec), (s.fault.expWaiting = q :: rest) ∧ (s.fault.frozen = false) ∧ (s.fault.expEnable = true) ∧ (ringFull s.fault.expLog2 s.fault.expHead.toNat s.fault.expTail.toNat = false) ∧ ((s.mapFault fun f => { f with expWaiting := rest }).insoleRec q = some r))
    ∧ (∃ (s : State), (s.aliveStatus = 0))
    ∧ (∃ (s : State), (s.fault.heartbeat = true))
    ∧ (∃ (s : State) (n : Fin 16) (x : Sys2Proof.Machine.Injection), (s.inj n.val = some x) ∧ (x.left ≠ 0) ∧ (x.due = false) ∧ (x.d.kind = 5))
    ∧ (∃ (s : State) (head : Fin 4), (s.hasFn (32 + head.val) = true)) :=
  ⟨⟨(live), ([(64, 0, none)]), _, _, rfl⟩,
   ⟨(live.mapFault fun f => { f with insole := [logged], expWaiting := [5], expEnable := true, expLog2 := 12 }), (5), ([]), _, by decide +kernel, by decide +kernel, by decide +kernel, by decide +kernel, (Option.some_get (by decide +kernel)).symm⟩,
   ⟨(live.mapFault fun f => { f with aliveSeen := true, heartbeat := true }), by decide +kernel⟩,
   ⟨(live.mapFault fun f => { f with heartbeat := true }), by decide +kernel⟩,
   ⟨(live.setInj 15 (some { d := { injected with kind := 5 }, number := 9, left := 1, due := false, marked := false })), (15), _, (Option.some_get (by decide +kernel)).symm, by decide +kernel, by decide +kernel, by decide +kernel⟩,
   ⟨(live), (0), by decide +kernel⟩⟩

theorem witness_PerfEvents :
    (∃ (s : State) (fn : Fin 36), (s.hasFn fn.val = true))
    ∧ (∃ (s : State) (fn : Fin 36) (u : Fin 21), (s.hasFn fn.val = true) ∧ (s.pmHas u.val = true))
    ∧ (∃ (s : State) (fn : Fin 36) (p : Fin 2), (s.hasFn fn.val = true) ∧ (s.hasHead (2 * p.val) = true))
    ∧ (∃ (s : State) (fn : Fin 36), (s.hasFn fn.val = true))
    ∧ (∃ (s : State) (fn : Fin 36) (f : Sys2Proof.Machine.PerfFn), (s.hasFn fn.val = true) ∧ (f = s.perfFn fn.val) ∧ (f.periodUs ≠ 0) ∧ (f.ringEnable = true) ∧ (s.exporting = false) ∧ (ringFull f.ringLog2 f.dumpHead f.dumpTail = false)) :=
  ⟨⟨(live), (32), by decide +kernel⟩,
   ⟨(live), (32), (20), by decide +kernel, by decide +kernel⟩,
   ⟨(live), (0), (0), by decide +kernel, by decide +kernel⟩,
   ⟨(live), (0), by decide +kernel⟩,
   ⟨(live.updPerfFn 0 fun f => { f with periodUs := 10, ringEnable := true, ringLog2 := 12 }), (0), _, by decide +kernel, rfl, by decide +kernel, by decide +kernel, by decide +kernel, by decide +kernel⟩⟩

theorem witness_PowerEvents :
    (∃ (s : State), (s.power.pwrgood = true) ∧ (s.power.xtalFallback = false))
    ∧ (∃ (s : State), (s.power.pwrgood = true))
    ∧ (∃ (s : State) (pair : Fin 6), (s.power.pwrgood = true) ∧ (s.hasChannel (2 * pair.val) = true))
    ∧ (∃ (s : State), (s.power.pwrgood = true) ∧ ((s.pinOf 3).isSome = true))
    ∧ (∃ (s : State) (n : Fin 4), (s.hasDrive n.val = true))
    ∧ (∃ (s : State) (n : Fin 4) (p : Sys2Proof.Machine.State), (s.hasDrive n.val = true) ∧ (p = (s.updDrive n.val fun x => { x with prsnt := false, perst := false }).emit (.drive n "perst" 0)) ∧ (p.driveWrites n.val = false))
    ∧ (∃ (s : State) (b : BringUp), (b.wf = true) ∧ (s.power.pwrgood = true) ∧ (s.power.resetNLow = true))
    ∧ (∃ (s : State) (mv : W16), (s.power.pwrgood = true) ∧ (s.power.railBad = false) ∧ (40 * (mv.toNat - s.power.vcoreMv + (s.power.vcoreMv - mv.toNat)) ≤ s.power.vcoreMv))
    ∧ (∃ (s : State) (mv : W16), (s.power.pwrgood = true) ∧ (s.power.railBad = false) ∧ (s.power.vcoreMv < 40 * (mv.toNat - s.power.vcoreMv + (s.power.vcoreMv - mv.toNat))))
    ∧ (∃ (s : State), (s.power.pwrgood = true) ∧ (s.power.avsTries < 2))
    ∧ (∃ (s : State), (s.power.pwrgood = true) ∧ (s.power.avsTries = 2))
    ∧ (∃ (s : State) (tj : Int), (s.power.pwrgood = true) ∧ (100 ≤ tj) ∧ (tj < 110) ∧ (s.power.throttle = false))
    ∧ (∃ (s : State) (tj : Int), (s.power.pwrgood = true) ∧ (tj < 95))
    ∧ (∃ (s : State) (tj : Int), (s.power.pwrgood = true) ∧ (95 ≤ tj) ∧ (tj < 100))
    ∧ (∃ (s : State) (tj : Int), (s.power.pwrgood = true) ∧ (110 ≤ tj) ∧ (s.power.throttle = true) ∧ (s.power.tjCritSince = none)) :=
  ⟨⟨(live), by decide +kernel, by decide +kernel⟩,
   ⟨(live), by decide +kernel⟩,
   ⟨(live), (5), by decide +kernel, by decide +kernel⟩,
   ⟨(live.mapPower fun p => { p with gpio := [(0, 3)] }), by decide +kernel, by decide +kernel⟩,
   ⟨(live), (3), by decide +kernel⟩,
   ⟨(live), (3), _, by decide +kernel, rfl, by decide +kernel⟩,
   ⟨(live.mapPower fun p => { p with resetNLow := true }), (bring), by decide +kernel, by decide +kernel, by decide +kernel⟩,
   ⟨(live), (BitVec.ofNat 16 live.power.vcoreMv), by decide +kernel, by decide +kernel, by decide +kernel⟩,
   ⟨(live), (0), by decide +kernel, by decide +kernel, by decide +kernel⟩,
   ⟨(live), by decide +kernel, by decide +kernel⟩,
   ⟨(live.mapPower fun p => { p with avsTries := 2 }), by decide +kernel, by decide +kernel⟩,
   ⟨(live), (109), by decide +kernel, by decide +kernel, by decide +kernel, by decide +kernel⟩,
   ⟨(live), (-5), by decide +kernel, by decide +kernel⟩,
   ⟨(live), (95), by decide +kernel, by decide +kernel, by decide +kernel⟩,
   ⟨(live.mapPower fun p => { p with throttle := true }), (110), by decide +kernel, by decide +kernel, by decide +kernel, by decide +kernel⟩⟩

theorem witness_WaitsEnd :
    (∃ (s : State) (master : Fin 39) (row : Bool) (t : Sys2Proof.Machine.State), (t = s.updMaster master.val (fun m => if row then { m with holdRow := false } else { m with holdSoft := false })))
    ∧ (∃ (s : State) (tag : BitVec 13) (t : Sys2Proof.Machine.State), (t = s.mapReg (fun r => { r with arbiter := r.arbiter.map fun q => if q.tag = tag then { q with aged := true } else q })))
    ∧ (∃ (s : State) (ch : Fin 12) (m : Sys2Proof.Msg) (t : Sys2Proof.Machine.State), ((s.chan ch.val).slotStep = .spdRead) ∧ ((s.chan ch.val).rejoinWait = some m) ∧ (t = (s.updChan ch.val fun c => { c with slotStep := .powered, state := 2, full := true, rejoinWait := none }).setUnitState ch.val 4))
    ∧ (∃ (s : State) (ch : Fin 12) (dimms : List (Fin 2 × Sys2Proof.Dimm)), ((s.chan ch.val).slotStep = .powering) ∧ (framesOf dimms < (s.chan ch.val).frames ∨ dimms.all (fun d => dimmSupported d.2) = false))
    ∧ (∃ (s : State) (ch : Fin 12) (dimms : List (Fin 2 × Sys2Proof.Dimm)), ((s.chan ch.val).slotStep = .powering) ∧ ((s.chan ch.val).frames ≤ framesOf dimms) ∧ (dimms.all (fun d => dimmSupported d.2) = true))
    ∧ (∃ (s : State) (ch : Fin 12) (m : Sys2Proof.Msg), ((s.chan ch.val).slotStep = .parking) ∧ ((s.chan ch.val).quiesceWait = some m))
    ∧ (∃ (s : State) (n : Fin 4) (d : DriveInfo) (b : Sys2Proof.Board) (u : Sys2Proof.Machine.State), (s.hasDrive n.val = true) ∧ (s.driveWrites n.val = false) ∧ (d.margin ≥ 10) ∧ (s.power.board = some b) ∧ (Tab.get (fun _ => 0) s.power.derateDrive n.val = 0) ∧ (d.candidate = false) ∧ (u = s.updDrive n.val (fun x => { x with x8 := b.flags.getLsbD 2, speed := d.gen, margin := d.margin, blocks := d.blocks.toNat / 32 * 32, nguid := d.nguid, fit := false, commands := [], perst := true, written := 0, rate := 0, rebuilt := 0 })) ∧ (u.driveMeets n.val d = true) ∧ (u.shank.failedMember = none))
    ∧ (∃ (s : State) (fn : Fin 36) (op : Sys2Proof.W16), ((s.cmdLd fn.val).background = some (op, false)))
    ∧ (∃ (s : State) (t : Fin 20) (m : Sys2Proof.Msg) (c : DdrControl), (t.val < 12) ∧ ((s.chan t.val).rateDeferred = some (m, c)))
    ∧ (∃ (s : State) (fn : Fin 36), (s.hasFn fn.val = true))
    ∧ (∃ (s : State) (ld : Fin 32) (base : W64) (size : W64) (ways : Fin 17) (gran : W16), (s.hasLd ld.val = true) ∧ ((Tab.get (fun _ => none) (s.fn ld.val).hdm 0 : Option HdmDecoder) = none) ∧ (hdmOk base.toNat size.toNat ways.val gran.toNat = true) ∧ (base.toNat + size.toNat ≤ 2 ^ 64)) :=
  ⟨⟨(live), (38), (true), _, rfl⟩,
   ⟨(live), (8191), _, rfl⟩,
   ⟨(live.updChan 11 fun c => { c with slotStep := .spdRead, rejoinWait := some (bmc 1) }), (11), _, _, by decide +kernel, (Option.some_get (by decide +kernel)).symm, rfl⟩,
   ⟨(live.updChan 0 fun c => { c with slotStep := .powering }), (0), ([]), by decide +kernel, by decide +kernel⟩,
   ⟨(live.updChan 11 fun c => { c with slotStep := .powering }), (11), ([(1, dimm)]), by decide +kernel, by decide +kernel, by decide +kernel⟩,
   ⟨(live.updChan 11 fun c => { c with slotStep := .parking, quiesceWait := some (bmc 1) }), (11), _, by decide +kernel, (Option.some_get (by decide +kernel)).symm⟩,
   ⟨(live.mapPower fun p => { p with board := some board, boardOk := true }), (3), (plugged), _, _, by decide +kernel, by decide +kernel, by decide +kernel, (Option.some_get (by decide +kernel)).symm, by decide +kernel, by decide +kernel, rfl, by decide +kernel, by decide +kernel⟩,
   ⟨(live.updCmdLd 35 fun c => { c with background := some (0x4400, false) }), (35), _, some_pair (by decide +kernel)⟩,
   ⟨(live.updChan 11 fun c => { c with rateDeferred := some (bmc 2, (live.chan 11).control) }), (11), _, _, by decide +kernel, some_pair (by decide +kernel)⟩,
   ⟨(live), (32), by decide +kernel⟩,
   ⟨(live), (0), (0), (0x10000000), (16), (16384), by decide +kernel, by decide +kernel, by decide +kernel, by decide +kernel⟩⟩

theorem witness_TurnedAway :
    (∃ (s : State) (m : Msg) (st : W16), (s.turned m { op := 0xC083, roles := rBmcOwn, sess := false, l0 := true, secure := false, inLen := 16, body := 0 } st))
    ∧ (∃ (s : State) (m : Msg) (st : W16), (s.turned m { op := 0xC081, roles := rBmcOwn, sess := false, l0 := true, secure := false, inLen := 1, body := 0 } st))
    ∧ (∃ (s : State) (m : Msg) (st : W16), (s.turned m { op := 0xC082, roles := rBmcOwn, sess := false, l0 := true, secure := false, inLen := 1, body := 0 } st))
    ∧ (∃ (s : State) (m : Msg) (st : W16) (op : Byte), (s.turned m { op := 0xC004, roles := rBmc, sess := false, l0 := false, secure := false, inLen := 2, body := 8 } st))
    ∧ (∃ (s : State) (m : Msg) (st : W16), (s.turned m { op := 0xC000, roles := rAll, sess := false, l0 := false, secure := false, inLen := 0, body := 10 } st))
    ∧ (∃ (s : State) (m : Msg) (st : W16), (s.turned m { op := 0xC001, roles := rAll, sess := false, l0 := false, secure := false, inLen := 2, body := 2 } st))
    ∧ (∃ (s : State) (m : Msg) (st : W16), (s.turned m { op := 0xC002, roles := s.mayOwn, sess := false, l0 := false, secure := true, inLen := 48, body := 0 } st))
    ∧ (∃ (s : State) (m : Msg) (st : W16), (s.turned m { op := 0xC063, roles := rBmcOwn, sess := false, l0 := true, secure := false, inLen := 32, body := 4 } st))
    ∧ (∃ (s : State) (m : Msg) (st : W16), (s.turned m { op := 0xC064, roles := rBmcOwn, sess := false, l0 := false, secure := false, inLen := 4, body := 0 } st))
    ∧ (∃ (s : State) (m : Msg) (st : W16), (s.turned m { op := 0xC060, roles := rBmcOwn, sess := false, l0 := false, secure := false, inLen := 16, body := 0 } st))
    ∧ (∃ (s : State) (m : Msg) (st : W16), (s.turned m { op := 0xC061, roles := rBmcOwn, sess := false, l0 := false, secure := false, inLen := 4, body := 0 } st))
    ∧ (∃ (s : State) (m : Msg) (st : W16), (s.turned m { op := 0xC062, roles := rAll, sess := false, l0 := false, secure := false, inLen := 4, body := 8 } st))
    ∧ (∃ (s : State) (m : Msg) (st : W16), (s.turned m { op := 0xC070, roles := rFmBmcOwn, sess := false, l0 := false, secure := false, inLen := 8, body := 8 } st))
    ∧ (∃ (s : State) (m : Msg) (st : W16), (s.turned m { op := 0xC071, roles := rBmcOwn, sess := false, l0 := false, secure := false, inLen := 0, body := 0 } st))
    ∧ (∃ (s : State) (m : Msg) (st : W16), (s.turned m { op := 0xC010, roles := rBmcOwn, sess := false, l0 := false, secure := false, inLen := 32, body := 0 } st))
    ∧ (∃ (s : State) (m : Msg) (st : W16), (s.turned m { op := 0xC011, roles := rFm, sess := false, l0 := false, secure := false, inLen := 12, body := 0 } st))
    ∧ (∃ (s : State) (m : Msg) (st : W16), (s.turned m { op := 0xC012, roles := rFmOwn, sess := false, l0 := false, secure := false, inLen := 10, body := 0 } st))
    ∧ (∃ (s : State) (m : Msg) (st : W16), (s.turned m { op := 0xC013, roles := rFmBmcOwn, sess := false, l0 := false, secure := false, inLen := 4, body := 0 } st))
    ∧ (∃ (s : State) (m : Msg) (st : W16), (s.turned m { op := 0xC0A0, roles := rAll, sess := false, l0 := false, secure := false, inLen := 0, body := 192 } st))
    ∧ (∃ (s : State) (m : Msg) (st : W16), (s.turned m (keyGate 0xC090 80 0 rLdBmcOwn) st))
    ∧ (∃ (s : State) (m : Msg) (st : W16), (s.turned m (keyGate 0xC091 2 0 rLdBmcOwn) st))
    ∧ (∃ (s : State) (m : Msg) (st : W16), (s.turned m (keyGate 0xC092 2 16 rLdBmcOwn) st))
    ∧ (∃ (s : State) (m : Msg) (st : W16), (s.turned m (keyGate 0xC093 4 0 rLdOwn) st))
    ∧ (∃ (s : State) (m : Msg) (st : W16), (s.turned m (keyGate 0xC094 4 0 rFmOwn) st))
    ∧ (∃ (s : State) (m : Msg) (st : W16), (s.turned m (keyGate 0xC095 8 0 rOwn) st))
    ∧ (∃ (s : State) (m : Msg) (st : W16), (s.turned m { op := 0xC084, roles := rBmcOwn, sess := false, l0 := true, secure := false, inLen := 3, body := 0 } st))
    ∧ (∃ (s : State) (m : Msg) (st : W16), (s.turned m { op := 0xC040, roles := rLd, sess := false, l0 := false, secure := false, inLen := 28, body := 4 } st))
    ∧ (∃ (s : State) (m : Msg) (st : W16), (s.turned m { op := 0xC041, roles := rLd, sess := false, l0 := false, secure := false, inLen := 4, body := 0 } st))
    ∧ (∃ (s : State) (m : Msg) (st : W16), (s.turned m { op := 0xC042, roles := rLd, sess := false, l0 := false, secure := false, inLen := 10, body := 0 } st))
    ∧ (∃ (s : State) (m : Msg) (st : W16), (s.turned m { op := 0xC043, roles := rLd, sess := false, l0 := false, secure := false, inLen := 8, body := 0 } st))
    ∧ (∃ (s : State) (m : Msg) (st : W16), (s.turned m { op := 0xC044, roles := rFm, sess := false, l0 := false, secure := false, inLen := 8, body := 0 } st))
    ∧ (∃ (s : State) (m : Msg) (st : W16), (s.turned m { op := 0xC0A1, roles := rBmcOwn, sess := false, l0 := false, secure := false, inLen := 2, body := 0 } st))
    ∧ (∃ (s : State) (m : Msg) (st : W16) (length : W32), (s.turned m { op := 0xC003, roles := rBmcOwn, sess := false, l0 := false, secure := false, inLen := 8, body := if length.toNat ≤ 4096 then length.toNat else 0 } st))
    ∧ (∃ (s : State) (m : Msg) (st : W16) (entries : List (Byte × W64)), (s.turned m { op := 0xC050, roles := rFmBmcOwn, sess := false, l0 := false, secure := false, inLen := 8 + 16 * entries.length, body := 2 } st))
    ∧ (∃ (s : State) (m : Msg) (st : W16), (s.turned m { op := 0xC051, roles := rBmcOwn, sess := false, l0 := false, secure := false, inLen := 8, body := 0 } st))
    ∧ (∃ (s : State) (m : Msg) (st : W16), (s.turned m { op := 0xC030, roles := rLdBmcOwn, sess := false, l0 := false, secure := false, inLen := 32, body := 2 } st))
    ∧ (∃ (s : State) (m : Msg) (st : W16), (s.turned m { op := 0xC031, roles := rLdBmcOwn, sess := false, l0 := false, secure := false, inLen := 8, body := 16 } st))
    ∧ (∃ (s : State) (m : Msg) (st : W16), (s.turned m { op := 0xC032, roles := rLdFm, sess := false, l0 := false, secure := false, inLen := 32, body := 0 } st))
    ∧ (∃ (s : State) (m : Msg) (st : W16), (s.turned m { op := 0xC033, roles := rBmcOwn, sess := false, l0 := false, secure := false, inLen := 8, body := 0 } st))
    ∧ (∃ (s : State) (m : Msg) (st : W16), (s.turned m { op := 0xC034, roles := rBmcOwn, sess := false, l0 := false, secure := false, inLen := 0, body := 1 } st))
    ∧ (∃ (s : State) (m : Msg) (st : W16), (s.turned m { op := 0xC0C0, roles := rBmcOwn, sess := false, l0 := true, secure := false, inLen := 2, body := 0 } st))
    ∧ (∃ (s : State) (m : Msg) (st : W16), (s.turned m { op := 0xC0C1, roles := rBmcOwn, sess := false, l0 := true, secure := false, inLen := 1, body := 0 } st))
    ∧ (∃ (s : State) (m : Msg) (st : W16), (s.turned m { op := 0xC020, roles := rBmcOwn, sess := false, l0 := false, secure := false, inLen := 8, body := 0 } st))
    ∧ (∃ (s : State) (m : Msg) (st : W16), (s.turned m { op := 0xC021, roles := rFmOwn, sess := false, l0 := false, secure := false, inLen := 2, body := 0 } st))
    ∧ (∃ (s : State) (m : Msg) (st : W16), (s.turned m { op := 0xC080, roles := rBmcOwn, sess := false, l0 := true, secure := false, inLen := 8, body := 0 } st))
    ∧ (∃ (s : State) (m : Msg) (st : W16), (s.turned m { op := 0xC085, roles := rFmBmcOwn, sess := false, l0 := false, secure := false, inLen := 12, body := 8 } st))
    ∧ (∃ (s : State) (m : Msg) (st : W16), (s.turned m { op := 0xC0B0, roles := rBmcOwn, sess := false, l0 := false, secure := false, inLen := 8, body := 1 } st))
    ∧ (∃ (s : State) (m : Msg) (st : W16), (s.turned m { op := 0xC0B1, roles := rBmcOwn, sess := false, l0 := false, secure := false, inLen := 1, body := 0 } st))
    ∧ (∃ (s : State) (m : Msg) (st : W16), (s.turned m { op := 0xC0B2, roles := rFmBmcOwn, sess := false, l0 := false, secure := false, inLen := 0, body := 128 } st))
    ∧ (∃ (m : Msg), ((∀ ld ch tag, m.path ≠ .eyelet ld ch tag)))
    ∧ (∃ (m : Msg), ((∀ ld ch tag, m.path ≠ .eyelet ld ch tag))) :=
  ⟨⟨(live), (fmm 999), _, ⟨by decide +kernel, (Option.some_get (by decide +kernel)).symm⟩⟩,
   ⟨(live), (fmm 999), _, ⟨by decide +kernel, (Option.some_get (by decide +kernel)).symm⟩⟩,
   ⟨(live), (fmm 999), _, ⟨by decide +kernel, (Option.some_get (by decide +kernel)).symm⟩⟩,
   ⟨(live), (fmm 999), _, (0), ⟨by decide +kernel, (Option.some_get (by decide +kernel)).symm⟩⟩,
   ⟨(live), (fmm 999), _, ⟨by decide +kernel, (Option.some_get (by decide +kernel)).symm⟩⟩,
   ⟨(live), (fmm 999), _, ⟨by decide +kernel, (Option.some_get (by decide +kernel)).symm⟩⟩,
   ⟨(live), (fmm 999), _, ⟨by decide +kernel, (Option.some_get (by decide +kernel)).symm⟩⟩,
   ⟨(live), (fmm 999), _, ⟨by decide +kernel, (Option.some_get (by decide +kernel)).symm⟩⟩,
   ⟨(live), (fmm 999), _, ⟨by decide +kernel, (Option.some_get (by decide +kernel)).symm⟩⟩,
   ⟨(live), (fmm 999), _, ⟨by decide +kernel, (Option.some_get (by decide +kernel)).symm⟩⟩,
   ⟨(live), (fmm 999), _, ⟨by decide +kernel, (Option.some_get (by decide +kernel)).symm⟩⟩,
   ⟨(live), (fmm 999), _, ⟨by decide +kernel, (Option.some_get (by decide +kernel)).symm⟩⟩,
   ⟨(live), (fmm 999), _, ⟨by decide +kernel, (Option.some_get (by decide +kernel)).symm⟩⟩,
   ⟨(live), (fmm 999), _, ⟨by decide +kernel, (Option.some_get (by decide +kernel)).symm⟩⟩,
   ⟨(live), (fmm 999), _, ⟨by decide +kernel, (Option.some_get (by decide +kernel)).symm⟩⟩,
   ⟨(live), (fmm 999), _, ⟨by decide +kernel, (Option.some_get (by decide +kernel)).symm⟩⟩,
   ⟨(live), (fmm 999), _, ⟨by decide +kernel, (Option.some_get (by decide +kernel)).symm⟩⟩,
   ⟨(live), (fmm 999), _, ⟨by decide +kernel, (Option.some_get (by decide +kernel)).symm⟩⟩,
   ⟨(live), (fmm 999), _, ⟨by decide +kernel, (Option.some_get (by decide +kernel)).symm⟩⟩,
   ⟨(live), (fmm 999), _, ⟨by decide +kernel, (Option.some_get (by decide +kernel)).symm⟩⟩,
   ⟨(live), (fmm 999), _, ⟨by decide +kernel, (Option.some_get (by decide +kernel)).symm⟩⟩,
   ⟨(live), (fmm 999), _, ⟨by decide +kernel, (Option.some_get (by decide +kernel)).symm⟩⟩,
   ⟨(live), (fmm 999), _, ⟨by decide +kernel, (Option.some_get (by decide +kernel)).symm⟩⟩,
   ⟨(live), (fmm 999), _, ⟨by decide +kernel, (Option.some_get (by decide +kernel)).symm⟩⟩,
   ⟨(live), (fmm 999), _, ⟨by decide +kernel, (Option.some_get (by decide +kernel)).symm⟩⟩,
   ⟨(live), (fmm 999), _, ⟨by decide +kernel, (Option.some_get (by decide +kernel)).symm⟩⟩,
   ⟨(live), (fmm 999), _, ⟨by decide +kernel, (Option.some_get (by decide +kernel)).symm⟩⟩,
   ⟨(live), (fmm 999), _, ⟨by decide +kernel, (Option.some_get (by decide +kernel)).symm⟩⟩,
   ⟨(live), (fmm 999), _, ⟨by decide +kernel, (Option.some_get (by decide +kernel)).symm⟩⟩,
   ⟨(live), (fmm 999), _, ⟨by decide +kernel, (Option.some_get (by decide +kernel)).symm⟩⟩,
   ⟨(live), (fmm 999), _, ⟨by decide +kernel, (Option.some_get (by decide +kernel)).symm⟩⟩,
   ⟨(live), (fmm 999), _, ⟨by decide +kernel, (Option.some_get (by decide +kernel)).symm⟩⟩,
   ⟨(live), (fmm 999), _, (0), ⟨by decide +kernel, (Option.some_get (by decide +kernel)).symm⟩⟩,
   ⟨(live), (fmm 999), _, ([]), ⟨by decide +kernel, (Option.some_get (by decide +kernel)).symm⟩⟩,
   ⟨(live), (fmm 999), _, ⟨by decide +kernel, (Option.some_get (by decide +kernel)).symm⟩⟩,
   ⟨(live), (fmm 999), _, ⟨by decide +kernel, (Option.some_get (by decide +kernel)).symm⟩⟩,
   ⟨(live), (fmm 999), _, ⟨by decide +kernel, (Option.some_get (by decide +kernel)).symm⟩⟩,
   ⟨(live), (fmm 999), _, ⟨by decide +kernel, (Option.some_get (by decide +kernel)).symm⟩⟩,
   ⟨(live), (fmm 999), _, ⟨by decide +kernel, (Option.some_get (by decide +kernel)).symm⟩⟩,
   ⟨(live), (fmm 999), _, ⟨by decide +kernel, (Option.some_get (by decide +kernel)).symm⟩⟩,
   ⟨(live), (fmm 999), _, ⟨by decide +kernel, (Option.some_get (by decide +kernel)).symm⟩⟩,
   ⟨(live), (fmm 999), _, ⟨by decide +kernel, (Option.some_get (by decide +kernel)).symm⟩⟩,
   ⟨(live), (fmm 999), _, ⟨by decide +kernel, (Option.some_get (by decide +kernel)).symm⟩⟩,
   ⟨(live), (fmm 999), _, ⟨by decide +kernel, (Option.some_get (by decide +kernel)).symm⟩⟩,
   ⟨(live), (fmm 999), _, ⟨by decide +kernel, (Option.some_get (by decide +kernel)).symm⟩⟩,
   ⟨(live), (fmm 999), _, ⟨by decide +kernel, (Option.some_get (by decide +kernel)).symm⟩⟩,
   ⟨(live), (fmm 999), _, ⟨by decide +kernel, (Option.some_get (by decide +kernel)).symm⟩⟩,
   ⟨(live), (fmm 999), _, ⟨by decide +kernel, (Option.some_get (by decide +kernel)).symm⟩⟩,
   ⟨(live), (fmm 999), _, ⟨by decide +kernel, (Option.some_get (by decide +kernel)).symm⟩⟩,
   ⟨(mb), fun _ _ _ h => nomatch h⟩,
   ⟨(mb), fun _ _ _ h => nomatch h⟩⟩

theorem witness_SettingsStayInTheirLimits :
    (∃ (s : State) (t : State), (s.settings.ok) ∧ (step s = .next t)) :=
  ⟨(State.reset), _, by unfold Settings.ok; decide, rfl⟩

theorem witness_StoredChunksDecode :
    (∃ (bs : List Byte), (bs.length = 1024)) :=
  ⟨(zeros 1024), List.length_replicate⟩

theorem witness_FramesDecode :
    (∃ (bs : List Byte), (bs.length = 1024)) :=
  ⟨(zeros 1024), List.length_replicate⟩

theorem witness_LinesReadAsStored :
    (∃ (f : Nat) (line : Fin 64) (g : Nat) (k : Fin 64), (¬(g = f ∧ k = line)))
    ∧ (∃ (s : State), (s.memOk = true)) :=
  ⟨⟨(0), (63), (0), (62), by decide +kernel⟩,
   ⟨(State.reset), by decide +kernel⟩⟩

theorem witness_OneWrongBitFails :
    (∃ (m : W16), ([0, 2, 3, 4].contains (metaKind m) = true))
    ∧ (∃ (m : W16), ([0, 2, 3, 4].contains (metaKind m) = true))
    ∧ (∃ (m : W16), ([0, 2, 3, 4].contains (metaKind m) = true)) :=
  ⟨⟨(0), by decide +kernel⟩,
   ⟨(0), by decide +kernel⟩,
   ⟨(0), by decide +kernel⟩⟩

theorem witness_ParityTakesTheDelta :
    (∃ (s : State) (g : Nat) (line : Fin 64) (p : Raw), (g < 2 ^ 28) ∧ (s.parityLine g line.val = some p)) :=
  ⟨(live), (0), (63), _, by decide +kernel, (Option.some_get (by decide +kernel)).symm⟩

theorem witness_EventsAreCounted :
    (∃ (x : Source) (tick : Nat) (n : Nat), (n = (if x.winCount = 0 ∨ tick - x.winStart ≥ x.escW then 1 else x.winCount + 1)))
    ∧ (∃ (x : Source) (tick : Nat) (n : Nat), (n = (if x.winCount = 0 ∨ tick - x.winStart ≥ x.escW then 1 else x.winCount + 1)))
    ∧ (∃ (x : Source) (tick : Nat) (n : Nat), (n = (if x.winCount = 0 ∨ tick - x.winStart ≥ x.escW then 1 else x.winCount + 1)) ∧ (x.escN = 0))
    ∧ (∃ (x : Source) (tick : Nat) (n : Nat), (n = (if x.winCount = 0 ∨ tick - x.winStart ≥ x.escW then 1 else x.winCount + 1)) ∧ (x.escN ≠ 0))
    ∧ (∃ (x : Source) (tick : Nat) (n : Nat), (n = (if x.winCount = 0 ∨ tick - x.winStart ≥ x.escW then 1 else x.winCount + 1)) ∧ (x.escN ≠ 0))
    ∧ (∃ (x : Source) (tick : Nat) (n : Nat), (n = (if x.winCount = 0 ∨ tick - x.winStart ≥ x.escW then 1 else x.winCount + 1)) ∧ (x.escN ≠ 0))
    ∧ (∃ (x : Source) (tick : Nat) (n : Nat), (n = (if x.winCount = 0 ∨ tick - x.winStart ≥ x.escW then 1 else x.winCount + 1)) ∧ (x.escN ≠ 0))
    ∧ (∃ (x : Source) (tick : Nat) (n : Nat), (n = (if x.winCount = 0 ∨ tick - x.winStart ≥ x.escW then 1 else x.winCount + 1)))
    ∧ (∃ (x : Source) (tick : Nat) (n : Nat), (n = (if x.winCount = 0 ∨ tick - x.winStart ≥ x.escW then 1 else x.winCount + 1)))
    ∧ (∃ (x : Source) (tick : Nat) (n : Nat), (n = (if x.winCount = 0 ∨ tick - x.winStart ≥ x.escW then 1 else x.winCount + 1)))
    ∧ (∃ (x : Source) (tick : Nat) (n : Nat), (n = (if x.winCount = 0 ∨ tick - x.winStart ≥ x.escW then 1 else x.winCount + 1)))
    ∧ (∃ (x : Source) (tick : Nat) (n : Nat), (n = (if x.winCount = 0 ∨ tick - x.winStart ≥ x.escW then 1 else x.winCount + 1))) :=
  ⟨⟨(counting), (5), _, rfl⟩,
   ⟨(counting), (5), _, rfl⟩,
   ⟨({ counting with escN := 0 }), (5), _, rfl, by decide +kernel⟩,
   ⟨(counting), (5), _, rfl, by decide +kernel⟩,
   ⟨(counting), (5), _, rfl, by decide +kernel⟩,
   ⟨(counting), (5), _, rfl, by decide +kernel⟩,
   ⟨(counting), (5), _, rfl, by decide +kernel⟩,
   ⟨(counting), (5), _, rfl⟩,
   ⟨(counting), (5), _, rfl⟩,
   ⟨(counting), (5), _, rfl⟩,
   ⟨(counting), (5), _, rfl⟩,
   ⟨(counting), (5), _, rfl⟩⟩

theorem witness_UnassignedSourcesAreSilent :
    (∃ (e : Ev), (baseClass e.source = none))
    ∧ (∃ (n : Nat), (baseClass n = none))
    ∧ (∃ (s : State) (m : Msg) (n : W16), (baseClass n.toNat = none) ∧ (n.toNat < 2048) ∧ (s.runs m { op := 0xC060, roles := rBmcOwn, sess := false, l0 := false, secure := false, inLen := 16, body := 0 }))
    ∧ (∃ (e : Ev), (baseClass e.source ≠ none)) :=
  ⟨⟨(Ev.of 2000), by decide +kernel⟩,
   ⟨(2000), by decide +kernel⟩,
   ⟨(live), (bmc 16), (2000), by decide +kernel, by decide +kernel, ⟨by decide +kernel, by decide +kernel⟩⟩,
   ⟨(Ev.of 64), by decide +kernel⟩⟩

/-- A front command and an empty queue. -/
theorem witness_StepRunsTheFront : (∃ (c : Instr) (rest : List Instr) (s : State), s.pending = c :: rest) ∧ ∃ s : State, s.pending = [] :=
  ⟨⟨.xtalLoss, [], { live with pending := [.xtalLoss] }, rfl⟩, State.reset, rfl⟩

theorem witness_FrameOrders : (∃ w c k : Nat, 2 ≤ w ∧ c < w ∧ isParity w (dataFrame w c k) = false) ∧ ∃ w f : Nat, 2 ≤ w ∧ isParity w f = false :=
  ⟨⟨12, 11, 3, by decide, by decide, by decide⟩, 2, 1, by decide, by decide⟩

/-- A command that changes a setting, and one that changes none. -/
theorem witness_SettingsOnlyByTheirCommands : (∃ t, exec (.setTierPolicy (bmc 32) 1 0x0000010000010000 0 0) live = .next t ∧ t.settings ≠ live.settings)
    ∧ ∃ t, exec .pllUnlock live = .next t :=
  ⟨⟨_, rfl, by decide +kernel⟩, _, rfl⟩

/-- An ill-formed command stops, and a well-formed one runs. -/
theorem witness_OnlyIllFormedStops : exec (.bypass 0x01) live = .fault .illFormed ∧ ∃ t, exec (.bypass 0x03) live = .next t :=
  ⟨rfl, _, rfl⟩

end Sys2Proof.Tests
end

section
/-! The path of a line: the host's accesses enter the request path. -/

namespace Sys2Proof.Machine

/-- A read takes no data and names every byte (R12, R18). -/
@[simp] theorem exec_cxlMemRead (a : Access) (s : State) :
    exec (.cxlMemRead a) s = .next (s.accept a none (BitVec.allOnes 64) false).windowNotice := rfl

/-- A full-line write names every byte and carries the poison of its request (R12, R18). -/
@[simp] theorem exec_cxlMemWrite (a : Access) (d : Line) (poison : Bool) (s : State) :
    exec (.cxlMemWrite a d poison) s = .next (s.accept a (some d) (BitVec.allOnes 64) poison).windowNotice := rfl

/-- A partial write names the bytes of its mask and carries no poison (R138). -/
@[simp] theorem exec_partialLineWrite (a : Access) (d : Line) (be : W64) (s : State) :
    exec (.partialLineWrite a d be) s = .next (s.accept a (some d) be false).windowNotice := rfl

/-- A partial write whose mask names every byte is the unpoisoned full-line write. -/
theorem exec_partialLineWrite_allOnes (a : Access) (d : Line) (s : State) :
    exec (.partialLineWrite a d (BitVec.allOnes 64)) s = exec (.cxlMemWrite a d false) s := by
  rw [exec_partialLineWrite, exec_cxlMemWrite]

/-- Settles O1: each of the three commands is one entry into the request path, by its arm of `exec`; the last clause compares two of these entries. -/
theorem hostRequestsEnter : Obligations.HostRequestsEnter := fun a d be poison s =>
  ⟨exec_cxlMemRead a s, exec_cxlMemWrite a d poison s, exec_partialLineWrite a d be s, exec_partialLineWrite_allOnes a d s⟩

end Sys2Proof.Machine
end

section
/-! The two orders of the data frames (02 R28, R40). Each counts the slots of a row of `w` with one slot left out: channel order runs over the groups of
a channel and leaves out the group whose parity frame lies there, data-frame order runs over the channels of a group and leaves out its parity channel. -/

namespace Sys2Proof.Machine

/-- The k-th slot of a row that leaves slot `p` out. -/
def slotSkipping (p k : Nat) : Nat := if k < p then k else k + 1

/-- The place of slot `r` in a row that leaves slot `p` out. -/
def placeSkipping (p r : Nat) : Nat := if r < p then r else r - 1

theorem slotSkipping_ne (p k : Nat) : slotSkipping p k ≠ p := by
  unfold slotSkipping; split <;> omega

theorem slotSkipping_lt {w k : Nat} (p : Nat) (hk : k < w - 1) : slotSkipping p k < w := by
  unfold slotSkipping; split <;> omega

theorem placeSkipping_lt {w p r : Nat} (hp : p < w) (hr : r < w) (h : r ≠ p) : placeSkipping p r < w - 1 := by
  unfold placeSkipping; split <;> omega

@[simp] theorem placeSkipping_slotSkipping (p k : Nat) : placeSkipping p (slotSkipping p k) = k := by
  unfold placeSkipping slotSkipping; grind

theorem slotSkipping_placeSkipping {p r : Nat} (h : r ≠ p) : slotSkipping p (placeSkipping p r) = r := by
  unfold slotSkipping placeSkipping; grind

theorem mul_add_div_of_lt {w r : Nat} (q : Nat) (h : r < w) : (q * w + r) / w = q := by
  rw [Nat.add_comm, Nat.add_mul_div_right _ _ (by omega), Nat.div_eq_of_lt h, Nat.zero_add]

/-! The four functions and the parity frames, said with these slots. -/

theorem isParity_eq_false_iff (w f : Nat) : isParity w f = false ↔ f % w ≠ f / w % w := by
  simp [isParity, channelOf, groupOf]

theorem dataFrame_eq (w c k : Nat) : dataFrame w c k = (k / (w - 1) * w + slotSkipping c (k % (w - 1))) * w + c := by
  unfold dataFrame slotSkipping; grind

theorem channelIndex_eq {w f : Nat} (h : f % w ≠ f / w % w) :
    channelIndex w f = f / w / w * (w - 1) + placeSkipping (f % w) (f / w % w) := by
  unfold channelIndex placeSkipping; grind

theorem dataAt_eq (w n : Nat) : dataAt w n = n / (w - 1) * w + slotSkipping (n / (w - 1) % w) (n % (w - 1)) := rfl

theorem dataIndex_eq (w f : Nat) : dataIndex w f = f / w * (w - 1) + placeSkipping (f / w % w) (f % w) := rfl

/-! The place and the neighbours of the frame that an order names, and back. -/

section
variable {w : Nat}

theorem dataFrame_mod {c : Nat} (hc : c < w) (k : Nat) : dataFrame w c k % w = c := by
  rw [dataFrame_eq, Nat.mul_add_mod_of_lt hc]

theorem dataFrame_div {c : Nat} (hc : c < w) (k : Nat) :
    dataFrame w c k / w = k / (w - 1) * w + slotSkipping c (k % (w - 1)) := by
  rw [dataFrame_eq, mul_add_div_of_lt _ hc]

theorem dataFrame_not_parity {c : Nat} (hw : 2 ≤ w) (hc : c < w) (k : Nat) : dataFrame w c k % w ≠ dataFrame w c k / w % w := by
  have slot : slotSkipping c (k % (w - 1)) < w := slotSkipping_lt c (Nat.mod_lt _ (by omega))
  rw [dataFrame_mod hc, dataFrame_div hc, Nat.mul_add_mod_of_lt slot]
  exact (slotSkipping_ne _ _).symm

theorem channelIndex_dataFrame {c : Nat} (hw : 2 ≤ w) (hc : c < w) (k : Nat) : channelIndex w (dataFrame w c k) = k := by
  have slot : slotSkipping c (k % (w - 1)) < w := slotSkipping_lt c (Nat.mod_lt _ (by omega))
  rw [channelIndex_eq (dataFrame_not_parity hw hc k), dataFrame_mod hc, dataFrame_div hc, mul_add_div_of_lt _ slot, Nat.mul_add_mod_of_lt slot,
    placeSkipping_slotSkipping, Nat.div_add_mod']

theorem dataFrame_channelIndex {f : Nat} (hw : 2 ≤ w) (h : f % w ≠ f / w % w) : dataFrame w (f % w) (channelIndex w f) = f := by
  have place : placeSkipping (f % w) (f / w % w) < w - 1 :=
    placeSkipping_lt (Nat.mod_lt _ (by omega)) (Nat.mod_lt _ (by omega)) h.symm
  rw [dataFrame_eq, channelIndex_eq h, mul_add_div_of_lt _ place, Nat.mul_add_mod_of_lt place, slotSkipping_placeSkipping h.symm, Nat.div_add_mod',
    Nat.div_add_mod']

theorem dataAt_div (hw : 2 ≤ w) (n : Nat) : dataAt w n / w = n / (w - 1) := by
  rw [dataAt_eq, mul_add_div_of_lt _ (slotSkipping_lt _ (Nat.mod_lt _ (by omega)))]

theorem dataAt_mod (hw : 2 ≤ w) (n : Nat) : dataAt w n % w = slotSkipping (n / (w - 1) % w) (n % (w - 1)) := by
  rw [dataAt_eq, Nat.mul_add_mod_of_lt (slotSkipping_lt _ (Nat.mod_lt _ (by omega)))]

theorem dataAt_not_parity (hw : 2 ≤ w) (n : Nat) : dataAt w n % w ≠ dataAt w n / w % w := by
  rw [dataAt_mod hw, dataAt_div hw]
  exact slotSkipping_ne _ _

theorem dataIndex_dataAt (hw : 2 ≤ w) (n : Nat) : dataIndex w (dataAt w n) = n := by
  rw [dataIndex_eq, dataAt_mod hw, dataAt_div hw, placeSkipping_slotSkipping, Nat.div_add_mod']

theorem dataAt_dataIndex {f : Nat} (hw : 2 ≤ w) (h : f % w ≠ f / w % w) : dataAt w (dataIndex w f) = f := by
  have place : placeSkipping (f / w % w) (f % w) < w - 1 :=
    placeSkipping_lt (Nat.mod_lt _ (by omega)) (Nat.mod_lt _ (by omega)) h
  rw [dataAt_eq, dataIndex_eq, mul_add_div_of_lt _ place, Nat.mul_add_mod_of_lt place, slotSkipping_placeSkipping h, Nat.div_add_mod']

end

/-- Settles O52: each order and its index undo each other, slot by slot, and neither names a parity frame. -/
theorem frameOrders : Obligations.FrameOrders := fun w hw =>
  ⟨fun _ k hc => ⟨dataFrame_mod hc k, (isParity_eq_false_iff ..).mpr (dataFrame_not_parity hw hc k), channelIndex_dataFrame hw hc k⟩,
    fun n => ⟨(isParity_eq_false_iff ..).mpr (dataAt_not_parity hw n), dataIndex_dataAt hw n⟩,
    fun f hf => have h := (isParity_eq_false_iff w f).mp hf; ⟨dataFrame_channelIndex hw h, dataAt_dataIndex hw h⟩⟩

end Sys2Proof.Machine
end

section
/-! The Last cache and the write path on their own time: what each of their commands answers on the hypotheses of O2. -/

namespace Sys2Proof.Machine

/-! The queues of the Last cache and of Welt place no page and no line. -/

section
variable (s : State)

theorem State.pageWay_missq (f : Last → List Dpn) (dpn : Dpn) :
    (s.mapLast fun l => { l with missq := f l }).pageWay dpn = s.pageWay dpn := rfl

theorem State.place_rebuilds (f : Welt → List Rebuild) (fn : Nat) :
    (s.mapWelt fun w => { w with rebuilds := f w }).place fn = s.place fn := rfl

theorem State.w_mapWelt (f : Welt → Welt) : (s.mapWelt f).w = s.w := rfl

section
variable (f : Welt → List (Frame × Fin 64 × Raw))

theorem State.place_verifies (fn : Nat) : (s.mapWelt fun w => { w with verifies := f w }).place fn = s.place fn := rfl

theorem State.lineAt_verifies (fn p line : Nat) :
    (s.mapWelt fun w => { w with verifies := f w }).lineAt fn p line = s.lineAt fn p line := rfl

theorem State.parityAx_verifies (g line : Nat) :
    (s.mapWelt fun w => { w with verifies := f w }).parityAx g line = s.parityAx g line := rfl

end
end

variable {s : State}

/-- The entry is cached already: only the requests that wait for it go on (R46). -/
theorem exec_lastEntryReturned_cached {dpn : Dpn} (waits : s.last.missq.contains dpn = true) (cached : (s.pageWay dpn).isSome = true) :
    exec (.lastEntryReturned dpn) s =
      .next ((((s.path.reqs.filter fun r => decide (r.dpn = dpn) && decide (r.phase = .miss)).map (·.tag)).foldl (fun s t => s.dispatch true t)
        (s.mapLast fun l => { l with missq := l.missq.erase dpn })).fillMissQueue.wake) := by
  have present : (s.pageWay dpn).isNone = false := Option.isNone_eq_false_iff.mpr cached
  show execLastEntryReturned dpn s = _
  simp only [execLastEntryReturned, waits, if_true, State.pageWay_missq, present, Bool.false_eq_true, if_false, State.mapLast_path]

theorem exec_lastCacheClean (s : State) : exec .lastCacheClean s =
    .next ((s.modifiedWays.take (s.last.modified - Config.lastSets * Config.lastWays / 8)).foldl State.cleanWay s) := rfl

/-- The delta write waits for an older read of the line alone; its page is hot (R133). -/
theorem exec_weltDeltaWrite_drains {dpn : Dpn} {line : Fin 64} {w : WbEntry} (old : Upset) (reads : List MemberRead)
    (buffered : s.buffered dpn line.val = some w) (noRead : s.olderRead dpn line.val = false) (hot : (s.entry dpn).hotForm = true) :
    exec (.weltDeltaWrite dpn line old reads) s = .next (s.drainLine w old reads).wake := by
  show execWeltDeltaWrite dpn line old reads s = _
  simp [execWeltDeltaWrite, buffered, noRead, hot]

/-- A line whose member is missing was not read, so the rebuild has no injection to look for and no row to advance (R142). -/
theorem exec_rebuildComplete_missing {frame : Frame} {line : Fin 64} {j : Rebuild} {tag : BitVec 13} (reads : List MemberRead)
    (find : (s.welt.rebuilds.find? fun j => decide (j.frame = frame) && decide (j.line = line)) = some j) (whom : j.forWhom = .request tag)
    (missing : s.place frame.toNat = .missing) :
    exec (.rebuildComplete frame line reads) s =
      .next ((((s.mapWelt fun w => { w with rebuilds := w.rebuilds.erase j }).finishRebuild frame.toNat line.val none reads none (some tag)).2.deliver
        tag frame.toNat line.val
        ((s.mapWelt fun w => { w with rebuilds := w.rebuilds.erase j }).finishRebuild frame.toNat line.val none reads none (some tag)).1).flushBacks).wake := by
  show execRebuildComplete frame line reads s = _
  simp only [execRebuildComplete, find, State.place_rebuilds, missing, whom]

/-- A verify read that meets no error and finds the line good ends its verification and nothing else (R141). -/
theorem exec_verifyReadResult_good {frame : Frame} {line : Fin 64} {u : Upset} {v : Frame × Fin 64 × Raw} {p : Nat}
    (find : (s.welt.verifies.find? fun v => decide (v.1 = frame) && decide (v.2.1 = line)) = some v) (place : s.place frame.toNat = .at p)
    (noErr : u.err = false)
    (good : (if isParity s.w frame.toNat
      then checkParity ((s.lineAt frame.toNat p line.val).flip u) (s.parityAx (groupOf s.w frame.toNat) line.val)
      else checkData ((s.lineAt frame.toNat p line.val).flip u) (pla p line.val)) = true) :
    exec (.verifyReadResult frame line u) s = .next (s.mapWelt fun w => { w with verifies := w.verifies.erase v }) := by
  show execVerifyReadResult frame line u s = _
  simp only [execVerifyReadResult, find, State.place_verifies, place, State.lineAt_verifies, State.parityAx_verifies, State.w_mapWelt]
  exact if_pos ⟨by rw [noErr, Bool.not_false], good⟩

/-- A merge entry that has the old line's bytes: the merged line enters the write buffer and the writes that wait for it complete (R138). -/
def State.mergeOver (s : State) (dpn : Dpn) (line : Fin 64) (m : MergeEntry) (x : Line) (poison : Bool) : State :=
  (((s.bufferLine dpn line (mergeBytes x m.data m.be) poison (some m.ld)).completeMerge m).mapPath fun p =>
    { p with
      merge := replaceFirst (fun q => decide (q.dpn = dpn) && decide (q.line = line)) (fun q => { q with
          data := mergeBytes x m.data m.be, filled := true, entered := true, tags := [] }) p.merge }).wake

section
variable {dpn : Dpn} {line : Fin 64} {m : MergeEntry} (u : Upset)
  (merge : s.mergeOf dpn line.val = some m) (unfilled : m.filled = false) (hot : (s.entry dpn).hotForm = true)
include merge unfilled hot

theorem exec_mergeOldLineArrived_buffered {w : WbEntry} (buffered : s.buffered dpn line.val = some w) :
    exec (.mergeOldLineArrived dpn line u) s = .next (s.mergeOver dpn line m w.data w.poison) := by
  show execMergeOldLineArrived dpn line u s = _
  simp [execMergeOldLineArrived, merge, unfilled, hot, buffered, State.mergeOver]

theorem exec_mergeOldLineArrived_read {r : Raw} {t : State} (notBuffered : s.buffered dpn line.val = none)
    (old : (s.chargeRebuild m.ld.val (s.entry dpn).frame.toNat line.val u).oldLine (s.entry dpn).frame.toNat line.val u = (some r, t)) :
    exec (.mergeOldLineArrived dpn line u) s =
      .next (t.mergeOver dpn line m (t.decHot (s.entry dpn).key.toNat dpn.toNat line.val r) (metaPoison (sideMeta r.side))) := by
  show execMergeOldLineArrived dpn line u s = _
  simp [execMergeOldLineArrived, merge, unfilled, hot, notBuffered, old, State.mergeOver]

end

/-- Settles O2: one lemma for each of the six commands; the old line of a merge stands in the write buffer or is read. -/
theorem pathEvents : Obligations.PathEvents := by
  refine ⟨fun s => ⟨fun _ => exec_lastEntryReturned_cached, exec_lastCacheClean s, fun _ _ old reads _ => exec_weltDeltaWrite_drains old reads,
    fun _ _ reads _ _ => exec_rebuildComplete_missing reads, fun _ _ _ _ _ => exec_verifyReadResult_good⟩, ?_⟩
  rintro dpn line u s t m x poison merge unfilled hot (⟨w, buffered, rfl, rfl, rfl⟩ | ⟨r, notBuffered, old, rfl, rfl⟩)
  · exact exec_mergeOldLineArrived_buffered u merge unfilled hot buffered
  · exact exec_mergeOldLineArrived_read u merge unfilled hot notBuffered old

end Sys2Proof.Machine
end

section
/-! The tier manager on its own time: what each of its commands answers on the hypotheses of O4. -/

namespace Sys2Proof.Machine

section
variable {s : State}

/-- A migration that is due and can start takes its tracker at once (R50). -/
theorem exec_migrationStart_taken {dpn : Dpn} {kind : MigKind} {hint : Frame} {t : State} (due : s.migrationDue kind dpn = true)
    (starts : s.startMigration kind dpn hint = some t) :
    exec (.migrationStart dpn kind hint) s = .next (t.migrationTaken kind dpn).wake := by
  show execMigrationStart dpn kind hint s = _
  simp [execMigrationStart, due, starts]

/-- Only a demotion waits for its chunks to be coded: a promotion closes its round when its decodes have ended (R54). -/
theorem exec_migrationCopyRoundDone_promotion {n : Fin 256} {t : Tracker} (tracker : s.tracker n.val = some t) (unflipped : t.flipped = false)
    (noWrite : s.writesOpen t.dpn = false) (kind : t.kind = .readPromotion) (decoded : (s.endDecodes t.dpn).decodesWait t.dpn = false) :
    exec (.migrationCopyRoundDone n) s = .next ((s.endDecodes t.dpn).closeCopyRound n.val t).wake := by
  show execMigrationCopyRoundDone n s = _
  simp [execMigrationCopyRoundDone, tracker, unflipped, noWrite, kind, decoded]

theorem exec_migrationSourceRelease (s : State) (n : Fin 256) : exec (.migrationSourceRelease n) s = .next (s.tryRelease n.val).wake := rfl

/-- The head of the queue leaves it when its promotion starts (R59). -/
theorem exec_queuedPromotionStart_starts {hint : Frame} {d : Dpn} {r : List Dpn} {t : State} (queue : s.tier.promoQueue = d :: r)
    (free : s.tier.freeFrames > s.lowFrames) (warm : (s.entry d).state = .warm) (starts : s.startMigration .readPromotion d hint = some t) :
    exec (.queuedPromotionStart hint) s = .next (t.mapTier fun x => { x with promoQueue := r }).wake := by
  show execQueuedPromotionStart hint s = _
  simp [execQueuedPromotionStart, queue, Nat.not_le.mpr free, warm, starts]

theorem exec_backgroundDemotionStart_starts {hint : Frame} {d : Dpn} {u t : State} (demoting : s.tier.demoting = true)
    (unfenced : s.path.fenced = false) (engine : s.allFenced 0 = false) (tracker : (s.freeTracker .demotion).isSome = true)
    (candidate : s.takeCandidate (8 * Config.bucketMax) = (some d, u)) (starts : u.startMigration .demotion d hint = some t) :
    exec (.backgroundDemotionStart hint) s = .next t := by
  have free : (s.freeTracker .demotion).isNone = false := Option.isNone_eq_false_iff.mpr tracker
  show execBackgroundDemotionStart hint s = _
  simp only [execBackgroundDemotionStart, demoting, unfenced, engine, free, candidate, starts, Bool.not_true, Bool.false_eq_true, or_self, if_false]

theorem exec_binCompaction_sparse {bin : Frame} (hint : Frame) (isBin : (s.frameRec bin.toNat).kind = .bin)
    (sparse : granulesUsed (s.frameRec bin.toNat).map < 32) (low : s.tier.freeFrames ≤ s.lowFrames) :
    exec (.binCompaction bin hint) s = .next ((s.frameRec bin.toNat).dpns.foldl (fun s d => s.startOrWait .compaction d hint) s) := by
  have compacts : s.compacts bin.toNat = true := by simp [State.compacts, isBin, sparse, low]
  show execBinCompaction bin hint s = _
  rw [execBinCompaction, if_pos compacts]

/-- With no extent of the last request held, none has declined it: the new request is all that happens (R69). -/
theorem exec_releaseReevaluation_pressure {t : State} {req : List (Fin 32 × BitVec 128 × BitVec 32)} (answered : s.tier.release = [])
    (ht : t = s.mapTier (fun t => { t with release := [], releasePending := false })) (pool : s.tier.poolFrames ≠ 0)
    (pressure : s.tier.freeFrames ≤ s.pressureFrames)
    (hreq : req = (t.chooseRelease ((t.highFrames - t.tier.freeFrames) * 64)).flatMap (fun p => p.2.map fun n => (n, p.1.tag, p.1.devBase))) :
    exec .releaseReevaluation s =
      .next (((t.emits (req.map fun r => .releaseRequest r.1 r.2.1)).mapTier fun x => { x with release := req, releasePending := !req.isEmpty }).countTier 7
        (t.chooseRelease ((t.highFrames - t.tier.freeFrames) * 64)).length) := by
  have asks : ¬ (t.tier.poolFrames = 0 ∨ t.tier.freeFrames > t.pressureFrames) := by
    subst ht
    exact not_or.mpr ⟨pool, Nat.not_lt.mpr pressure⟩
  show execReleaseReevaluation s = _
  subst hreq
  simp only [execReleaseReevaluation, answered, List.filter_nil, List.map_nil, List.eraseDups_nil, List.foldl_nil, ← ht, if_neg asks]

end

/-! The sweep. -/

@[simp] theorem State.charge_last (s : State) (n bytes : Nat) : (s.charge n bytes).last = s.last := rfl

@[simp] theorem State.chargeSweep_last (s : State) (pos : Nat) (changed : Bool) : (s.chargeSweep pos changed).last = s.last := by
  simp only [State.chargeSweep, apply_ite State.last, State.mapTier_last, State.charge_last, ite_self]

theorem State.putTable_hostPages (s : State) (d : Dpn) (e : LastEntry) : (s.putTable d e).last.hostPages = s.last.hostPages := rfl

theorem State.putTable_pageWay (s : State) (d d' : Dpn) (e : LastEntry) : (s.putTable d e).pageWay d' = s.pageWay d' := rfl

/-- A page that is not hot and not cached takes its new HEAT in the Last table; the pass goes on behind it (R56). -/
theorem exec_decaySweepVisit_cooler {s : State} {d : Dpn} {h : Byte} (hd : d = BitVec.ofNat 32 s.tier.sweepPos)
    (hh : h = (s.entry d).heat >>> (min 8 s.tier.passShift)) (level : s.resume.level ≠ 0) (unfenced : s.path.fenced = false)
    (inside : s.tier.sweepPos + 1 < s.last.hostPages) (notHot : (s.entry d).state ≠ .hot) (changed : h ≠ (s.entry d).heat)
    (uncached : s.pageWay d = none) :
    exec .decaySweepVisit s =
      .next (((s.putTable d { s.tableEntry s.tier.sweepPos with heat := h }).chargeSweep s.tier.sweepPos true).mapTier fun t => { t with
        heatMapWork := Tab.set (fun _ => 0) (s.tier.sweepPos / 512)
          (if h > Tab.get (fun _ => 0) t.heatMapWork (s.tier.sweepPos / 512) then h else Tab.get (fun _ => 0) t.heatMapWork (s.tier.sweepPos / 512))
          t.heatMapWork
        sweepPos := s.tier.sweepPos + 1 }) := by
  have runs : ¬ (s.resume.level = 0 ∨ s.path.fenced = true ∨ s.last.hostPages = 0) := by simp [level, unfenced]; omega
  have goesOn : ¬ s.tier.sweepPos + 1 ≥ s.last.hostPages := Nat.not_le.mpr inside
  show execDecaySweepVisit s = _
  simp only [execDecaySweepVisit, if_neg runs, ← hd, ← hh, changed, notHot, uncached, State.putTable_pageWay, Option.isSome_none, Option.isNone_none,
    Bool.false_eq_true, ne_eq, not_false_eq_true, decide_true, Bool.and_true, false_and, if_false, State.mapTier_last, State.chargeSweep_last,
    State.putTable_hostPages, if_neg goesOn]

/-- Settles O4: one lemma for each of the eight commands. -/
theorem tierEvents : Obligations.TierEvents :=
  ⟨fun s => ⟨fun _ _ _ _ => exec_migrationStart_taken, fun _ _ => exec_migrationCopyRoundDone_promotion, exec_migrationSourceRelease s,
    fun _ _ _ _ => exec_queuedPromotionStart_starts, fun _ _ _ _ => exec_backgroundDemotionStart_starts, fun _ => exec_binCompaction_sparse,
    fun _ _ => exec_releaseReevaluation_pressure⟩, fun _ _ _ => exec_decaySweepVisit_cooler⟩

end Sys2Proof.Machine
end

section
/-! The settings across a command: most commands keep every setting, the queue and the part. What the frames of the commands give, from the
lemmas of Laws/Outcomes and Laws/Settings. -/

namespace Sys2Proof.Machine

/-- The outcome answers no next state with other settings than the state has. -/
def KeepsSettings (s : State) (o : Out) : Prop := Leaves (fun t => t.settings = s.settings) o

section
variable {s t : State}

theorem keepsSettings_next : KeepsSettings s (.next t) ↔ t.settings = s.settings :=
  ⟨fun h => h t rfl, fun h => leaves_next h⟩

theorem keepsSettings_fault {f : Fault} : KeepsSettings s (.fault f) := leaves_fault

theorem keepsSettings_if {c : Prop} [Decidable c] {a b : Out} (ha : KeepsSettings s a) (hb : KeepsSettings s b) :
    KeepsSettings s (if c then a else b) := leaves_if ha hb

theorem keepsSettings_slafin {g : Gate} {m : Msg} {act : State → Result} (h : (act s).st.settings = s.settings) : KeepsSettings s (s.slafin g m act) :=
  leaves_slafin rfl (fun u _ _ hu => (settings_reply u ..).trans hu) h

theorem keepsSettings_std {op : Nat} {ok : Path → Bool} {m : Msg} {act : State → StdResult} (h : (act s).st.settings = s.settings) :
    KeepsSettings s (s.std op ok m act) :=
  leaves_std rfl (fun u _ _ hu => (settings_respStd u ..).trans hu) h

theorem keepsSettings_dcRun {op : Nat} {m : Msg} {act : Fin 32 → State → StdResult} (h : ∀ ld, (act ld s).st.settings = s.settings) :
    KeepsSettings s (s.dcRun op m act) :=
  leaves_dcRun rfl (fun u _ _ hu => (settings_respStd u ..).trans hu) h

theorem keepsSettings_fwRun {op : Nat} {m : Msg} {act : State → StdResult} (h : (act s).st.settings = s.settings) :
    KeepsSettings s (s.fwRun op m act) :=
  leaves_fwRun rfl (fun u _ _ hu => (settings_respStd u ..).trans hu) h

theorem keepsSettings_tspRun {ld : Fin 32} {x : Fin 8} {act : State → State} (h : (act s).settings = s.settings) :
    KeepsSettings s (s.tspRun ld x act) :=
  leaves_tspRun rfl (settings_emit s) h

theorem keepsSettings_spdmRun {m : Msg} {act : State → State} (h : (act s).settings = s.settings) : KeepsSettings s (s.spdmRun m act) :=
  leaves_spdmRun rfl (settings_emit s) h

theorem keepsSettings_spdmReady {m : Msg} {act : State → State} (h : (act s).settings = s.settings) : KeepsSettings s (s.spdmReady m act) :=
  leaves_spdmReady rfl (settings_emit s) h

theorem keepsSettings_spdmIn {m : Msg} {i : Fin 8} {act : Session → State → State} (h : ∀ x, (act x s).settings = s.settings) :
    KeepsSettings s (s.spdmIn m i act) :=
  leaves_spdmIn rfl (settings_emit s) h
end

end Sys2Proof.Machine
end

section
/-! The commands that keep the settings, in the order of the machine's files: each from what the operations that it calls do to the settings. -/

namespace Sys2Proof.Machine

section
variable {s : State}

/-! ### Requests of the hosts and the path of a line -/

theorem execCxlMemRead_keepsSettings (a : Access) : KeepsSettings s (execCxlMemRead a s) := by
  simp only [execCxlMemRead, keepsSettings_next, settings_accept, settings_windowNotice]

theorem execCxlMemWrite_keepsSettings (a : Access) (data : Line) (poison : Bool) : KeepsSettings s (execCxlMemWrite a data poison s) := by
  simp only [execCxlMemWrite, keepsSettings_next, settings_accept, settings_windowNotice]

theorem execPartialLineWrite_keepsSettings (a : Access) (data : Line) (be : W64) : KeepsSettings s (execPartialLineWrite a data be s) := by
  simp only [execPartialLineWrite, keepsSettings_next, settings_accept, settings_windowNotice]

theorem execMergeOldLineArrived_keepsSettings (dpn : Dpn) (line : Fin 64) (upset : Upset) :
    KeepsSettings s (execMergeOldLineArrived dpn line upset s) := by
  dsimp only [execMergeOldLineArrived]
  (repeat' split) <;> simp only [keepsSettings_next, settings_chargeRebuild, settings_oldLine, settings_bufferLine, settings_completeMerge,
    settings_mapPath, settings_wake]

theorem execLastEntryReturned_keepsSettings (dpn : Dpn) : KeepsSettings s (execLastEntryReturned dpn s) := by
  dsimp only [execLastEntryReturned]
  split
  · simp only [keepsSettings_next, settings_wake, settings_fillMissQueue, settings_foldl', settings_dispatch, settings_ite, settings_cacheInsert,
      settings_mapLast, ite_self, implies_true]
  · exact keepsSettings_next.mpr rfl

theorem execLastCacheClean_keepsSettings : KeepsSettings s (execLastCacheClean s) := by
  simp only [execLastCacheClean, keepsSettings_next, settings_foldl', settings_cleanWay, implies_true]

theorem execWeltDeltaWrite_keepsSettings (dpn : Dpn) (line : Fin 64) (old : Upset) (reads : List MemberRead) :
    KeepsSettings s (execWeltDeltaWrite dpn line old reads s) := by
  unfold execWeltDeltaWrite
  (repeat' split) <;> simp only [keepsSettings_next, settings_drainLine, settings_wake]

/-- For any tag: settings_finishRebuild speaks of a rebuild that no request waits for. -/
theorem settings_finishRebuild_tagged (f l : Nat) (asRead : Option Raw) (reads : List MemberRead) (inj : Option (W32 × Bool))
    (tag : Option (BitVec 13)) : (s.finishRebuild f l asRead reads inj tag).2.settings = s.settings := by
  dsimp only [State.finishRebuild]
  (repeat' split) <;> simp only [settings_lineFailure, settings_writeParity, settings_parityPairLost, settings_mapWelt, settings_writeBack,
    settings_raise, settings_countWelt, settings_rebuildLost, settings_rebuildFails, implies_true]

theorem execRebuildComplete_keepsSettings (frame : Frame) (line : Fin 64) (reads : List MemberRead) :
    KeepsSettings s (execRebuildComplete frame line reads s) := by
  dsimp only [execRebuildComplete]
  split
  next => exact keepsSettings_next.mpr rfl
  next j _ =>
    rw [keepsSettings_next, settings_wake]
    cases j.forWhom <;> simp only [settings_flushBacks, settings_deliver, settings_finishRebuild_tagged, settings_mapWelt, implies_true]

theorem execVerifyReadResult_keepsSettings (frame : Frame) (line : Fin 64) (upset : Upset) :
    KeepsSettings s (execVerifyReadResult frame line upset s) := by
  dsimp only [execVerifyReadResult]
  (repeat' split) <;> simp only [keepsSettings_next, settings_mapWelt, settings_countWelt, settings_lineFailure, implies_true]

theorem execChunkDecodeDone_keepsSettings (tag : BitVec 13) (decomp : Fin 16) (bad retryBad : Bool) (rereads : List Upset) :
    KeepsSettings s (execChunkDecodeDone tag decomp bad retryBad rereads s) := by
  dsimp only [execChunkDecodeDone]
  (repeat' split) <;> simp only [keepsSettings_next, settings_dropLate, settings_endJobs, settings_decodeSpoiled, settings_chunkDecoded,
    settings_finishRead, settings_wake, settings_raise, settings_countCodec, settings_flushBacks, settings_mismatchTail]

/-! ### The tier manager -/

theorem execMigrationStart_keepsSettings (dpn : Dpn) (kind : MigKind) (hint : Frame) : KeepsSettings s (execMigrationStart dpn kind hint s) := by
  unfold execMigrationStart
  split
  · exact keepsSettings_next.mpr rfl
  split
  next started => simp only [keepsSettings_next, settings_wake, settings_migrationTaken, settings_startMigration started]
  next => simp only [keepsSettings_next, settings_startOrWait]

theorem execMigrationCopyRoundDone_keepsSettings (n : Fin 256) : KeepsSettings s (execMigrationCopyRoundDone n s) := by
  dsimp only [execMigrationCopyRoundDone]
  (repeat' split) <;> simp only [keepsSettings_next, settings_placeDemotion, settings_replaceChunks, settings_wake, settings_endDecodes,
    settings_closeCopyRound]

theorem execMigrationSourceRelease_keepsSettings (n : Fin 256) : KeepsSettings s (execMigrationSourceRelease n s) := by
  simp only [execMigrationSourceRelease, keepsSettings_next, settings_tryRelease, settings_wake]

theorem execChunkCoded_keepsSettings (n : Fin 256) (chunk : Fin 4) (engine : Fin 8) (mismatch : Bool) :
    KeepsSettings s (execChunkCoded n chunk engine mismatch s) := by
  dsimp only [execChunkCoded]
  (repeat' split) <;> simp only [keepsSettings_next, settings_dropLate, settings_pmCrypto, settings_pmCodec, settings_raise, settings_countCodec,
    settings_setTracker, settings_endJobs, settings_startJob]

theorem execDecaySweepVisit_keepsSettings : KeepsSettings s (execDecaySweepVisit s) := by
  dsimp only [execDecaySweepVisit]
  split
  · exact keepsSettings_next.mpr rfl
  refine keepsSettings_if ?_ ?_ <;> simp only [keepsSettings_next, settings_mapTier, startPass_policy, startPass_watermark, startPass_rate,
    settings_writeHeatMap, settings_ite, settings_enterCandidate, settings_chargeSweep, settings_touchEntry, settings_putTable, ite_self, implies_true]

theorem execQueuedPromotionStart_keepsSettings (hint : Frame) : KeepsSettings s (execQueuedPromotionStart hint s) := by
  dsimp only [execQueuedPromotionStart]
  (repeat' split) <;> rw [keepsSettings_next]
  next => rw [settings_mapTier] <;> exact fun _ => rfl
  next started => simp only [settings_wake, settings_mapTier, settings_startMigration started, implies_true]

theorem execBackgroundDemotionStart_keepsSettings (hint : Frame) : KeepsSettings s (execBackgroundDemotionStart hint s) := by
  have taken : (s.takeCandidate (8 * Config.bucketMax)).2.settings = s.settings := settings_takeCandidate ..
  unfold execBackgroundDemotionStart
  split
  · exact keepsSettings_next.mpr rfl
  generalize s.takeCandidate (8 * Config.bucketMax) = p at *
  obtain ⟨_ | d, u⟩ := p
  · exact keepsSettings_next.mpr taken
  dsimp only
  split
  next started => exact keepsSettings_next.mpr ((settings_startMigration started).trans taken)
  next => exact keepsSettings_next.mpr taken

theorem execBinCompaction_keepsSettings (bin hint : Frame) : KeepsSettings s (execBinCompaction bin hint s) := by
  unfold execBinCompaction
  split <;> simp only [keepsSettings_next, settings_foldl', settings_startOrWait, implies_true]

theorem execRebalance_keepsSettings (dpn : Dpn) (hint : Frame) : KeepsSettings s (execRebalance dpn hint s) := by
  unfold execRebalance
  (repeat' split) <;> simp only [keepsSettings_next, settings_mapWelt, settings_startOrWait, implies_true]

theorem execReleaseReevaluation_keepsSettings : KeepsSettings s (execReleaseReevaluation s) := by
  dsimp only [execReleaseReevaluation]
  (repeat' split) <;> simp only [keepsSettings_next, settings_foldl', settings_fire, settings_mapTier, settings_emits, settings_countTier,
    implies_true]

theorem execOnchipParityError_keepsSettings (b : ParityBlock) (reads : List MemberRead) : KeepsSettings s (execOnchipParityError b reads s) := by
  dsimp only [execOnchipParityError]
  (repeat' split) <;> simp only [keepsSettings_next, settings_takeOnchip, settings_parityLost, settings_hubParity, settings_mapWelt,
    settings_bufferLost, settings_wake, settings_cacheFieldsLost, settings_engineParity, settings_coreParity, implies_true]

/-! ### Repair, scrub and the compatibility window -/

theorem execParityCacheClean_keepsSettings : KeepsSettings s (execParityCacheClean s) := by
  unfold execParityCacheClean
  split <;> simp only [keepsSettings_next, settings_foldl', settings_writeBackParity, implies_true]

theorem execCandidateExpiry_keepsSettings (ch : Fin 12) (idx : Fin 256) : KeepsSettings s (execCandidateExpiry ch idx s) := by
  dsimp only [execCandidateExpiry]
  (repeat' split) <;> simp only [keepsSettings_next, settings_setRow]

theorem execRowRepairStart_keepsSettings (ch : Fin 12) (idx : Fin 256) : KeepsSettings s (execRowRepairStart ch idx s) := by
  dsimp only [execRowRepairStart]
  (repeat' split) <;> simp only [keepsSettings_next, settings_unitOut, settings_setUnit, settings_emits]

theorem execRepairWaitExpiry_keepsSettings (ch : Fin 12) (idx : Fin 256) : KeepsSettings s (execRepairWaitExpiry ch idx s) := by
  unfold execRepairWaitExpiry
  split <;> simp only [keepsSettings_next, settings_relocateRow]

theorem execPostPackageRepairDone_keepsSettings (ch : Fin 12) (idx : Fin 256) (ok : Bool) :
    KeepsSettings s (execPostPackageRepairDone ch idx ok s) := by
  dsimp only [execPostPackageRepairDone]
  (repeat' split) <;> simp only [keepsSettings_next, settings_emits, settings_setRow, settings_countWelt, settings_rowHard, settings_rejoinStale]

theorem execRowRetired_keepsSettings (ch : Fin 12) (idx : Fin 256) : KeepsSettings s (execRowRetired ch idx s) := by
  dsimp only [execRowRetired]
  (repeat' split) <;> simp only [keepsSettings_next, settings_foldl', settings_retireFrame, settings_setRow, implies_true]

theorem execScrubLine_keepsSettings (upset : Upset) (reads : List MemberRead) : KeepsSettings s (execScrubLine upset reads s) := by
  dsimp only [execScrubLine]
  (repeat' split) <;> simp only [keepsSettings_next, settings_scrubOn, settings_charge, settings_finishRebuild, settings_wake]

theorem execEcsRead_keepsSettings (ch : Fin 12) (ranksel : BitVec 6) (device : Fin 20) (count : W16) (bank : BitVec 5) (row : BitVec 18) :
    KeepsSettings s (execEcsRead ch ranksel device count bank row s) := by
  dsimp only [execEcsRead]
  (repeat' split) <;> rw [keepsSettings_next]
  next => rw [settings_raise]
  next => rw [settings_fire, settings_raise]
  next new => rw [settings_setRow, settings_newRow new, settings_raise]

theorem execUnitRebuildStep_keepsSettings (slot : Fin 4) (reads : List MemberRead) : KeepsSettings s (execUnitRebuildStep slot reads s) := by
  dsimp only [execUnitRebuildStep]
  (repeat' split) <;> simp only [keepsSettings_next, settings_rebuildOn, settings_rebuildEnds, settings_spareShort, settings_reSpare,
    settings_relocatePages]
  next spared => exact settings_spareOne spared
  next spared => exact settings_spareOne spared

theorem execUnitMapResolve_keepsSettings (slot : Fin 4) (reads : List MemberRead) : KeepsSettings s (execUnitMapResolve slot reads s) := by
  dsimp only [execUnitMapResolve]
  (repeat' split) <;> simp only [keepsSettings_next, settings_unitIn, settings_resolveGroup, settings_wake]

theorem execGetRepairTable_keepsSettings (m : Msg) (channel : Byte) (cursor max : W32) :
    KeepsSettings s (execGetRepairTable m channel cursor max s) :=
  keepsSettings_slafin (by split <;> rfl)

theorem execCompatRemap_keepsSettings (m : Msg) (dpa : W64) : KeepsSettings s (execCompatRemap m dpa s) := by
  refine keepsSettings_slafin ?_
  dsimp only
  (repeat' split) <;> simp only [Result.st, settings_setCompat]

theorem execCompatClear_keepsSettings (m : Msg) (entry : Byte) : KeepsSettings s (execCompatClear m entry s) := by
  refine keepsSettings_slafin ?_
  (repeat' split) <;> simp only [Result.st, settings_setCompat]

theorem execCompatList_keepsSettings (m : Msg) : KeepsSettings s (execCompatList m s) := keepsSettings_slafin rfl

/-! ### The DRAM channels -/

theorem execRefreshDue_keepsSettings (ch : Fin 12) (rank : Fin 4) : KeepsSettings s (execRefreshDue ch rank s) := by
  dsimp only [execRefreshDue]
  (repeat' split) <;> simp only [keepsSettings_next, settings_refreshRank, settings_updChan, settings_raise, settings_countChan]

theorem execOwedRefreshDrain_keepsSettings (ch : Fin 12) (rank : Fin 4) : KeepsSettings s (execOwedRefreshDrain ch rank s) := by
  dsimp only [execOwedRefreshDrain]
  (repeat' split) <;> simp only [keepsSettings_next, settings_updChan, settings_refreshRank]

theorem execPeriodicTracking_keepsSettings (ch : Fin 12) (lr : Fin 32) : KeepsSettings s (execPeriodicTracking ch lr s) := by
  dsimp only [execPeriodicTracking]
  (repeat' split) <;> simp only [keepsSettings_next, settings_draw, settings_mapDdr, settings_emit]

theorem execModuleTempRead_keepsSettings (ch : Fin 12) (temps : List (Fin 2 × Option Byte)) (mr4Hot : Bool) :
    KeepsSettings s (execModuleTempRead ch temps mr4Hot s) := by
  dsimp only [execModuleTempRead]
  (repeat' split) <;> simp only [keepsSettings_next, settings_foldl', settings_updChan, settings_recomputeUsable, settings_mapDdr, settings_raise,
    implies_true]

theorem execActivationWindowStart_keepsSettings (ch : Fin 12) : KeepsSettings s (execActivationWindowStart ch s) :=
  keepsSettings_next.mpr (settings_updChan ..)

theorem execRequestAgePromote_keepsSettings (ch : Fin 12) (tag : BitVec 13) : KeepsSettings s (execRequestAgePromote ch tag s) :=
  keepsSettings_next.mpr (settings_updChan ..)

theorem execSlotPresenceChange_keepsSettings (ch : Fin 12) (high : Bool) : KeepsSettings s (execSlotPresenceChange ch high s) := by
  dsimp only [execSlotPresenceChange]
  (repeat' split) <;> simp only [keepsSettings_next, settings_updChan, settings_raise, settings_rejoinEnds, settings_setUnitState, settings_slotsOff,
    settings_channelFails, settings_wake]

theorem execSlotSupplyOff_keepsSettings (ch : Fin 12) : KeepsSettings s (execSlotSupplyOff ch s) := by
  dsimp only [execSlotSupplyOff]
  (repeat' split) <;> simp only [keepsSettings_next, settings_updChan, settings_setUnitState, settings_reply]

theorem execSlotSupplySettled_keepsSettings (ch : Fin 12) (dimms : List (Fin 2 × Dimm)) : KeepsSettings s (execSlotSupplySettled ch dimms s) := by
  dsimp only [execSlotSupplySettled]
  (repeat' split) <;> simp only [keepsSettings_next, settings_rejoinEnds, settings_foldl', settings_setRow, settings_mapPower, settings_updChan,
    settings_emit, implies_true, settings_ite, ite_self]

theorem execPmicPowerGood_keepsSettings (ch : Fin 12) : KeepsSettings s (execPmicPowerGood ch s) := by
  dsimp only [execPmicPowerGood]
  (repeat' split) <;> simp only [keepsSettings_next, settings_updChan, settings_setUnitState, settings_reply]

theorem execPmicPowerGoodTimeout_keepsSettings (ch : Fin 12) : KeepsSettings s (execPmicPowerGoodTimeout ch s) := by
  dsimp only [execPmicPowerGoodTimeout]
  (repeat' split) <;> simp only [keepsSettings_next, settings_rejoinEnds]

theorem execCaParityAlert_keepsSettings (ch : Fin 12) (rank : Fin 4) : KeepsSettings s (execCaParityAlert ch rank s) := by
  simp only [execCaParityAlert, keepsSettings_next, settings_channelAlert, settings_wake]

theorem execWriteCrcAlert_keepsSettings (ch : Fin 12) (rank : Fin 4) : KeepsSettings s (execWriteCrcAlert ch rank s) := by
  simp only [execWriteCrcAlert, keepsSettings_next, settings_channelAlert, settings_wake]

theorem execPmicFault_keepsSettings (ch : Fin 12) : KeepsSettings s (execPmicFault ch s) := by
  unfold execPmicFault
  split <;> simp only [keepsSettings_next, settings_raise, settings_slotsOff, settings_channelFails, settings_wake]

theorem execTrainMcuWatchdog_keepsSettings (die : Fin 2) : KeepsSettings s (execTrainMcuWatchdog die s) := by
  unfold execTrainMcuWatchdog
  split <;> simp only [keepsSettings_next, settings_raise, settings_mapDdr]

theorem execSetChannelControl_keepsSettings (m : Msg) (channel : Byte) (control : W64) :
    KeepsSettings s (execSetChannelControl m channel control s) := by
  refine keepsSettings_slafin ?_
  dsimp only
  (repeat' split) <;> simp only [Result.st, settings_setControl, settings_updChan, settings_startRateChange]

theorem execQuiesceChannel_keepsSettings (m : Msg) (channel : Byte) : KeepsSettings s (execQuiesceChannel m channel s) := by
  refine keepsSettings_slafin ?_
  dsimp only
  (repeat' split) <;> simp only [Result.st, settings_setUnit, settings_recordUnit, settings_park, settings_unitOut, settings_wake]

theorem execRejoinChannel_keepsSettings (m : Msg) (channel : Byte) : KeepsSettings s (execRejoinChannel m channel s) := by
  refine keepsSettings_slafin ?_
  dsimp only
  (repeat' split) <;> simp only [Result.st, settings_updChan, settings_setUnitState, settings_endChannelInj, settings_slotPin]

theorem execTrainingComplete_keepsSettings (ch : Fin 12) (r : TrainResult) : KeepsSettings s (execTrainingComplete ch r s) := by
  dsimp only [execTrainingComplete]
  (repeat' split) <;> simp only [keepsSettings_next, settings_updChan, settings_trainGivesUp, settings_wake, settings_trained,
    settings_startDeferred, settings_mapPower, settings_channelDerate]

/-! ### Lace -/

theorem execDataFlitReceived_keepsSettings (m : Fin 4) (e : LaceEnd) (f : Flit) : KeepsSettings s (execDataFlitReceived m e f s) :=
  keepsSettings_next.mpr (settings_receive ..)

theorem execCreditFlit_keepsSettings (m : Fin 4) (e : LaceEnd) (f : Flit) : KeepsSettings s (execCreditFlit m e f s) :=
  keepsSettings_next.mpr (settings_receive ..)

theorem execRetrainRequest_keepsSettings (m : Fin 4) (e : LaceEnd) (f : Flit) : KeepsSettings s (execRetrainRequest m e f s) :=
  keepsSettings_next.mpr (settings_receive ..)

theorem execHandover_keepsSettings (m : Fin 4) (e : LaceEnd) (f : Flit) : KeepsSettings s (execHandover m e f s) :=
  keepsSettings_next.mpr (settings_receive ..)

theorem execReturnFlit_keepsSettings (m : Fin 4) (e : LaceEnd) (f : Flit) : KeepsSettings s (execReturnFlit m e f s) :=
  keepsSettings_next.mpr (settings_receive ..)

theorem execTrainPattern_keepsSettings (m : Fin 4) (e : LaceEnd) (f : Flit) : KeepsSettings s (execTrainPattern m e f s) :=
  keepsSettings_next.mpr (settings_receive ..)

theorem execTrainParameters_keepsSettings (m : Fin 4) (e : LaceEnd) (f : Flit) : KeepsSettings s (execTrainParameters m e f s) :=
  keepsSettings_next.mpr (settings_receive ..)

theorem execTrainDone_keepsSettings (m : Fin 4) (e : LaceEnd) (f : Flit) (margin : Nat) (repaired : Byte) :
    KeepsSettings s (execTrainDone m e f margin repaired s) :=
  keepsSettings_next.mpr (settings_receive ..)

theorem execAckDue_keepsSettings (m : Fin 4) (e : LaceEnd) : KeepsSettings s (execAckDue m e s) := by
  unfold execAckDue
  split <;> simp only [keepsSettings_next, settings_sendCtrl]

theorem execCtrlFlitDue_keepsSettings (m : Fin 4) (e : LaceEnd) : KeepsSettings s (execCtrlFlitDue m e s) := by
  unfold execCtrlFlitDue
  split <;> simp only [keepsSettings_next, settings_updSide, settings_sendCtrl]

theorem execReplayTimerExpiry_keepsSettings (m : Fin 4) (e : LaceEnd) : KeepsSettings s (execReplayTimerExpiry m e s) := by
  dsimp only [execReplayTimerExpiry]
  (repeat' split) <;> simp only [keepsSettings_next, settings_replayFrom, settings_updSide, settings_raiseFencing, settings_startRetrain]

theorem execCreditLeakDetected_keepsSettings (m : Fin 4) (e : LaceEnd) : KeepsSettings s (execCreditLeakDetected m e s) := by
  unfold execCreditLeakDetected
  split <;> simp only [keepsSettings_next, settings_raise, settings_updLaceMod]

theorem execLeakRetrainStart_keepsSettings (m : Fin 4) : KeepsSettings s (execLeakRetrainStart m s) := by
  unfold execLeakRetrainStart
  split <;> simp only [keepsSettings_next, settings_countLace, settings_startRetrain]

theorem execSilenceTimeout_keepsSettings (m : Fin 4) : KeepsSettings s (execSilenceTimeout m s) := by
  unfold execSilenceTimeout
  split <;> simp only [keepsSettings_next, settings_startRetrain]

theorem execRetrainTimeout_keepsSettings (m : Fin 4) : KeepsSettings s (execRetrainTimeout m s) := by
  dsimp only [execRetrainTimeout]
  (repeat' split) <;> simp only [keepsSettings_next, settings_retrainFails, settings_wake]

theorem execHandoverTimeout_keepsSettings (die : Fin 2) : KeepsSettings s (execHandoverTimeout die s) := by
  dsimp only [execHandoverTimeout]
  (repeat' split) <;> simp only [keepsSettings_next, settings_dieDown, settings_wake]

theorem execReturnAttempt_keepsSettings (m : Fin 4) (trained : Bool) : KeepsSettings s (execReturnAttempt m trained s) := by
  dsimp only [execReturnAttempt]
  (repeat' split) <;> simp only [keepsSettings_next, settings_updLaceMod]

theorem execReturnSoakEnd_keepsSettings (m : Fin 4) (clean : Bool) : KeepsSettings s (execReturnSoakEnd m clean s) := by
  unfold execReturnSoakEnd
  split <;> simp only [keepsSettings_next, settings_updLaceMod, settings_tryReturn]

theorem execDieRead_keepsSettings (m : Fin 4) (r : ReqSlot) : KeepsSettings s (execDieRead m r s) := by
  unfold execDieRead
  split <;> simp only [keepsSettings_next, settings_enqueue]

theorem execDieWrite_keepsSettings (m : Fin 4) (r : ReqSlot) (data : Line) (side : Side) : KeepsSettings s (execDieWrite m r data side s) := by
  unfold execDieWrite
  split <;> simp only [keepsSettings_next, settings_enqueue, settings_setRaw, settings_pmChan]

theorem execChannelCommand_keepsSettings (m : Fin 4) (ch : Fin 12) (k : ChanCmd) (tag : BitVec 13) :
    KeepsSettings s (execChannelCommand m ch k tag s) := by
  unfold execChannelCommand
  split <;> simp only [keepsSettings_next, settings_updLaceMod, settings_emit]

theorem execDieEvent_keepsSettings (m : Fin 4) (num : W16) (source : BitVec 11) : KeepsSettings s (execDieEvent m num source s) := by
  dsimp only [execDieEvent]
  (repeat' split) <;> simp only [keepsSettings_next, settings_fire, settings_updLaceMod, settings_post]

theorem execLineData_keepsSettings (m : Fin 4) (entries : List LineEntry) : KeepsSettings s (execLineData m entries s) := by
  unfold execLineData
  (repeat' split) <;> simp only [keepsSettings_next, settings_protocolError, settings_foldl', settings_takeLine, settings_dequeue, settings_wake,
    implies_true]

theorem execWriteDone_keepsSettings (m : Fin 4) (tags : List (BitVec 13)) : KeepsSettings s (execWriteDone m tags s) := by
  unfold execWriteDone
  (repeat' split) <;> simp only [keepsSettings_next, settings_protocolError, settings_foldl', settings_dequeue, implies_true]

theorem execCommandDone_keepsSettings (m : Fin 4) (tag : BitVec 13) (ok : Bool) : KeepsSettings s (execCommandDone m tag ok s) := by
  unfold execCommandDone
  split <;> simp only [keepsSettings_next, settings_updLaceMod, settings_emits]

theorem execEventTaken_keepsSettings (m : Fin 4) (nums : List W16) : KeepsSettings s (execEventTaken m nums s) := by
  unfold execEventTaken
  (repeat' split) <;> simp only [keepsSettings_next, settings_protocolError, settings_updLaceMod]

theorem execSetLacePoint_keepsSettings (m : Msg) (module rate half : Byte) : KeepsSettings s (execSetLacePoint m module rate half s) := by
  refine keepsSettings_slafin ?_
  dsimp only
  (repeat' split) <;> simp only [Result.st, settings_updLaceMod, settings_startRetrain]

/-! ### The shadow writer and the drives -/

/-- For any failures of the verification: settings_pageRecord speaks of none. -/
theorem settings_pageRecord_verified (dpn : Dpn) (level : Nat) (v : VerifyFails) : (s.pageRecord dpn level v).2.settings = s.settings := by
  have granules : (s.warmGranules dpn).2.settings = s.settings := settings_warmGranules ..
  have lines : (s.warmLines dpn false).2.settings = s.settings := settings_warmLines ..
  unfold State.pageRecord
  generalize s.warmGranules dpn = g at *
  generalize s.warmLines dpn false = w at *
  obtain ⟨_ | cs, g⟩ := g <;> obtain ⟨_ | ls, w⟩ := w <;> dsimp only at * <;> (repeat' split) <;>
    simp only [settings_withPayload, settings_verifyPage, granules, lines]

/-- For any master and any failures of the verification: settings_recordPage speaks of the shadow writer's own and of none. -/
theorem settings_recordPage_verified (dpn : Dpn) (amount level : Nat) (f : Record → Record) (master : Nat) (v : VerifyFails) :
    (s.recordPage dpn amount level f master v).settings = s.settings := by
  unfold State.recordPage
  simp only [settings_beginRecord, settings_ite, settings_charge, settings_countCodec, settings_pmCodec, settings_pageRecord_verified, ite_self]

theorem execShadowRecord_keepsSettings (v : VerifyFails) : KeepsSettings s (execShadowRecord s v) := by
  dsimp only [execShadowRecord]
  (repeat' split) <;> simp only [keepsSettings_next, settings_mapShank, settings_wake, settings_slotQueuePassed, settings_countShank,
    settings_beginRecord, settings_recordPage_verified, settings_ite, settings_touchEntry, ite_self, implies_true]

theorem execDriveCommandComplete_keepsSettings (n : Fin 4) (id : Nat) : KeepsSettings s (execDriveCommandComplete n id s) := by
  unfold execDriveCommandComplete
  split <;> simp only [keepsSettings_next, settings_updDrive, settings_recordDone, settings_wake, settings_ite, ite_self]

theorem execEpochEnd_keepsSettings : KeepsSettings s (execEpochEnd s) := by
  unfold execEpochEnd
  split <;> simp only [keepsSettings_next, settings_endEpoch]

theorem execEpochClose_keepsSettings : KeepsSettings s (execEpochClose s) := by
  dsimp only [execEpochClose]
  (repeat' split) <;> simp only [keepsSettings_next, settings_wake, settings_freeSlots, settings_hardenDone, settings_closeEpoch]

theorem execRefreshLapStep_keepsSettings : KeepsSettings s (execRefreshLapStep s) := by
  dsimp only [execRefreshLapStep]
  (repeat' split) <;> simp only [keepsSettings_next, settings_wake, settings_endLap, settings_recordPage, settings_mapShank, implies_true]

theorem execWindowRecompute_keepsSettings (r : Option Nat) : KeepsSettings s (execWindowRecompute r s) := by
  simp only [execWindowRecompute, keepsSettings_next, settings_wake, settings_computeWindow, settings_foldl', settings_updDrive,
    settings_mapShank, implies_true]

theorem execHoldupSample_keepsSettings (senseMv : Nat) : KeepsSettings s (execHoldupSample senseMv s) := by
  unfold execHoldupSample
  split <;> simp only [keepsSettings_next, settings_probeSample, settings_mapShank, implies_true]

theorem execShadowRepairRecordRead_keepsSettings (dpn : Dpn) (chunk : Fin 4) (ok : Bool) (hint : Frame) :
    KeepsSettings s (execShadowRepairRecordRead dpn chunk ok hint s) := by
  simp only [execShadowRepairRecordRead]
  split
  · exact keepsSettings_next.mpr rfl
  split
  · split <;> simp only [keepsSettings_next, settings_wake, settings_toLost, settings_mapCodec, settings_charge]
  refine keepsSettings_if ?_ (keepsSettings_if ?_ ?_)
  · simp only [keepsSettings_next, settings_wake, settings_patchLines, settings_countCodec, settings_mapCodec, settings_charge]
  · split
    · exact keepsSettings_next.mpr (settings_charge ..)
    next started =>
      have kept := settings_startMigration started
      split <;> simp only [keepsSettings_next, settings_wake, settings_countCodec, settings_mapCodec]
      · rw [kept, settings_charge]
      · rw [settings_foldl _ fun u _ => by rw [settings_ite, settings_writeHotLine, ite_self], kept, settings_charge]
  · split <;> simp only [keepsSettings_next, settings_wake, settings_mapCodec, settings_charge]

/-! ### Save and the way back -/

theorem execSaveStart_keepsSettings : KeepsSettings s (execSaveStart s) := by
  unfold execSaveStart
  (repeat' split) <;> simp only [keepsSettings_next, settings_countShank, settings_saveAtOnce, settings_saveFence, settings_mapShank,
    settings_mapPower, implies_true, settings_ite, ite_self]

theorem execGpfPhase1_keepsSettings (head : Fin 4) : KeepsSettings s (execGpfPhase1 head s) := by
  unfold execGpfPhase1
  split <;> simp only [keepsSettings_next, settings_emit]

theorem execGpfPhase2_keepsSettings (head : Fin 4) : KeepsSettings s (execGpfPhase2 head s) := by
  dsimp only [execGpfPhase2]
  (repeat' split) <;> simp only [keepsSettings_next, settings_emit, settings_mapShank, settings_saveFence, implies_true]

theorem execGpfTimeout_keepsSettings : KeepsSettings s (execGpfTimeout s) := by
  unfold execGpfTimeout
  split <;> simp only [keepsSettings_next, settings_saveFence]

theorem execSaveQueueEmpty_keepsSettings : KeepsSettings s (execSaveQueueEmpty s) := by
  dsimp only [execSaveQueueEmpty]
  (repeat' split) <;> simp only [keepsSettings_next, settings_flushDrives, settings_closeSave, settings_mapShank, implies_true]

theorem execSaveFlushComplete_keepsSettings : KeepsSettings s (execSaveFlushComplete s) := by
  unfold execSaveFlushComplete
  split <;> simp only [keepsSettings_next, settings_countShank, settings_mapShank, settings_insoleOther, settings_emit, implies_true, settings_ite,
    ite_self]

theorem execParityWritebackDone_keepsSettings : KeepsSettings s (execParityWritebackDone s) := by
  unfold execParityWritebackDone
  split <;> simp only [keepsSettings_next, settings_foldl', settings_writeBackParity, settings_setSelfRefresh, settings_mapShank, settings_mapPower,
    implies_true]

theorem execPwrfailReturn_keepsSettings : KeepsSettings s (execPwrfailReturn s) := by
  dsimp only [execPwrfailReturn]
  (repeat' split) <;> simp only [keepsSettings_next, settings_mapShank, settings_fire, settings_mapPower, settings_wake, implies_true]

theorem execResumeInPlace_keepsSettings : KeepsSettings s (execResumeInPlace s) := by
  unfold execResumeInPlace
  split <;> simp only [keepsSettings_next, settings_mapShank, settings_loseImage, settings_refreshSupers, settings_foldl', settings_setSelfRefresh,
    settings_mapPath, settings_mapPower, settings_emit, settings_wake, implies_true, settings_ite, ite_self]

theorem execDriveSaveTimeout_keepsSettings (n : Fin 4) : KeepsSettings s (execDriveSaveTimeout n s) := by
  unfold execDriveSaveTimeout
  split <;> simp only [keepsSettings_next, settings_countShank, settings_failDrive]

theorem execDriveFail_keepsSettings (n : Fin 4) (timeout : Bool) : KeepsSettings s (execDriveFail n timeout s) := by
  unfold execDriveFail
  split <;> simp only [keepsSettings_next, settings_updDrive, settings_countShank, settings_raise, settings_failDrive, settings_wake, settings_ite,
    ite_self]

theorem execDriveRebuildStep_keepsSettings (n : Fin 4) (blocks : Nat) : KeepsSettings s (execDriveRebuildStep n blocks s) := by
  dsimp only [execDriveRebuildStep]
  (repeat' split) <;> simp only [keepsSettings_next, settings_updDrive, settings_mapShank, settings_refreshSupers, implies_true]

theorem execImageCreate_keepsSettings (calibrationRate : Nat) : KeepsSettings s (execImageCreate calibrationRate s) := by
  unfold execImageCreate
  split <;> simp only [keepsSettings_next, settings_createImage, settings_wake]

theorem execDriveLinkUp_keepsSettings (n : Fin 4) (d : DriveInfo) : KeepsSettings s (execDriveLinkUp n d s) := by
  dsimp only [execDriveLinkUp]
  (repeat' split) <;> simp only [keepsSettings_next, settings_updDrive, settings_mapPower, settings_raise, settings_joinDrive, settings_wake]

theorem execDrivePresenceChange_keepsSettings (n : Fin 4) (present : Bool) : KeepsSettings s (execDrivePresenceChange n present s) := by
  unfold execDrivePresenceChange
  (repeat' split) <;> simp only [keepsSettings_next, settings_updDrive, settings_emit, settings_raise, settings_failDrive, settings_wake,
    settings_ite, ite_self]

theorem execDriveRelease_keepsSettings (m : Msg) (drive confirm : Byte) : KeepsSettings s (execDriveRelease m drive confirm s) := by
  refine keepsSettings_slafin ?_
  dsimp only
  (repeat' split) <;> simp only [Result.st, settings_joinDrive, settings_wake]

theorem execDriveRemove_keepsSettings (m : Msg) (drive : Byte) : KeepsSettings s (execDriveRemove m drive s) := by
  refine keepsSettings_slafin ?_
  dsimp only
  (repeat' split) <;> simp only [Result.st, settings_failDrive, settings_updDrive, settings_emit]

theorem execSetRegionDurable_keepsSettings (m : Msg) (region durable : Byte) : KeepsSettings s (execSetRegionDurable m region durable s) := by
  refine keepsSettings_slafin ?_
  dsimp only
  (repeat' split) <;> simp only [Result.st, settings_updRegion]

/-! ### Resume and restore -/

theorem execPoolInitGroup_keepsSettings : KeepsSettings s (execPoolInitGroup s) := by
  dsimp only [execPoolInitGroup]
  split
  · exact keepsSettings_next.mpr rfl
  · simp only [keepsSettings_next, settings_wake, settings_afterFree, settings_enterS1, settings_ite, settings_mapTier, settings_mapResume,
      settings_charge, ite_self, implies_true]

theorem execImageRead_keepsSettings (f : ImageFound) : KeepsSettings s (execImageRead f s) := by
  unfold execImageRead
  split <;> simp only [keepsSettings_next, settings_readImage]

theorem execRestoreIndexBuilt_keepsSettings : KeepsSettings s (execRestoreIndexBuilt s) := by
  dsimp only [execRestoreIndexBuilt]
  split
  · exact keepsSettings_next.mpr rfl
  · simp only [keepsSettings_next, settings_wake, settings_raiseLevel, settings_checkLog, settings_startExtent, settings_mapResume, settings_foldl',
      settings_takeOutcome, settings_mapShank, settings_ite, settings_writeSupers, settings_mapImage, ite_self, implies_true]

theorem execVoidOverwriteStep_keepsSettings (blocks : Nat) : KeepsSettings s (execVoidOverwriteStep blocks s) := by
  dsimp only [execVoidOverwriteStep]
  (repeat' split) <;> simp only [keepsSettings_next, settings_writeImage, settings_mapShank, settings_mapImage, implies_true]

theorem execRestoreRecordRead_keepsSettings (ok : Bool) (hint : Frame) : KeepsSettings s (execRestoreRecordRead ok hint s) := by
  dsimp only [execRestoreRecordRead]
  (repeat' split) <;> simp only [keepsSettings_next, settings_putEntry, settings_restored, settings_wake, settings_recordBad, settings_restoreHeld,
    settings_mapResume, settings_restoreWarm, settings_restoreHot, implies_true]

theorem execRestoreExtentDone_keepsSettings : KeepsSettings s (execRestoreExtentDone s) := by
  unfold execRestoreExtentDone
  (repeat' split) <;> simp only [keepsSettings_next, settings_startExtent, settings_wake, settings_raiseLevel, settings_extentDone]

theorem execRestorePriority_keepsSettings (m : Msg) (req : PriorityReq) : KeepsSettings s (execRestorePriority m req s) := by
  refine keepsSettings_slafin ?_
  (repeat' split) <;> simp only [Result.st, settings_mapResume, implies_true]

theorem execGetLossList_keepsSettings (m : Msg) (cursor max : W32) : KeepsSettings s (execGetLossList m cursor max s) := by
  refine keepsSettings_slafin ?_
  dsimp only
  (repeat' split) <;> simp only [Result.st]

theorem execReofferExtent_keepsSettings (m : Msg) (ld : Byte) (tag : BitVec 128) : KeepsSettings s (execReofferExtent m ld tag s) := by
  refine keepsSettings_slafin ?_
  dsimp only
  (repeat' split) <;> simp only [Result.st, settings_mapCmd, settings_offerTo]

theorem execRetryRestore_keepsSettings (m : Msg) (f : ImageFound) : KeepsSettings s (execRetryRestore m f s) := by
  refine keepsSettings_slafin ?_
  (repeat' split) <;> simp only [Result.st, settings_mapResume, settings_readImage, implies_true]

/-! ### Regulation -/

theorem execSetMasters_keepsSettings (m : Msg) (entries : List (Byte × W64)) : KeepsSettings s (execSetMasters m entries s) := by
  refine keepsSettings_slafin ?_
  dsimp only
  (repeat' split) <;> simp only [Result.st, settings_rejectAdmission, settings_setPending]

theorem execAccountingInterval_keepsSettings : KeepsSettings s (execAccountingInterval s) := by
  simp only [execAccountingInterval, keepsSettings_next, settings_countReg, settings_foldl', settings_setMaster, settings_mapReg, settings_rescale,
    settings_arbitrate, implies_true, settings_ite, ite_self]

theorem execPriorityHoldEnd_keepsSettings (master : Fin 39) (rowHold : Bool) : KeepsSettings s (execPriorityHoldEnd master rowHold s) := by
  simp only [execPriorityHoldEnd, keepsSettings_next, settings_updMaster, settings_arbitrate]

theorem execArbiterWaitAge_keepsSettings (tag : BitVec 13) : KeepsSettings s (execArbiterWaitAge tag s) := by
  simp only [execArbiterWaitAge, keepsSettings_next, settings_mapReg, settings_arbitrate, implies_true]

/-! ### The CXL ports -/

theorem execLinkTrained_keepsSettings (head : Fin 4) (l : LinkState) : KeepsSettings s (execLinkTrained head l s) := by
  dsimp only [execLinkTrained]
  (repeat' split) <;> simp only [keepsSettings_next, settings_setLink, settings_raise, settings_checkHeadMargin, settings_rateWaitEnds,
    settings_mapResume, settings_foldl', settings_attach, settings_attachSld, settings_bindPort, implies_true]

theorem execLinkDown_keepsSettings (head : Fin 4) : KeepsSettings s (execLinkDown head s) := by
  dsimp only [execLinkDown]
  (repeat' split) <;> simp only [keepsSettings_next, settings_raise, settings_updHeadOf, settings_reply, settings_headDown, settings_wake]

theorem execL0pRequest_keepsSettings (head : Fin 4) (width : Fin 17) : KeepsSettings s (execL0pRequest head width s) := by
  dsimp only [execL0pRequest]
  (repeat' split) <;> simp only [keepsSettings_next, settings_updHeadOf, settings_emit]

theorem execUpspeedRetry_keepsSettings (head : Fin 4) (success : Bool) : KeepsSettings s (execUpspeedRetry head success s) := by
  dsimp only [execUpspeedRetry]
  (repeat' split) <;> simp only [keepsSettings_next, settings_mapResume, settings_emit, settings_setLink, settings_raise, implies_true]

theorem execSetPortRate_keepsSettings (m : Msg) (head maxRate : Byte) : KeepsSettings s (execSetPortRate m head maxRate s) := by
  refine keepsSettings_slafin ?_
  dsimp only
  (repeat' split) <;> simp only [Result.st, settings_draw, settings_updHeadOf, settings_limitRate]

theorem execChangeDeferralTimeout_keepsSettings (target : Fin 20) : KeepsSettings s (execChangeDeferralTimeout target s) := by
  dsimp only [execChangeDeferralTimeout]
  (repeat' split) <;> simp only [keepsSettings_next, settings_updChan, settings_reply, settings_updLaceMod, settings_updHeadOf]

theorem execPortReset_keepsSettings (p : Fin 2) : KeepsSettings s (execPortReset p s) := by
  unfold execPortReset
  split <;> simp only [keepsSettings_next, settings_mapPort, settings_foldl', settings_raise, settings_headDown, settings_updHeadOf,
    settings_resetFn, settings_wake, implies_true, settings_ite, ite_self]

theorem execPerstRelease_keepsSettings (p : Fin 2) : KeepsSettings s (execPerstRelease p s) := by
  unfold execPerstRelease
  split <;> simp only [keepsSettings_next, settings_mapPort, settings_foldl', settings_emit, implies_true]

theorem execLdReset_keepsSettings (fn : Fin 36) : KeepsSettings s (execLdReset fn s) := by
  unfold execLdReset
  split <;> simp only [keepsSettings_next, settings_resetFn, settings_sendOffers, settings_ite, ite_self]

theorem execConfigRequest_keepsSettings (head : Fin 4) (fn : Fin 36) (offset : BitVec 12) : KeepsSettings s (execConfigRequest head fn offset s) := by
  dsimp only [execConfigRequest]
  (repeat' split) <;> simp only [keepsSettings_next, settings_emit, settings_configDword]

theorem execMmioBadAccess_keepsSettings (fn : Fin 36) (offset : BitVec 25) (read : Bool) : KeepsSettings s (execMmioBadAccess fn offset read s) := by
  unfold execMmioBadAccess
  split <;> simp only [keepsSettings_next, settings_raise, settings_emit, settings_ite, ite_self]

theorem execMsixVectorUnmask_keepsSettings (fn : Fin 36) (vector : Fin 2048) : KeepsSettings s (execMsixVectorUnmask fn vector s) := by
  unfold execMsixVectorUnmask
  split <;> simp only [keepsSettings_next, settings_unmask]

theorem execHdmDecoderCommit_keepsSettings (ld : Fin 32) (n : Fin 4) (base size : W64) (ways : Fin 17) (gran : W16) :
    KeepsSettings s (execHdmDecoderCommit ld n base size ways gran s) := by
  dsimp only [execHdmDecoderCommit]
  (repeat' split) <;> simp only [keepsSettings_next, settings_updFn]

/-! ### Faults and Insole -/

theorem execEventArrival_keepsSettings (events : List (BitVec 11 × Fin 4 × Option (Fin 32))) : KeepsSettings s (execEventArrival events s) := by
  simp only [execEventArrival, keepsSettings_next, settings_foldl', settings_doFence, settings_raiseCycle, settings_wake, implies_true]

theorem execClassReturn_keepsSettings : KeepsSettings s (execClassReturn s) := by
  simp only [execClassReturn, keepsSettings_next, settings_foldl', settings_setSrc, implies_true]

theorem execAliveToggle_keepsSettings : KeepsSettings s (execAliveToggle s) := by
  unfold execAliveToggle
  split <;> simp only [keepsSettings_next, settings_mapFault, settings_emit]

theorem execHeartbeatLost_keepsSettings : KeepsSettings s (execHeartbeatLost s) := by
  unfold execHeartbeatLost
  split <;> simp only [keepsSettings_next, settings_fire, settings_mapFault]

theorem execInsoleExportWrite_keepsSettings : KeepsSettings s (execInsoleExportWrite s) := by
  dsimp only [execInsoleExportWrite]
  (repeat' split) <;> simp only [keepsSettings_next, settings_mapFault, settings_emit]

theorem execInsoleExportEnable_keepsSettings (head : Fin 4) (value : W64) : KeepsSettings s (execInsoleExportEnable head value s) := by
  unfold execInsoleExportEnable
  split <;> simp only [keepsSettings_next, settings_writeExport]

theorem execAwlInjection_keepsSettings (slot : Fin 16) : KeepsSettings s (execAwlInjection slot s) := by
  dsimp only [execAwlInjection]
  (repeat' split) <;> simp only [keepsSettings_next, settings_injectLine, settings_injectChannel, settings_wake, settings_setInj,
    settings_countApplied, settings_raise]

theorem execAwlArm_keepsSettings (m : Msg) (d : AwlDesc) : KeepsSettings s (execAwlArm m d s) := by
  refine keepsSettings_slafin ?_
  (repeat' split) <;> simp only [Result.st, settings_setInj, settings_insoleOther, settings_mapFault]

theorem execAwlDisarm_keepsSettings (m : Msg) (injection : W32) : KeepsSettings s (execAwlDisarm m injection s) := by
  refine keepsSettings_slafin ?_
  dsimp only
  (repeat' split) <;> simp only [Result.st, settings_foldl', settings_parkInj, settings_setInj, settings_insoleOther, implies_true, settings_ite,
    ite_self]

theorem execSetSource_keepsSettings (m : Msg) (source : W16) (config : W64) : KeepsSettings s (execSetSource m source config s) := by
  refine keepsSettings_slafin ?_
  dsimp only
  (repeat' split) <;> simp only [Result.st, settings_updSrc, settings_insoleOther]

theorem execClearSource_keepsSettings (m : Msg) (source count : W16) : KeepsSettings s (execClearSource m source count s) := by
  refine keepsSettings_slafin ?_
  dsimp only
  (repeat' split) <;> simp only [Result.st, settings_foldl', settings_updSrc, implies_true]

theorem execGetSources_keepsSettings (m : Msg) (first max : W16) : KeepsSettings s (execGetSources m first max s) := by
  refine keepsSettings_slafin ?_
  dsimp only
  (repeat' split) <;> simp only [Result.st]

theorem execReadInsole_keepsSettings (m : Msg) (cursor max : W32) : KeepsSettings s (execReadInsole m cursor max s) := by
  refine keepsSettings_slafin ?_
  dsimp only
  (repeat' split) <;> simp only [Result.st]

theorem execUnfreezeInsole_keepsSettings (m : Msg) : KeepsSettings s (execUnfreezeInsole m s) :=
  keepsSettings_slafin (by simp only [Result.st, settings_insoleOther, settings_mapFault])

/-! ### Performance -/

theorem execFreezeAll_keepsSettings (fn : Fin 36) (value : W64) : KeepsSettings s (execFreezeAll fn value s) := by
  unfold execFreezeAll
  split <;> simp only [keepsSettings_next, settings_setFreeze]

theorem execCpmuConfigWrite_keepsSettings (fn : Fin 36) (unit : Fin 21) (counter : Fin 8) (cfg : CounterCfg) :
    KeepsSettings s (execCpmuConfigWrite fn unit counter cfg s) := by
  unfold execCpmuConfigWrite
  split <;> simp only [keepsSettings_next, settings_updPerfFn]

theorem execSampleCfgWrite_keepsSettings (fn : Fin 36) (p : Fin 2) (value : W64) : KeepsSettings s (execSampleCfgWrite fn p value s) := by
  unfold execSampleCfgWrite
  split <;> simp only [keepsSettings_next, settings_writeSampleCfg]

theorem execDumpRingEnable_keepsSettings (fn : Fin 36) (value : W64) : KeepsSettings s (execDumpRingEnable fn value s) := by
  unfold execDumpRingEnable
  split <;> simp only [keepsSettings_next, settings_writeDumpRing]

theorem execPeriodicDump_keepsSettings (fn : Fin 36) : KeepsSettings s (execPeriodicDump fn s) := by
  dsimp only [execPeriodicDump]
  (repeat' split) <;> simp only [keepsSettings_next, settings_loseDump, settings_mapFault, settings_emit, settings_updPerfFn]

/-! ### Page operation queues -/

theorem execDoorbell_keepsSettings (ld : Fin 32) (page : Fin 64) (value : W64) (pasid : Option (BitVec 20)) :
    KeepsSettings s (execDoorbell ld page value pasid s) := by
  dsimp only [execDoorbell]
  (repeat' split) <;> simp only [keepsSettings_next, settings_raise, settings_countPoq, settings_useCtx, settings_setCtx, settings_pmPoq]

theorem execDescriptorFetch_keepsSettings (q : BitVec 20) (ds : Option (List Descriptor)) : KeepsSettings s (execDescriptorFetch q ds s) := by
  dsimp only [execDescriptorFetch]
  (repeat' split) <;> simp only [keepsSettings_next, settings_ringFault, settings_useCtx, settings_setCtx, settings_slots]

theorem PageRes.st_ok (step buf : Nat) (lost : Bool) (s : State) : (PageRes.ok step buf lost s).st = s := rfl

theorem keepsSettings_operate {q : BitVec 20} {id : W16} {op : Nat} {act : Nat → Exec → Nat → Nat → Bool → State → PageRes}
    (h : ∀ ld x a b c u, (act ld x a b c u).st.settings = u.settings) : KeepsSettings s (s.operate q id op act) := by
  unfold State.operate
  split
  · exact keepsSettings_next.mpr rfl
  · exact keepsSettings_next.mpr ((settings_wake _).trans (settings_runPieces _ _ _ _ (h _ _) ..))

theorem execZeroRange_keepsSettings (q : BitVec 20) (id : W16) : KeepsSettings s (execZeroRange q id s) :=
  keepsSettings_operate fun _ _ _ _ _ _ => settings_onPage _ _ _ _ _ _ _ fun _ _ => settings_zeroPage ..

theorem execCopyRange_keepsSettings (q : BitVec 20) (id : W16) (hint : Frame) : KeepsSettings s (execCopyRange q id hint s) :=
  keepsSettings_operate fun _ _ _ _ _ _ => settings_copyPiece ..

theorem execPinHot_keepsSettings (q : BitVec 20) (id : W16) (hint : Frame) : KeepsSettings s (execPinHot q id hint s) := by
  refine keepsSettings_operate fun _ _ _ _ _ _ => settings_onPage _ _ _ _ _ _ _ fun _ _ => ?_
  dsimp only
  (repeat' split) <;> simp only [↓settings_poqPromote, PageRes.st, settings_setPinned]

theorem execUnpin_keepsSettings (q : BitVec 20) (id : W16) : KeepsSettings s (execUnpin q id s) := by
  refine keepsSettings_operate fun _ _ _ _ _ _ => settings_onPage _ _ _ _ _ _ _ fun _ _ => ?_
  split <;> simp only [PageRes.st, settings_setPinned]

theorem execPromote_keepsSettings (q : BitVec 20) (id : W16) (hint : Frame) : KeepsSettings s (execPromote q id hint s) := by
  refine keepsSettings_operate fun _ _ _ _ _ _ => settings_onPage _ _ _ _ _ _ _ fun _ _ => ?_
  (repeat' split) <;> simp only [↓settings_poqPromote, PageRes.st]

theorem execDemote_keepsSettings (q : BitVec 20) (id : W16) (hint : Frame) : KeepsSettings s (execDemote q id hint s) := by
  refine keepsSettings_operate fun _ _ _ _ _ _ => settings_onPage _ _ _ _ _ _ _ fun _ _ => ?_
  dsimp only
  (repeat' split) <;> simp only [PageRes.st]
  next started => exact settings_startMigration started

theorem execHardenRange_keepsSettings (q : BitVec 20) (id : W16) : KeepsSettings s (execHardenRange q id s) := by
  simp only [execHardenRange]
  split
  · exact keepsSettings_next.mpr rfl
  next ld x _ =>
  generalize (decide (x.d.level ≠ 0) && !s.allFenced 2) = deep
  have begun : (if deep = true then s.takeDeep (.harden q id) ld else s).settings = s.settings := by split <;> simp only [settings_takeDeep]
  generalize (if deep = true then s.takeDeep (.harden q id) ld else s) = u at begun ⊢
  refine keepsSettings_if (keepsSettings_next.mpr ((settings_chunkBoundary ..).trans begun)) ?_
  generalize run : State.runPieces q ld x _ _ _ _ _ _ u = w
  have ran : w.settings = s.settings := by
    rw [← run, settings_runPieces _ _ _ _ fun _ _ _ _ => settings_onPage _ _ _ _ _ _ _ fun _ _ => ?_, begun]
    split
    · rfl
    split
    · rfl
    · rw [PageRes.st_ok, settings_hardenPage]
  (repeat' split) <;> simp only [keepsSettings_next, settings_wake, settings_slotQueuePassed, settings_mapShank, settings_endEpoch, settings_updExec,
    settings_endJobs, ran, implies_true]

theorem execCompressOut_keepsSettings (q : BitVec 20) (id : W16) (dmaOk : Bool) : KeepsSettings s (execCompressOut q id dmaOk s) := by
  dsimp only [execCompressOut]
  (repeat' split) <;> simp only [keepsSettings_next, settings_takeDeep, settings_chunkBoundary, settings_compressChunk, settings_wake,
    settings_compressAll, settings_deliverFrames]

theorem execDecompressIn_keepsSettings (q : BitVec 20) (id : W16) (buf : Option (List Byte)) (hint : Frame) :
    KeepsSettings s (execDecompressIn q id buf hint s) := by
  unfold execDecompressIn
  split
  · exact keepsSettings_next.mpr rfl
  split
  · exact keepsSettings_next.mpr (settings_bufferFault ..)
  refine keepsSettings_operate fun ld _ _ _ _ _ => settings_onPage _ _ _ _ _ _ _ fun t u => ?_
  split
  · rfl
  split
  · rfl
  next ls zero used _ =>
  have zeroed := settings_zeroPage u ld t 4096 used
  split
  · generalize u.zeroPage ld t 4096 used = r at *
    cases r <;> simpa only [PageRes.st, settings_pmCodec, settings_heatSample] using zeroed
  · have ready := settings_readyPage u ld t hint mPoq
    generalize u.readyPage ld t hint = r at *
    cases r <;> simp only [PageRes.st, settings_foldl', settings_poqWriteLine, settings_pmCodec, settings_heatSample, implies_true] <;> exact ready

theorem execHeatReport_keepsSettings (q : BitVec 20) (id : W16) (dmaOk : Bool) : KeepsSettings s (execHeatReport q id dmaOk s) := by
  dsimp only [execHeatReport]
  (repeat' split) <;> simp only [keepsSettings_next, settings_heatAll, settings_finishExec, settings_bufferFault, settings_emit]

theorem execFence_keepsSettings (q : BitVec 20) (id : W16) : KeepsSettings s (execFence q id s) := by
  unfold execFence
  (repeat' split) <;> simp only [keepsSettings_next, settings_finishExec]

theorem execPoqCompletion_keepsSettings (q : BitVec 20) (id : W16) (dmaOk : Bool) : KeepsSettings s (execPoqCompletion q id dmaOk s) := by
  dsimp only [execPoqCompletion]
  (repeat' split) <;> simp only [keepsSettings_next, settings_useCtx, settings_setCtx, settings_slots, settings_ringFault, settings_writeCompletion]

theorem execCoalesceTimer_keepsSettings (q : BitVec 20) : KeepsSettings s (execCoalesceTimer q s) := by
  unfold execCoalesceTimer
  (repeat' split) <;> simp only [keepsSettings_next, settings_queueInterrupt]

theorem execQueueDrained_keepsSettings (q : BitVec 20) : KeepsSettings s (execQueueDrained q s) := by
  unfold execQueueDrained
  (repeat' split) <;> simp only [keepsSettings_next, settings_freeCtx, settings_reply]

theorem execCreateQueue_keepsSettings (m : Msg) (sqBase cqBase : W64) (pasid : W32) (log2 : Byte) (vector coalCount coalTime : W16)
    (index : BitVec 20) :
    KeepsSettings s (execCreateQueue m sqBase cqBase pasid log2 vector coalCount coalTime index s) := by
  refine keepsSettings_slafin ?_
  dsimp only
  (repeat' split) <;> simp only [Result.st, settings_useCtx, settings_setCtx, settings_updPoqLd]

theorem execDestroyQueue_keepsSettings (m : Msg) (q : W32) : KeepsSettings s (execDestroyQueue m q s) := by
  refine keepsSettings_slafin ?_
  (repeat' split) <;> simp only [Result.st, settings_useCtx, settings_setCtx]

theorem execSetCoalesce_keepsSettings (m : Msg) (q : W32) (vector coalCount coalTime : W16) :
    KeepsSettings s (execSetCoalesce m q vector coalCount coalTime s) := by
  refine keepsSettings_slafin ?_
  (repeat' split) <;> simp only [Result.st, settings_useCtx, settings_setCtx, settings_queueInterrupt, settings_ite, ite_self]

theorem execBindDoorbell_keepsSettings (m : Msg) (page mode : Byte) (pasid : W32) : KeepsSettings s (execBindDoorbell m page mode pasid s) := by
  refine keepsSettings_slafin ?_
  (repeat' split) <;> simp only [Result.st, settings_updPoqLd]

theorem execSetPoqShare_keepsSettings (m : Msg) (ld weight : Byte) (quota : W32) : KeepsSettings s (execSetPoqShare m ld weight quota s) := by
  refine keepsSettings_slafin ?_
  dsimp only
  (repeat' split) <;> simp only [Result.st, settings_updPoqLd, settings_slots]

/-! ### Eyelets and locks -/

theorem execEyeletNotice_keepsSettings (ld : Fin 32) (ch : Fin 16) (value : W64) (pasid : Option (BitVec 20)) :
    KeepsSettings s (execEyeletNotice ld ch value pasid s) := by
  unfold execEyeletNotice
  split <;> simp only [keepsSettings_next, settings_postEyelet]

theorem execEyeletDequeue_keepsSettings (ld : Fin 32) (ch : Fin 16) : KeepsSettings s (execEyeletDequeue ld ch s) := by
  dsimp only [execEyeletDequeue]
  (repeat' split) <;> simp only [keepsSettings_next, settings_updEye, settings_raiseVector]

theorem execCommandBlockRead_keepsSettings (ld : Fin 32) (ch : Fin 16) (b : Option CmdBlock) : KeepsSettings s (execCommandBlockRead ld ch b s) := by
  dsimp only [execCommandBlockRead]
  (repeat' split) <;> simp only [keepsSettings_next, settings_updEye, settings_raise, settings_countEye, settings_eyeletDone]

theorem execEyeletConfigWrite_keepsSettings (ld : Fin 32) (ch : Fin 16) (value : W64) : KeepsSettings s (execEyeletConfigWrite ld ch value s) := by
  unfold execEyeletConfigWrite
  split <;> simp only [keepsSettings_next, settings_writeEyeConfig]

theorem execEventRingEnable_keepsSettings (ld : Fin 32) (value : W64) : KeepsSettings s (execEventRingEnable ld value s) := by
  unfold execEventRingEnable
  split <;> simp only [keepsSettings_next, settings_writeEventRing]

theorem execLockRegisterRead_keepsSettings (lock : Fin 8) (readers : List Party) : KeepsSettings s (execLockRegisterRead lock readers s) := by
  rw [execLockRegisterRead, keepsSettings_next, settings_foldl, settings_readLock]
  intro t r
  split <;> simp only [settings_emit]

theorem execLockReleaseWrite_keepsSettings (lock : Fin 8) (p : Party) (value : W64) : KeepsSettings s (execLockReleaseWrite lock p value s) := by
  unfold execLockReleaseWrite
  split <;> simp only [keepsSettings_next, settings_releaseLock]

theorem execLockLeaseExpiry_keepsSettings (lock : Fin 8) : KeepsSettings s (execLockLeaseExpiry lock s) :=
  keepsSettings_next.mpr (settings_freeLock ..)

theorem execLockCommand_keepsSettings (m : Msg) (lock op : Byte) : KeepsSettings s (execLockCommand m lock op s) := by
  refine keepsSettings_slafin ?_
  (repeat' split) <;> simp only [Result.st, settings_readLock, settings_releaseLock]

theorem execGetSlafinInfo_keepsSettings (m : Msg) : KeepsSettings s (execGetSlafinInfo m s) := keepsSettings_slafin rfl

theorem execSetSlafinVersion_keepsSettings (m : Msg) (version : W16) : KeepsSettings s (execSetSlafinVersion m version s) := by
  refine keepsSettings_slafin ?_
  (repeat' split) <;> simp only [Result.st, settings_updCmdLd, settings_mapCmd]

theorem execSetOwnerKey_keepsSettings (m : Msg) (hash : BitVec 384) : KeepsSettings s (execSetOwnerKey m hash s) :=
  keepsSettings_slafin (by simp only [Result.st, settings_mapCmd])

theorem execSlafinUndefinedOpcode_keepsSettings (m : Msg) (opcode : W16) : KeepsSettings s (execSlafinUndefinedOpcode m opcode s) := by
  dsimp only [execSlafinUndefinedOpcode]
  (repeat' split) <;> simp only [keepsSettings_next, settings_reply]

theorem execUnsupportedCommand_keepsSettings (m : Msg) (opcode : W16) : KeepsSettings s (execUnsupportedCommand m opcode s) := by
  dsimp only [execUnsupportedCommand]
  (repeat' split) <;> simp only [keepsSettings_next, settings_respStd]

/-! ### Registers -/

theorem execReadRegisters_keepsSettings (m : Msg) (capId ld : Byte) (offset : W16) (length : W32) :
    KeepsSettings s (execReadRegisters m capId ld offset length s) := by
  dsimp only [execReadRegisters]
  exact keepsSettings_slafin (by (repeat' split) <;> rfl)

theorem writeLdReg_keepsSettings (ld : Fin 32) (off : Nat) (v : W64) : KeepsSettings s (s.writeLdReg ld off v) := by
  dsimp only [State.writeLdReg]
  (repeat' split) <;> simp only [keepsSettings_next, settings_writeEventRing, settings_updCmdLd, settings_postEyelet, settings_updEye,
    settings_writeEyeConfig, execDoorbell_keepsSettings]

theorem writeReg_keepsSettings (fn off : Nat) (v : W64) : KeepsSettings s (s.writeReg fn off v) := by
  dsimp only [State.writeReg]
  (repeat' split) <;> simp only [keepsSettings_next, settings_writeControlPage, settings_writeUnit, settings_writeMsix, settings_releaseLock,
    settings_writeExport, settings_mapFault, writeLdReg_keepsSettings]

theorem execRegisterWrite_keepsSettings (fn : Fin 36) (offset : BitVec 25) (value : W64) (four : Bool) :
    KeepsSettings s (execRegisterWrite fn offset value four s) :=
  keepsSettings_if (keepsSettings_next.mpr rfl) (keepsSettings_if (execMmioBadAccess_keepsSettings _ _ _) (writeReg_keepsSettings _ _ _))

/-! ### Keys -/

theorem execProgramKey_keepsSettings (m : Msg) (keyId : W16) (flags : Byte) (ldMask : W32) (ckid : W16) (ld : Byte) (key : Key) :
    KeepsSettings s (execProgramKey m keyId flags ldMask ckid ld key s) := by
  refine keepsSettings_slafin ?_
  dsimp only
  (repeat' split) <;> simp only [Result.st, settings_drawKey, settings_loadSlot, settings_setCkid]

theorem execSlotDestructionComplete_keepsSettings (keyId : BitVec 12) : KeepsSettings s (execSlotDestructionComplete keyId s) := by
  dsimp only [execSlotDestructionComplete]
  (repeat' split) <;> simp only [keepsSettings_next, settings_zeroizeSlot, settings_updSlot, settings_wake, settings_answerDestroyed]

theorem execDestroyKey_keepsSettings (m : Msg) (keyId : W16) : KeepsSettings s (execDestroyKey m keyId s) := by
  refine keepsSettings_slafin ?_
  dsimp only
  (repeat' split) <;> simp only [Result.st, settings_startDestroy, settings_updSlot]

theorem execQueryKey_keepsSettings (m : Msg) (keyId : W16) : KeepsSettings s (execQueryKey m keyId s) := by
  refine keepsSettings_slafin ?_
  dsimp only
  (repeat' split) <;> simp only [Result.st]

theorem execSetDefaultKey_keepsSettings (m : Msg) (ld : Byte) (keyId : W16) : KeepsSettings s (execSetDefaultKey m ld keyId s) := by
  refine keepsSettings_slafin ?_
  dsimp only
  (repeat' split) <;> simp only [Result.st, settings_setDefKey]

theorem execGrantShare_keepsSettings (m : Msg) (keyId : W16) (ldMask : W32) : KeepsSettings s (execGrantShare m keyId ldMask s) := by
  refine keepsSettings_slafin ?_
  dsimp only
  (repeat' split) <;> simp only [Result.st, settings_updSlot]

theorem execGetTargetTspVersion_keepsSettings (ld : Fin 32) (session : Fin 8) : KeepsSettings s (execGetTargetTspVersion ld session s) :=
  keepsSettings_tspRun (settings_emit ..)

theorem execGetTargetCapabilities_keepsSettings (ld : Fin 32) (session : Fin 8) : KeepsSettings s (execGetTargetCapabilities ld session s) :=
  keepsSettings_tspRun (settings_emit ..)

theorem execSetTargetConfiguration_keepsSettings (ld : Fin 32) (session : Fin 8) (ckidEnable : Bool) :
    KeepsSettings s (execSetTargetConfiguration ld session ckidEnable s) :=
  keepsSettings_tspRun (by simp only [settings_emit, settings_updTspOf, settings_ite, ite_self])

theorem execGetTargetConfiguration_keepsSettings (ld : Fin 32) (session : Fin 8) : KeepsSettings s (execGetTargetConfiguration ld session s) :=
  keepsSettings_tspRun (settings_emit ..)

theorem execGetTargetConfigurationReport_keepsSettings (ld : Fin 32) (session : Fin 8) :
    KeepsSettings s (execGetTargetConfigurationReport ld session s) :=
  keepsSettings_tspRun (settings_emit ..)

theorem execLockTargetConfiguration_keepsSettings (ld : Fin 32) (session : Fin 8) : KeepsSettings s (execLockTargetConfiguration ld session s) :=
  keepsSettings_tspRun (by simp only [settings_updTspOf, settings_emit])

theorem execSetTargetCkidSpecificKey_keepsSettings (ld : Fin 32) (session : Fin 8) (ckid : BitVec 13) (slot : BitVec 12) (key : Key) :
    KeepsSettings s (execSetTargetCkidSpecificKey ld session ckid slot key s) :=
  keepsSettings_tspRun (settings_tspProgram ..)

theorem execSetTargetCkidRandomKey_keepsSettings (ld : Fin 32) (session : Fin 8) (ckid : BitVec 13) (slot : BitVec 12) :
    KeepsSettings s (execSetTargetCkidRandomKey ld session ckid slot s) :=
  keepsSettings_tspRun (by simp only [settings_drawKey, settings_tspProgram])

theorem execClearTargetCkidKey_keepsSettings (ld : Fin 32) (session : Fin 8) (ckid : BitVec 13) :
    KeepsSettings s (execClearTargetCkidKey ld session ckid s) := by
  refine keepsSettings_tspRun ?_
  dsimp only
  (repeat' split) <;> simp only [settings_emit, settings_setCkid, settings_startDestroy, settings_updSlot]

theorem execTspUnsupportedRequest_keepsSettings (ld : Fin 32) (session : Fin 8) (_opcode : Byte) :
    KeepsSettings s (execTspUnsupportedRequest ld session _opcode s) :=
  keepsSettings_tspRun (settings_emit ..)

theorem execIdeKmMessage_keepsSettings (p : Fin 2) (session : Fin 8) (stream : Fin 6) (set : Bool) (km : IdeKm) :
    KeepsSettings s (execIdeKmMessage p session stream set km s) := by
  unfold execIdeKmMessage
  (repeat' split) <;> simp only [keepsSettings_next, settings_setIdeStream, settings_emit]

/-! ### Standard commands -/

theorem execIdentifyMemoryDevice_keepsSettings (m : Msg) : KeepsSettings s (execIdentifyMemoryDevice m s) := keepsSettings_std rfl

theorem execGetHealthInfo_keepsSettings (m : Msg) : KeepsSettings s (execGetHealthInfo m s) := keepsSettings_std rfl

theorem execGetAlertConfiguration_keepsSettings (m : Msg) : KeepsSettings s (execGetAlertConfiguration m s) := keepsSettings_std rfl

theorem execSetAlertConfiguration_keepsSettings (m : Msg) (cfg : BitVec 96) : KeepsSettings s (execSetAlertConfiguration m cfg s) :=
  keepsSettings_std (by simp only [StdResult.st, settings_updCmdLd])

theorem execGetShutdownState_keepsSettings (m : Msg) : KeepsSettings s (execGetShutdownState m s) := keepsSettings_std rfl

theorem execSetShutdownState_keepsSettings (m : Msg) (st : Byte) : KeepsSettings s (execSetShutdownState m st s) :=
  keepsSettings_std (by simp only [StdResult.st, settings_mapShank, settings_refreshSupers, implies_true])

theorem execGetTimestamp_keepsSettings (m : Msg) : KeepsSettings s (execGetTimestamp m s) := keepsSettings_std rfl

theorem execSetTimestamp_keepsSettings (m : Msg) (t : W64) : KeepsSettings s (execSetTimestamp m t s) :=
  keepsSettings_std (by simp only [StdResult.st, settings_updCmdLd])

theorem execGetEventRecords_keepsSettings (m : Msg) (log : Byte) : KeepsSettings s (execGetEventRecords m log s) :=
  keepsSettings_std (by split <;> rfl)

theorem execClearEventRecords_keepsSettings (m : Msg) (log : Byte) (all : Bool) (handles : List W16) :
    KeepsSettings s (execClearEventRecords m log all handles s) := by
  refine keepsSettings_std ?_
  dsimp only
  (repeat' split) <;> simp only [StdResult.st, settings_setLog]

theorem execGetEventInterruptPolicy_keepsSettings (m : Msg) : KeepsSettings s (execGetEventInterruptPolicy m s) := keepsSettings_std rfl

theorem execSetEventInterruptPolicy_keepsSettings (m : Msg) (p : W32) : KeepsSettings s (execSetEventInterruptPolicy m p s) :=
  keepsSettings_std (by simp only [StdResult.st, settings_updCmdLd])

theorem execGetSupportedLogs_keepsSettings (m : Msg) : KeepsSettings s (execGetSupportedLogs m s) := keepsSettings_std rfl

theorem execGetLog_keepsSettings (m : Msg) (cel : Bool) (offset length : W32) : KeepsSettings s (execGetLog m cel offset length s) :=
  keepsSettings_std (by (repeat' split) <;> rfl)

theorem execGetPartitionInfo_keepsSettings (m : Msg) : KeepsSettings s (execGetPartitionInfo m s) := keepsSettings_std rfl

theorem execSetPartitionInfo_keepsSettings (m : Msg) (volatile : W64) : KeepsSettings s (execSetPartitionInfo m volatile s) := by
  refine keepsSettings_std ?_
  dsimp only
  (repeat' split) <;> simp only [StdResult.st, settings_foldl', settings_clearPage, settings_setMap, settings_mapShank, implies_true]

theorem execGetDynamicCapacityConfiguration_keepsSettings (m : Msg) : KeepsSettings s (execGetDynamicCapacityConfiguration m s) :=
  keepsSettings_dcRun (fun _ => rfl)

theorem execGetDynamicCapacityExtentList_keepsSettings (m : Msg) (start count : W32) :
    KeepsSettings s (execGetDynamicCapacityExtentList m start count s) :=
  keepsSettings_dcRun (fun _ => by split <;> rfl)

theorem execAddDynamicCapacityResponse_keepsSettings (m : Msg) (tag : BitVec 128) (accept : Bool) :
    KeepsSettings s (execAddDynamicCapacityResponse m tag accept s) := by
  refine keepsSettings_dcRun (fun _ => ?_)
  dsimp only
  (repeat' split) <;> simp only [StdResult.st, settings_mapCmd, settings_addEntry]

theorem execReleaseDynamicCapacity_keepsSettings (m : Msg) (dpa length : W64) (more : Bool) :
    KeepsSettings s (execReleaseDynamicCapacity m dpa length s more) := by
  refine keepsSettings_dcRun (fun _ => ?_)
  dsimp only
  (repeat' split) <;> simp only [StdResult.st, settings_declineRest, settings_removeEntries]

theorem execGetPoisonList_keepsSettings (m : Msg) (dpa length : W64) : KeepsSettings s (execGetPoisonList m dpa length s) :=
  keepsSettings_std (by split <;> rfl)

theorem settings_startLine (m : Msg) (op : Nat) (dpa : W64) (data : Option Line) : (s.startLine m op dpa data).st.settings = s.settings := by
  unfold State.startLine
  (repeat' split) <;> simp only [StdResult.st, settings_settleLines, settings_mapCmd]

theorem execInjectPoison_keepsSettings (m : Msg) (dpa : W64) : KeepsSettings s (execInjectPoison m dpa s) := keepsSettings_std (settings_startLine ..)

theorem execClearPoison_keepsSettings (m : Msg) (dpa : W64) (data : Line) : KeepsSettings s (execClearPoison m dpa data s) :=
  keepsSettings_std (settings_startLine ..)

theorem settings_erase (m : Msg) (op : W16) : (s.erase m op).st.settings = s.settings := by
  dsimp only [State.erase]
  (repeat' split) <;> simp only [StdResult.st, settings_wake, settings_updCmdLd, settings_sanitizeLd, settings_sanitizeAll]

theorem execSanitize_keepsSettings (m : Msg) : KeepsSettings s (execSanitize m s) := keepsSettings_std (settings_erase ..)

theorem execSecureErase_keepsSettings (m : Msg) : KeepsSettings s (execSecureErase m s) := keepsSettings_std (settings_erase ..)

theorem execBackgroundOperationStatus_keepsSettings (m : Msg) : KeepsSettings s (execBackgroundOperationStatus m s) :=
  keepsSettings_std (by split <;> rfl)

theorem execBackgroundOperationDone_keepsSettings (fn : Fin 36) : KeepsSettings s (execBackgroundOperationDone fn s) := by
  unfold execBackgroundOperationDone
  split <;> simp only [keepsSettings_next, settings_updCmdLd, settings_emit]

/-! ### The fabric manager -/

theorem execGetLdInfo_keepsSettings (m : Msg) : KeepsSettings s (execGetLdInfo m s) := keepsSettings_std rfl

theorem execGetLdAllocations_keepsSettings (m : Msg) (start limit : Byte) : KeepsSettings s (execGetLdAllocations m start limit s) :=
  keepsSettings_std (by split <;> rfl)

/-- For any entries that follow: settings_removeEntries speaks of a removal that nothing follows. -/
theorem settings_removeEntries_following (m : Msg) (op : Nat) (es follow : List (Fin 32 × MapEntry)) :
    (s.removeEntries m op es follow).settings = s.settings := by
  simp only [State.removeEntries, settings_settleRemovals, settings_mapCmd, settings_mapShank, settings_mapTier, settings_foldl',
    settings_setMap, implies_true]

theorem execSetLdAllocations_keepsSettings (m : Msg) (start : Byte) (allocs : List (Nat × Option (List Extent))) :
    KeepsSettings s (execSetLdAllocations m start allocs s) := by
  refine keepsSettings_std ?_
  dsimp only
  (repeat' split) <;> simp only [StdResult.st, settings_removeEntries_following, settings_allocate, settings_setMaps]

theorem execGetQosControl_keepsSettings (m : Msg) (ld : Byte) : KeepsSettings s (execGetQosControl m ld s) := keepsSettings_std (by split <;> rfl)

theorem execSetQosControl_keepsSettings (m : Msg) (ld ctl : Byte) : KeepsSettings s (execSetQosControl m ld ctl s) := by
  refine keepsSettings_std ?_
  (repeat' split) <;> simp only [StdResult.st, settings_mapReg, implies_true]

theorem execGetQosStatus_keepsSettings (m : Msg) (ld : Byte) : KeepsSettings s (execGetQosStatus m ld s) := by
  refine keepsSettings_std ?_
  dsimp only
  (repeat' split) <;> simp only [StdResult.st, settings_draw]

theorem keepsSettings_qosGet {op : Nat} {m : Msg} {start number : Byte} {f : Master → Nat} : KeepsSettings s (s.qosGet op m start number f) :=
  keepsSettings_std (by split <;> rfl)

theorem execGetQosAllocatedBw_keepsSettings (m : Msg) (start number : Byte) : KeepsSettings s (execGetQosAllocatedBw m start number s) :=
  keepsSettings_qosGet

theorem execGetQosBwLimit_keepsSettings (m : Msg) (start number : Byte) : KeepsSettings s (execGetQosBwLimit m start number s) :=
  keepsSettings_qosGet

theorem keepsSettings_qosSet {op : Nat} {m : Msg} {start : Byte} {fractions : List W16} {f : Nat → Master → Master} :
    KeepsSettings s (s.qosSet op m start fractions f) := by
  refine keepsSettings_std ?_
  dsimp only
  (repeat' split) <;> simp only [StdResult.st, settings_rejectAdmission, settings_setPending]

theorem execSetQosAllocatedBw_keepsSettings (m : Msg) (start : Byte) (fractions : List W16) :
    KeepsSettings s (execSetQosAllocatedBw m start fractions s) :=
  keepsSettings_qosSet

theorem execSetQosBwLimit_keepsSettings (m : Msg) (start : Byte) (fractions : List W16) : KeepsSettings s (execSetQosBwLimit m start fractions s) :=
  keepsSettings_qosSet

theorem execGetMultiHeadedInfo_keepsSettings (m : Msg) : KeepsSettings s (execGetMultiHeadedInfo m s) := keepsSettings_std rfl

theorem execGetHeadInfo_keepsSettings (m : Msg) (start number : Byte) : KeepsSettings s (execGetHeadInfo m start number s) :=
  keepsSettings_std (by split <;> rfl)

theorem execGetDcdInfo_keepsSettings (m : Msg) : KeepsSettings s (execGetDcdInfo m s) := keepsSettings_std rfl

theorem execGetHostDcRegionConfiguration_keepsSettings (m : Msg) (ld start number : Byte) :
    KeepsSettings s (execGetHostDcRegionConfiguration m ld start number s) :=
  keepsSettings_std (by split <;> rfl)

theorem execSetDcRegionConfiguration_keepsSettings (m : Msg) (region : Byte) (blockSize : W64) (sanitizeOnRelease : Bool) :
    KeepsSettings s (execSetDcRegionConfiguration m region blockSize sanitizeOnRelease s) := by
  refine keepsSettings_std ?_
  dsimp only
  (repeat' split) <;> simp only [StdResult.st, settings_updRegion]

theorem execGetDcRegionExtentLists_keepsSettings (m : Msg) (ld : Byte) (start count : W32) :
    KeepsSettings s (execGetDcRegionExtentLists m ld start count s) :=
  keepsSettings_std (by split <;> rfl)

theorem execInitiateDynamicCapacityAdd_keepsSettings (m : Msg) (ld : Byte) (e : Extent) :
    KeepsSettings s (execInitiateDynamicCapacityAdd m ld e s) := by
  refine keepsSettings_std ?_
  dsimp only
  (repeat' split) <;> simp only [StdResult.st, settings_mapCmd, settings_emit]

theorem execInitiateDynamicCapacityRelease_keepsSettings (m : Msg) (ld : Byte) (tag : BitVec 128) :
    KeepsSettings s (execInitiateDynamicCapacityRelease m ld tag s) := by
  refine keepsSettings_std ?_
  dsimp only
  (repeat' split) <;> simp only [StdResult.st, settings_mapCmd, settings_removeEntries]

theorem execSetRangeAttr_keepsSettings (m : Msg) (ld poisonUnwritten : Byte) (devDpn pages : W32) :
    KeepsSettings s (execSetRangeAttr m ld poisonUnwritten devDpn pages s) := by
  refine keepsSettings_slafin ?_
  dsimp only
  (repeat' split) <;> simp only [Result.st, settings_setMap, settings_mapShank, implies_true]

theorem execSetPageOwner_keepsSettings (m : Msg) (devDpn pages : W32) (owner : W16) : KeepsSettings s (execSetPageOwner m devDpn pages owner s) := by
  refine keepsSettings_slafin ?_
  dsimp only
  (repeat' split) <;> simp only [Result.st, settings_foldl', settings_setOwner, settings_wake, implies_true]

theorem execSetHostCapacity_keepsSettings (m : Msg) (pages : W32) : KeepsSettings s (execSetHostCapacity m pages s) := by
  refine keepsSettings_slafin ?_
  dsimp only
  (repeat' split) <;> simp only [Result.st, settings_reconfigure, settings_wake]

theorem execGetMarginReport_keepsSettings (m : Msg) : KeepsSettings s (execGetMarginReport m s) := keepsSettings_slafin rfl

/-! ### The worlds -/

theorem execGetFwInfo_keepsSettings (m : Msg) : KeepsSettings s (execGetFwInfo m s) := keepsSettings_std rfl

theorem execTransferFw_keepsSettings (m : Msg) (slot : Byte) (p : FwPackage) : KeepsSettings s (execTransferFw m slot p s) := by
  refine keepsSettings_fwRun ?_
  dsimp only
  (repeat' split) <;> simp only [StdResult.st, settings_mapWorld]

theorem execActivateFw_keepsSettings (m : Msg) (online : Bool) (slot : Byte) : KeepsSettings s (execActivateFw m online slot s) := by
  refine keepsSettings_fwRun ?_
  dsimp only
  (repeat' split) <;> simp only [StdResult.st, settings_mapWorld, settings_secureRestart, settings_supplyHeartbeat, settings_l2NormalOut]

theorem execSecureWorldReady_keepsSettings (activeOk otherOk inTime : Bool) : KeepsSettings s (execSecureWorldReady activeOk otherOk inTime s) := by
  unfold execSecureWorldReady
  (repeat' split) <;> simp only [keepsSettings_next, settings_secureBringup, settings_wake, settings_secureRestarted]

theorem execNormalWorldReady_keepsSettings : KeepsSettings s (execNormalWorldReady s) := by
  dsimp only [execNormalWorldReady]
  (repeat' split) <;> simp only [keepsSettings_next, settings_mapWorld, settings_mapFault, settings_mapPower, settings_endNormalCommands,
    settings_activated, settings_wake]

theorem execSecureWatchdogExpiry_keepsSettings : KeepsSettings s (execSecureWatchdogExpiry s) := by
  unfold execSecureWatchdogExpiry
  split <;> simp only [keepsSettings_next, settings_secureRestart]

theorem execNormalWatchdogExpiry_keepsSettings : KeepsSettings s (execNormalWatchdogExpiry s) := by
  unfold execNormalWatchdogExpiry
  split <;> simp only [keepsSettings_next, settings_normalRestart]

theorem execCoreException_keepsSettings (core : Fin 8) : KeepsSettings s (execCoreException core s) := by
  unfold execCoreException
  (repeat' split) <;> simp only [keepsSettings_next, settings_secureRestart, settings_normalRestart]

theorem execSvnRaise_keepsSettings (w : World) : KeepsSettings s (execSvnRaise w s) := by
  dsimp only [execSvnRaise]
  (repeat' split) <;> simp only [keepsSettings_next, settings_mapWorld]

theorem execOwnerTableChange_keepsSettings (page : BitVec 21) (o : PageOwner) : KeepsSettings s (execOwnerTableChange page o s) := by
  dsimp only [execOwnerTableChange]
  (repeat' split) <;> simp only [keepsSettings_next, settings_l2Page, settings_setPageOwner]

theorem execGateRequest_keepsSettings (core : Fin 8) (b : HubBlock) (gated : Bool) : KeepsSettings s (execGateRequest core b gated s) := by
  unfold execGateRequest
  (repeat' split) <;> simp only [keepsSettings_next, settings_setGate, settings_fire, settings_securityRecord]

theorem execOwnerViolation_keepsSettings (r : Requester) (page : BitVec 21) (write : Bool) (line : Fin 64) :
    KeepsSettings s (execOwnerViolation r page write s line) := by
  unfold execOwnerViolation
  (repeat' split) <;> simp only [keepsSettings_next, settings_l2Access, settings_fire, settings_securityRecord]

theorem execGetVersion_keepsSettings (m : Msg) : KeepsSettings s (execGetVersion m s) :=
  keepsSettings_spdmRun (by simp only [settings_mapWorld, settings_emit])

theorem execGetCapabilities_keepsSettings (m : Msg) : KeepsSettings s (execGetCapabilities m s) := keepsSettings_spdmRun (settings_emit ..)

theorem execNegotiateAlgorithms_keepsSettings (m : Msg) (algsOk : Bool) : KeepsSettings s (execNegotiateAlgorithms m algsOk s) :=
  keepsSettings_spdmRun (by simp only [settings_mapWorld, settings_emit, settings_ite, ite_self])

theorem execGetDigests_keepsSettings (m : Msg) : KeepsSettings s (execGetDigests m s) := keepsSettings_spdmReady (settings_emit ..)

theorem execGetCertificate_keepsSettings (m : Msg) (slot : Byte) : KeepsSettings s (execGetCertificate m slot s) :=
  keepsSettings_spdmReady (settings_emit ..)

theorem execChallenge_keepsSettings (m : Msg) (slot : Byte) (nonce : BitVec 256) : KeepsSettings s (execChallenge m slot nonce s) :=
  keepsSettings_spdmReady (settings_emit ..)

theorem execGetMeasurements_keepsSettings (m : Msg) (index : Byte) (signed : Bool) : KeepsSettings s (execGetMeasurements m index signed s) :=
  keepsSettings_spdmReady (by simp only [settings_emit, settings_ite, ite_self])

theorem execKeyExchange_keepsSettings (m : Msg) (keyHash : BitVec 384) : KeepsSettings s (execKeyExchange m keyHash s) := by
  refine keepsSettings_spdmReady ?_
  (repeat' split) <;> simp only [settings_emit, settings_setSessionOf]

theorem execFinish_keepsSettings (m : Msg) (sid : Fin 8) (authenticated : Bool) : KeepsSettings s (execFinish m sid authenticated s) := by
  refine keepsSettings_spdmReady ?_
  (repeat' split) <;> simp only [settings_emit, settings_setSessionOf]

theorem execKeyUpdate_keepsSettings (m : Msg) (sid : Fin 8) : KeepsSettings s (execKeyUpdate m sid s) :=
  keepsSettings_spdmIn (fun _ => by simp only [settings_setSessionOf, settings_emit])

theorem execHeartbeat_keepsSettings (m : Msg) (sid : Fin 8) : KeepsSettings s (execHeartbeat m sid s) :=
  keepsSettings_spdmIn (fun _ => settings_emit ..)

theorem execEndSession_keepsSettings (m : Msg) (sid : Fin 8) : KeepsSettings s (execEndSession m sid s) :=
  keepsSettings_spdmIn (fun _ => by simp only [settings_setSessionOf, settings_emit])

theorem execMctpControlMessage_keepsSettings (setEid : Option Byte) (reset : Bool) : KeepsSettings s (execMctpControlMessage setEid reset s) := by
  unfold execMctpControlMessage
  split <;> simp only [keepsSettings_next, settings_mapCmd, settings_foldl', settings_freeLock, settings_emit, implies_true, settings_ite, ite_self]

theorem execDoeDiscovery_keepsSettings (ld : Fin 32) (index : Byte) : KeepsSettings s (execDoeDiscovery ld index s) := by
  unfold execDoeDiscovery
  (repeat' split) <;> simp only [keepsSettings_next, settings_emit]

theorem execCdatTableAccess_keepsSettings (ld : Fin 32) (entry : W16) : KeepsSettings s (execCdatTableAccess ld entry s) := by
  unfold execCdatTableAccess
  split <;> simp only [keepsSettings_next, settings_emit]

/-! ### Power, clocks and reset -/

theorem execWarmReset_keepsSettings : KeepsSettings s (execWarmReset s) := by
  unfold execWarmReset
  split <;> simp only [keepsSettings_next, settings_emit, settings_warmLoss, settings_mapPower, settings_ite, ite_self]

theorem execResetNRelease_keepsSettings (b : BringUp) : KeepsSettings s (execResetNRelease b s) := by
  unfold execResetNRelease
  (repeat' split) <;> simp only [keepsSettings_fault, keepsSettings_next, settings_bringUp, settings_mapPower]

theorem execAvsPoll_keepsSettings (ack : Bool) (mv icore : W16) : KeepsSettings s (execAvsPoll ack mv icore s) := by
  dsimp only [execAvsPoll]
  (repeat' split) <;> simp only [keepsSettings_next, settings_mapPower, settings_fire]

theorem execThermalSensorRead_keepsSettings (tj : Int) : KeepsSettings s (execThermalSensorRead tj s) := by
  dsimp only [execThermalSensorRead]
  (repeat' split) <;> simp only [keepsSettings_next, settings_mapPower, settings_fire]

theorem execXtalLoss_keepsSettings : KeepsSettings s (execXtalLoss s) := by
  unfold execXtalLoss
  split <;> simp only [keepsSettings_next, settings_fire, settings_mapPower]

theorem execPllUnlock_keepsSettings : KeepsSettings s (execPllUnlock s) := by
  unfold execPllUnlock
  split <;> simp only [keepsSettings_next, settings_fire]

theorem execChannelPllUnlock_keepsSettings (pair : Fin 6) : KeepsSettings s (execChannelPllUnlock pair s) := by
  unfold execChannelPllUnlock
  split <;> simp only [keepsSettings_next, settings_raise, settings_foldl', settings_unitOut, settings_wake, implies_true]

theorem execThermAlert_keepsSettings : KeepsSettings s (execThermAlert s) := by
  unfold execThermAlert
  split <;> simp only [keepsSettings_next, settings_fire]

/-! ### The test port -/

theorem execExtest_keepsSettings (boundary : BitVec 64) : KeepsSettings s (execExtest boundary s) := by
  simp only [execExtest, keepsSettings_next, settings_boundaryTap, settings_mapWorld, settings_emit, implies_true]

theorem execIdcode_keepsSettings : KeepsSettings s (execIdcode s) := keepsSettings_next.mpr (settings_selectTap ..)

theorem execSamplePreload_keepsSettings (boundary : BitVec 64) : KeepsSettings s (execSamplePreload boundary s) := by
  simp only [execSamplePreload, keepsSettings_next, settings_draw, settings_mapWorld, settings_selectTap]

theorem execClamp_keepsSettings : KeepsSettings s (execClamp s) := by
  simp only [execClamp, keepsSettings_next, settings_boundaryTap, settings_emit, implies_true]

theorem execHighz_keepsSettings : KeepsSettings s (execHighz s) := by
  simp only [execHighz, keepsSettings_next, settings_boundaryTap, settings_emit, implies_true]

theorem execBypass_keepsSettings (code : Byte) : KeepsSettings s (execBypass code s) := by
  unfold execBypass
  split <;> simp only [keepsSettings_fault, keepsSettings_next, settings_selectTap]

end

end Sys2Proof.Machine
end

section
/-! The commands that set a policy or a quota, and those that lose the settings: what they may do to the settings (03 R61; 05 R110; 06 R161; 09 R248;
10 R271; 11 R287; 18 R426). -/

namespace Sys2Proof.Machine

/-- What a command may do to the settings: the part and the queue stay, and limits that are kept stay kept. -/
structure Settings.LegalChange (x y : Settings) : Prop where
  part : y.ev8820 = x.ev8820
  queue : y.pending = x.pending
  limits : x.ok → y.ok

theorem Settings.LegalChange.refl (x : Settings) : x.LegalChange x := ⟨rfl, rfl, id⟩

theorem Settings.LegalChange.trans {x y z : Settings} (h : x.LegalChange y) (h' : y.LegalChange z) : x.LegalChange z :=
  ⟨h'.part.trans h.part, h'.queue.trans h.queue, h'.limits ∘ h.limits⟩

theorem Settings.LegalChange.ite {x : Settings} {c : Prop} [Decidable c] {a b : State} (ha : x.LegalChange a.settings) (hb : x.LegalChange b.settings) :
    x.LegalChange (if c then a else b).settings := by
  split <;> assumption

/-- The outcome answers no next state with an unlawful change of the settings. -/
def ChangesLegally (s : State) (o : Out) : Prop := Leaves (fun t => s.settings.LegalChange t.settings) o

section
variable {s : State}

theorem KeepsSettings.changesLegally {o : Out} (h : KeepsSettings s o) : ChangesLegally s o := fun t ht => h t ht ▸ .refl _

theorem changesLegally_slafin {g : Gate} {m : Msg} {act : State → Result} (h : s.settings.LegalChange (act s).st.settings) :
    ChangesLegally s (s.slafin g m act) :=
  leaves_slafin (.refl _) (fun u _ _ hu => by rwa [settings_reply]) h

/-! The limits that the fields of a policy register are checked for. -/

theorem fld_lt {n : Nat} (w : BitVec n) (lo len : Nat) : fld w lo len < 2 ^ len := BitVec.isLt _

theorem tierPolicyOf_limits {w : W64} {p : TierPolicy} (h : tierPolicyOf w = some p) :
    1 ≤ p.decayMs ∧ p.decayMs ≤ 60000 ∧ 1 ≤ p.demoteMinGain ∧ p.demoteMinGain ≤ 63 := by
  obtain ⟨⟨low, high, gain⟩, ⟨⟩⟩ := Option.ite_none_right_eq_some.mp h
  exact ⟨low, high, gain, Nat.le_of_lt_succ (fld_lt w 40 6)⟩

theorem perMille_lt {pool a b : Nat} (h : perMille pool a < perMille pool b) : a < b :=
  Nat.lt_of_not_le fun le => Nat.not_le.mpr h (by unfold perMille; gcongr)

theorem tierWatermarkOf_limits {pool : Nat} {w : W64} {p : TierWatermark} (h : tierWatermarkOf pool w = some p) :
    p.freeHigh ≤ 1000 ∧ p.freeLow < p.freeHigh ∧ p.pressure < p.freeLow ∧ p.reserve < p.pressure ∧ 1 ≤ p.reserve := by
  obtain ⟨ok, ⟨⟩⟩ := Option.ite_none_right_eq_some.mp h
  simp only [watermarkOk, Bool.and_eq_true, decide_eq_true_eq] at ok
  obtain ⟨⟨⟨⟨⟨high, low⟩, pressure⟩, reserve⟩, top⟩, -⟩ := ok
  exact ⟨top, perMille_lt high, perMille_lt low, perMille_lt pressure, perMille_lt (pool := pool) (by rwa [perMille, Nat.mul_zero, Nat.zero_div])⟩

theorem tierRateOf_limits {w : W64} {r : TierRate} (h : tierRateOf w = some r) :
    1 ≤ r.sweepBw ∧ r.sweepBw ≤ 256 ∧ 10 ≤ r.releaseRetryMs ∧ r.releaseRetryMs ≤ 10000 := by
  obtain ⟨limits, ⟨⟩⟩ := Option.ite_none_right_eq_some.mp h
  exact limits

theorem weltPolicyOf_limits {w : W64} {p : WeltPolicy} (h : weltPolicyOf w = some p) :
    1 ≤ p.scrubDays ∧ p.scrubDays ≤ 30 ∧ 10 ≤ p.sparePermille ∧ p.sparePermille ≤ 100 ∧ 1 ≤ p.rebuildBw ∧ p.rebuildBw ≤ 1024 := by
  obtain ⟨limits, ⟨⟩⟩ := Option.ite_none_right_eq_some.mp h
  exact limits

theorem shadowPolicyOf_limits {w : W64} {p : ShadowPolicy} (h : shadowPolicyOf w = some p) :
    10 ≤ p.epochMs ∧ p.epochMs ≤ 10000 ∧ p.gpfTimeoutMs ≤ 10 ∧ 50 ≤ p.softPct ∧ p.softPct ≤ 95 ∧ 1 ≤ p.lapHours ∧ p.lapHours ≤ 168
      ∧ 1 ≤ p.rebuildBw ∧ p.rebuildBw ≤ 64 := by
  obtain ⟨limits, ⟨⟩⟩ := Option.ite_none_right_eq_some.mp h
  exact limits

theorem Tab.mem_insert {β : Type} {k : Nat} {v : β} {t : Tab β} {p : Nat × β} (h : p ∈ Tab.insert k v t) : p = (k, v) ∨ p ∈ t := by
  induction t with
  | nil => exact .inl (List.mem_singleton.mp h)
  | cons x r ih =>
    unfold Tab.insert at h
    split at h
    · exact List.mem_cons.mp h
    · rcases List.mem_cons.mp h with rfl | h
      · exact .inr List.mem_cons_self
      · exact (ih h).imp_right (List.mem_cons_of_mem _)

theorem tabSet_le {d : Nat → Nat} {k v n : Nat} {t : Tab Nat} (ht : ∀ p ∈ t, p.2 ≤ n) (hv : v ≤ n) : ∀ p ∈ Tab.set d k v t, p.2 ≤ n := by
  have kept : ∀ p ∈ t.filter fun p => decide (p.1 ≠ k), p.2 ≤ n := fun p hp => ht p (List.mem_of_mem_filter hp)
  unfold Tab.set
  split
  · exact kept
  · generalize t.filter (fun p => decide (p.1 ≠ k)) = t at kept
    intro p hp
    rcases Tab.mem_insert hp with rfl | hp
    · exact hv
    · exact kept p hp

/-! The commands that set a policy or a quota. -/

theorem execSetTierPolicy_changesLegally (m : Msg) (mask : Byte) (policy watermark rate : W64) :
    ChangesLegally s (execSetTierPolicy m mask policy watermark rate s) := by
  refine changesLegally_slafin ?_
  dsimp only
  split
  next p w r hp hw hr =>
    simp only [Result.st, settings_wake, settings_afterFree]
    refine ⟨rfl, rfl, fun ⟨tier, mark, rates, rest⟩ => ⟨?_, ?_, ?_, rest⟩⟩
    · split at hp
      · exact tierPolicyOf_limits hp
      · exact Option.some.inj hp ▸ tier
    · split at hw
      · exact tierWatermarkOf_limits hw
      · exact Option.some.inj hw ▸ mark
    · split at hr
      · exact tierRateOf_limits hr
      · exact Option.some.inj hr ▸ rates
  next => exact .refl _

theorem execSetWeltPolicy_changesLegally (m : Msg) (policy : W64) : ChangesLegally s (execSetWeltPolicy m policy s) := by
  refine changesLegally_slafin ?_
  split
  next p legal => exact ⟨rfl, rfl, fun ⟨tier, mark, rate, _, rest⟩ => ⟨tier, mark, rate, weltPolicyOf_limits legal, rest⟩⟩
  next => exact .refl _

theorem execSetShadowPolicy_changesLegally (m : Msg) (policy : W64) : ChangesLegally s (execSetShadowPolicy m policy s) := by
  refine changesLegally_slafin ?_
  split
  next p legal =>
    rw [Result.st, settings_wake]
    exact ⟨rfl, rfl, fun ⟨tier, mark, rate, welt, _, rest⟩ => ⟨tier, mark, rate, welt, shadowPolicyOf_limits legal, rest⟩⟩
  next => exact .refl _

theorem execSetRestorePolicy_changesLegally (m : Msg) (policy : W64) : ChangesLegally s (execSetRestorePolicy m policy s) := by
  refine changesLegally_slafin ?_
  dsimp only
  split
  next legal => exact ⟨rfl, rfl, fun ⟨tier, mark, rate, welt, shadow, _, rest⟩ => ⟨tier, mark, rate, welt, shadow, legal, rest⟩⟩
  next => exact .refl _

theorem execSetRegPolicy_changesLegally (m : Msg) (policy : W64) : ChangesLegally s (execSetRegPolicy m policy s) := by
  refine changesLegally_slafin ?_
  dsimp only
  split
  next legal =>
    exact ⟨rfl, rfl, fun ⟨tier, mark, rate, welt, shadow, restore, _, quota⟩ => ⟨tier, mark, rate, welt, shadow, restore, legal, quota⟩⟩
  next => exact .refl _

theorem execSetKeyQuota_changesLegally (m : Msg) (ld : Byte) (quota : W16) : ChangesLegally s (execSetKeyQuota m ld quota s) := by
  refine changesLegally_slafin ?_
  split
  next => exact .refl _
  next legal =>
    have small : quota.toNat ≤ 4095 := Nat.le_of_not_lt fun above => legal (.inr above)
    refine ⟨rfl, rfl, fun ⟨tier, mark, rate, welt, shadow, restore, reg, quotas⟩ => ⟨tier, mark, rate, welt, shadow, restore, reg, ?_⟩⟩
    exact tabSet_le (d := fun _ => 127) (k := ld.toNat) quotas small

/-! The losses: every setting is again as at reset (18 R426). -/

theorem settings_reset_ok : State.reset.settings.ok := by
  unfold Settings.ok
  decide

theorem coldLoss_legalChange (s : State) : s.settings.LegalChange s.coldLoss.settings := by
  rw [settings_coldLoss]
  obtain ⟨tier, mark, rate, welt, shadow, rest⟩ := settings_reset_ok
  exact ⟨rfl, rfl, fun _ => ⟨tier, mark, rate, welt, shadow, rest⟩⟩

theorem execPwrgoodFall_changesLegally : ChangesLegally s (execPwrgoodFall s) := leaves_next (coldLoss_legalChange s)

theorem execAonSupplyLoss_changesLegally : ChangesLegally s (execAonSupplyLoss s) := leaves_next (coldLoss_legalChange s)

theorem execColdReset_changesLegally (b : BringUp) : ChangesLegally s (execColdReset b s) := by
  refine leaves_if leaves_fault (leaves_next ?_)
  rw [settings_bringUp]
  exact coldLoss_legalChange s

theorem execVendorDefinedRequest_changesLegally (m : Msg) (serial : BitVec 512) (nonce : BitVec 256) (signature : List Byte) :
    ChangesLegally s (execVendorDefinedRequest m serial nonce signature s) := by
  refine leaves_spdmReady (.refl _) (fun _ => .refl _) (.ite ?_ ?_)
  · refine .trans ?_ (coldLoss_legalChange _)
    simp only [settings_emit, settings_mapWorld, settings_mapKeys, settings_zeroizeAll, implies_true]
    exact .refl _
  · simp only [settings_ite, settings_emit, settings_mapWorld, settings_draw, settings_securityRecord, ite_self]
    exact .refl _
end

end Sys2Proof.Machine
end

section
/-! The settings across every command and every step (O45, O46, O47). -/

namespace Sys2Proof.Machine

/-- The commands that set a policy or a quota, and those that lose the settings with the volatile state. -/
def changesSettings : Instr → Bool
  | .setTierPolicy .. | .setWeltPolicy .. | .setShadowPolicy .. | .setRestorePolicy .. | .setRegPolicy .. | .setKeyQuota .. | .coldReset ..
  | .pwrgoodFall | .aonSupplyLoss | .vendorDefinedRequest .. => true
  | _ => false

/-- One lemma for each command. -/
theorem exec_keepsSettings {c : Instr} (hc : changesSettings c = false) (s : State) : KeepsSettings s (exec c s) := by
  cases c with
  | cxlMemRead a => exact execCxlMemRead_keepsSettings a
  | cxlMemWrite a data poison => exact execCxlMemWrite_keepsSettings a data poison
  | partialLineWrite a data be => exact execPartialLineWrite_keepsSettings a data be
  | mergeOldLineArrived dpn line upset => exact execMergeOldLineArrived_keepsSettings dpn line upset
  | lastEntryReturned dpn => exact execLastEntryReturned_keepsSettings dpn
  | lastCacheClean => exact execLastCacheClean_keepsSettings
  | weltDeltaWrite dpn line old reads => exact execWeltDeltaWrite_keepsSettings dpn line old reads
  | rebuildComplete frame line reads => exact execRebuildComplete_keepsSettings frame line reads
  | verifyReadResult frame line upset => exact execVerifyReadResult_keepsSettings frame line upset
  | chunkDecodeDone tag decomp bad retryBad rereads => exact execChunkDecodeDone_keepsSettings tag decomp bad retryBad rereads
  | shadowRepairRecordRead dpn chunk ok hint => exact execShadowRepairRecordRead_keepsSettings dpn chunk ok hint
  | migrationStart dpn kind hint => exact execMigrationStart_keepsSettings dpn kind hint
  | migrationCopyRoundDone t => exact execMigrationCopyRoundDone_keepsSettings t
  | migrationSourceRelease t => exact execMigrationSourceRelease_keepsSettings t
  | decaySweepVisit => exact execDecaySweepVisit_keepsSettings
  | queuedPromotionStart hint => exact execQueuedPromotionStart_keepsSettings hint
  | backgroundDemotionStart hint => exact execBackgroundDemotionStart_keepsSettings hint
  | binCompaction bin hint => exact execBinCompaction_keepsSettings bin hint
  | releaseReevaluation => exact execReleaseReevaluation_keepsSettings
  | chunkCoded t chunk engine mismatch => exact execChunkCoded_keepsSettings t chunk engine mismatch
  | onchipParityError b reads => exact execOnchipParityError_keepsSettings b reads
  | parityCacheClean => exact execParityCacheClean_keepsSettings
  | candidateExpiry ch idx => exact execCandidateExpiry_keepsSettings ch idx
  | rowRepairStart ch idx => exact execRowRepairStart_keepsSettings ch idx
  | repairWaitExpiry ch idx => exact execRepairWaitExpiry_keepsSettings ch idx
  | postPackageRepairDone ch idx ok => exact execPostPackageRepairDone_keepsSettings ch idx ok
  | rowRetired ch idx => exact execRowRetired_keepsSettings ch idx
  | scrubLine upset reads => exact execScrubLine_keepsSettings upset reads
  | ecsRead ch ranksel device count bank row => exact execEcsRead_keepsSettings ch ranksel device count bank row
  | unitRebuildStep slot reads => exact execUnitRebuildStep_keepsSettings slot reads
  | unitMapResolve slot reads => exact execUnitMapResolve_keepsSettings slot reads
  | rebalance dpn hint => exact execRebalance_keepsSettings dpn hint
  | refreshDue ch rank => exact execRefreshDue_keepsSettings ch rank
  | owedRefreshDrain ch rank => exact execOwedRefreshDrain_keepsSettings ch rank
  | periodicTracking ch lr => exact execPeriodicTracking_keepsSettings ch lr
  | moduleTempRead ch temps mr4Hot => exact execModuleTempRead_keepsSettings ch temps mr4Hot
  | activationWindowStart ch => exact execActivationWindowStart_keepsSettings ch
  | requestAgePromote ch tag => exact execRequestAgePromote_keepsSettings ch tag
  | trainingComplete ch r => exact execTrainingComplete_keepsSettings ch r
  | slotPresenceChange ch high => exact execSlotPresenceChange_keepsSettings ch high
  | pmicPowerGoodTimeout ch => exact execPmicPowerGoodTimeout_keepsSettings ch
  | caParityAlert ch rank => exact execCaParityAlert_keepsSettings ch rank
  | writeCrcAlert ch rank => exact execWriteCrcAlert_keepsSettings ch rank
  | pmicFault ch => exact execPmicFault_keepsSettings ch
  | trainMcuWatchdog die => exact execTrainMcuWatchdog_keepsSettings die
  | dataFlitReceived m e f => exact execDataFlitReceived_keepsSettings m e f
  | creditFlit m e f => exact execCreditFlit_keepsSettings m e f
  | retrainRequest m e f => exact execRetrainRequest_keepsSettings m e f
  | handover m e f => exact execHandover_keepsSettings m e f
  | returnFlit m e f => exact execReturnFlit_keepsSettings m e f
  | trainPattern m e f => exact execTrainPattern_keepsSettings m e f
  | trainParameters m e f => exact execTrainParameters_keepsSettings m e f
  | trainDone m e f margin repaired => exact execTrainDone_keepsSettings m e f margin repaired
  | dieRead m r => exact execDieRead_keepsSettings m r
  | dieWrite m r data side => exact execDieWrite_keepsSettings m r data side
  | channelCommand m ch k tag => exact execChannelCommand_keepsSettings m ch k tag
  | dieEvent m num source => exact execDieEvent_keepsSettings m num source
  | lineData m entries => exact execLineData_keepsSettings m entries
  | writeDone m tags => exact execWriteDone_keepsSettings m tags
  | commandDone m tag ok => exact execCommandDone_keepsSettings m tag ok
  | eventTaken m nums => exact execEventTaken_keepsSettings m nums
  | ackDue m e => exact execAckDue_keepsSettings m e
  | ctrlFlitDue m e => exact execCtrlFlitDue_keepsSettings m e
  | replayTimerExpiry m e => exact execReplayTimerExpiry_keepsSettings m e
  | creditLeakDetected m e => exact execCreditLeakDetected_keepsSettings m e
  | leakRetrainStart m => exact execLeakRetrainStart_keepsSettings m
  | silenceTimeout m => exact execSilenceTimeout_keepsSettings m
  | retrainTimeout m => exact execRetrainTimeout_keepsSettings m
  | handoverTimeout die => exact execHandoverTimeout_keepsSettings die
  | returnAttempt m trained => exact execReturnAttempt_keepsSettings m trained
  | returnSoakEnd m clean => exact execReturnSoakEnd_keepsSettings m clean
  | shadowRecord v => exact execShadowRecord_keepsSettings v
  | driveCommandComplete n id => exact execDriveCommandComplete_keepsSettings n id
  | epochEnd => exact execEpochEnd_keepsSettings
  | epochClose => exact execEpochClose_keepsSettings
  | refreshLapStep => exact execRefreshLapStep_keepsSettings
  | windowRecompute saturatedRate => exact execWindowRecompute_keepsSettings saturatedRate
  | holdupSample senseMv => exact execHoldupSample_keepsSettings senseMv
  | gpfPhase1 head => exact execGpfPhase1_keepsSettings head
  | gpfPhase2 head => exact execGpfPhase2_keepsSettings head
  | saveStart => exact execSaveStart_keepsSettings
  | gpfTimeout => exact execGpfTimeout_keepsSettings
  | saveQueueEmpty => exact execSaveQueueEmpty_keepsSettings
  | saveFlushComplete => exact execSaveFlushComplete_keepsSettings
  | parityWritebackDone => exact execParityWritebackDone_keepsSettings
  | pwrfailReturn => exact execPwrfailReturn_keepsSettings
  | resumeInPlace => exact execResumeInPlace_keepsSettings
  | driveSaveTimeout n => exact execDriveSaveTimeout_keepsSettings n
  | driveFail n timeout => exact execDriveFail_keepsSettings n timeout
  | driveRebuildStep n blocks => exact execDriveRebuildStep_keepsSettings n blocks
  | imageCreate calibrationRate => exact execImageCreate_keepsSettings calibrationRate
  | coldReset => exact Bool.noConfusion hc
  | pwrgoodFall => exact Bool.noConfusion hc
  | warmReset => exact execWarmReset_keepsSettings
  | portReset p => exact execPortReset_keepsSettings p
  | perstRelease p => exact execPerstRelease_keepsSettings p
  | poolInitGroup => exact execPoolInitGroup_keepsSettings
  | imageRead f => exact execImageRead_keepsSettings f
  | restoreIndexBuilt => exact execRestoreIndexBuilt_keepsSettings
  | voidOverwriteStep blocks => exact execVoidOverwriteStep_keepsSettings blocks
  | restoreRecordRead ok hint => exact execRestoreRecordRead_keepsSettings ok hint
  | restoreExtentDone => exact execRestoreExtentDone_keepsSettings
  | upspeedRetry head success => exact execUpspeedRetry_keepsSettings head success
  | accountingInterval => exact execAccountingInterval_keepsSettings
  | linkTrained head l => exact execLinkTrained_keepsSettings head l
  | linkDown head => exact execLinkDown_keepsSettings head
  | l0pRequest head width => exact execL0pRequest_keepsSettings head width
  | ldReset fn => exact execLdReset_keepsSettings fn
  | configRequest head fn offset => exact execConfigRequest_keepsSettings head fn offset
  | mmioBadAccess fn offset read => exact execMmioBadAccess_keepsSettings fn offset read
  | registerWrite fn offset value four => exact execRegisterWrite_keepsSettings fn offset value four
  | doorbell ld page value pasid => exact execDoorbell_keepsSettings ld page value pasid
  | descriptorFetch q ds => exact execDescriptorFetch_keepsSettings q ds
  | zeroRange q id => exact execZeroRange_keepsSettings q id
  | copyRange q id hint => exact execCopyRange_keepsSettings q id hint
  | pinHot q id hint => exact execPinHot_keepsSettings q id hint
  | unpin q id => exact execUnpin_keepsSettings q id
  | promote q id hint => exact execPromote_keepsSettings q id hint
  | demote q id hint => exact execDemote_keepsSettings q id hint
  | hardenRange q id => exact execHardenRange_keepsSettings q id
  | compressOut q id dmaOk => exact execCompressOut_keepsSettings q id dmaOk
  | decompressIn q id buf hint => exact execDecompressIn_keepsSettings q id buf hint
  | heatReport q id dmaOk => exact execHeatReport_keepsSettings q id dmaOk
  | fence q id => exact execFence_keepsSettings q id
  | poqCompletion q id dmaOk => exact execPoqCompletion_keepsSettings q id dmaOk
  | coalesceTimer q => exact execCoalesceTimer_keepsSettings q
  | queueDrained q => exact execQueueDrained_keepsSettings q
  | eyeletNotice ld ch value pasid => exact execEyeletNotice_keepsSettings ld ch value pasid
  | eyeletDequeue ld ch => exact execEyeletDequeue_keepsSettings ld ch
  | commandBlockRead ld ch b => exact execCommandBlockRead_keepsSettings ld ch b
  | eyeletConfigWrite ld ch value => exact execEyeletConfigWrite_keepsSettings ld ch value
  | eventRingEnable ld value => exact execEventRingEnable_keepsSettings ld value
  | lockRegisterRead lock readers => exact execLockRegisterRead_keepsSettings lock readers
  | lockReleaseWrite lock p value => exact execLockReleaseWrite_keepsSettings lock p value
  | lockLeaseExpiry lock => exact execLockLeaseExpiry_keepsSettings lock
  | identifyMemoryDevice m => exact execIdentifyMemoryDevice_keepsSettings m
  | getHealthInfo m => exact execGetHealthInfo_keepsSettings m
  | getAlertConfiguration m => exact execGetAlertConfiguration_keepsSettings m
  | setAlertConfiguration m cfg => exact execSetAlertConfiguration_keepsSettings m cfg
  | getShutdownState m => exact execGetShutdownState_keepsSettings m
  | setShutdownState m st => exact execSetShutdownState_keepsSettings m st
  | getTimestamp m => exact execGetTimestamp_keepsSettings m
  | setTimestamp m t => exact execSetTimestamp_keepsSettings m t
  | getEventRecords m log => exact execGetEventRecords_keepsSettings m log
  | clearEventRecords m log all handles => exact execClearEventRecords_keepsSettings m log all handles
  | getEventInterruptPolicy m => exact execGetEventInterruptPolicy_keepsSettings m
  | setEventInterruptPolicy m p => exact execSetEventInterruptPolicy_keepsSettings m p
  | getSupportedLogs m => exact execGetSupportedLogs_keepsSettings m
  | getLog m cel offset length => exact execGetLog_keepsSettings m cel offset length
  | getFwInfo m => exact execGetFwInfo_keepsSettings m
  | transferFw m slot p => exact execTransferFw_keepsSettings m slot p
  | activateFw m online slot => exact execActivateFw_keepsSettings m online slot
  | getPartitionInfo m => exact execGetPartitionInfo_keepsSettings m
  | setPartitionInfo m volatile => exact execSetPartitionInfo_keepsSettings m volatile
  | getDynamicCapacityConfiguration m => exact execGetDynamicCapacityConfiguration_keepsSettings m
  | getDynamicCapacityExtentList m start count => exact execGetDynamicCapacityExtentList_keepsSettings m start count
  | addDynamicCapacityResponse m tag accept => exact execAddDynamicCapacityResponse_keepsSettings m tag accept
  | releaseDynamicCapacity m dpa length more => exact execReleaseDynamicCapacity_keepsSettings m dpa length more
  | getPoisonList m dpa length => exact execGetPoisonList_keepsSettings m dpa length
  | injectPoison m dpa => exact execInjectPoison_keepsSettings m dpa
  | clearPoison m dpa data => exact execClearPoison_keepsSettings m dpa data
  | sanitize m => exact execSanitize_keepsSettings m
  | secureErase m => exact execSecureErase_keepsSettings m
  | backgroundOperationStatus m => exact execBackgroundOperationStatus_keepsSettings m
  | unsupportedCommand m opcode => exact execUnsupportedCommand_keepsSettings m opcode
  | getLdInfo m => exact execGetLdInfo_keepsSettings m
  | getLdAllocations m start limit => exact execGetLdAllocations_keepsSettings m start limit
  | setLdAllocations m start allocs => exact execSetLdAllocations_keepsSettings m start allocs
  | getQosControl m ld => exact execGetQosControl_keepsSettings m ld
  | setQosControl m ld ctl => exact execSetQosControl_keepsSettings m ld ctl
  | getQosStatus m ld => exact execGetQosStatus_keepsSettings m ld
  | getQosAllocatedBw m start number => exact execGetQosAllocatedBw_keepsSettings m start number
  | setQosAllocatedBw m start fractions => exact execSetQosAllocatedBw_keepsSettings m start fractions
  | getQosBwLimit m start number => exact execGetQosBwLimit_keepsSettings m start number
  | setQosBwLimit m start fractions => exact execSetQosBwLimit_keepsSettings m start fractions
  | getMultiHeadedInfo m => exact execGetMultiHeadedInfo_keepsSettings m
  | getHeadInfo m start number => exact execGetHeadInfo_keepsSettings m start number
  | getDcdInfo m => exact execGetDcdInfo_keepsSettings m
  | getHostDcRegionConfiguration m ld start number => exact execGetHostDcRegionConfiguration_keepsSettings m ld start number
  | setDcRegionConfiguration m region blockSize sanitizeOnRelease =>
    exact execSetDcRegionConfiguration_keepsSettings m region blockSize sanitizeOnRelease
  | getDcRegionExtentLists m ld start count => exact execGetDcRegionExtentLists_keepsSettings m ld start count
  | initiateDynamicCapacityAdd m ld e => exact execInitiateDynamicCapacityAdd_keepsSettings m ld e
  | initiateDynamicCapacityRelease m ld tag => exact execInitiateDynamicCapacityRelease_keepsSettings m ld tag
  | slafinUndefinedOpcode m opcode => exact execSlafinUndefinedOpcode_keepsSettings m opcode
  | getSlafinInfo m => exact execGetSlafinInfo_keepsSettings m
  | setSlafinVersion m version => exact execSetSlafinVersion_keepsSettings m version
  | setOwnerKey m hash => exact execSetOwnerKey_keepsSettings m hash
  | readRegisters m capId ld offset length => exact execReadRegisters_keepsSettings m capId ld offset length
  | lockCommand m lock op => exact execLockCommand_keepsSettings m lock op
  | setTierPolicy => exact Bool.noConfusion hc
  | setRangeAttr m ld poisonUnwritten devDpn pages => exact execSetRangeAttr_keepsSettings m ld poisonUnwritten devDpn pages
  | setPageOwner m devDpn pages owner => exact execSetPageOwner_keepsSettings m devDpn pages owner
  | setHostCapacity m pages => exact execSetHostCapacity_keepsSettings m pages
  | setShadowPolicy => exact Bool.noConfusion hc
  | setRegionDurable m region durable => exact execSetRegionDurable_keepsSettings m region durable
  | restorePriority m req => exact execRestorePriority_keepsSettings m req
  | getLossList m cursor max => exact execGetLossList_keepsSettings m cursor max
  | reofferExtent m ld tag => exact execReofferExtent_keepsSettings m ld tag
  | setRestorePolicy => exact Bool.noConfusion hc
  | retryRestore m f => exact execRetryRestore_keepsSettings m f
  | createQueue m sqBase cqBase pasid log2 vector coalCount coalTime index =>
    exact execCreateQueue_keepsSettings m sqBase cqBase pasid log2 vector coalCount coalTime index
  | destroyQueue m q => exact execDestroyQueue_keepsSettings m q
  | setCoalesce m q vector coalCount coalTime => exact execSetCoalesce_keepsSettings m q vector coalCount coalTime
  | bindDoorbell m page mode pasid => exact execBindDoorbell_keepsSettings m page mode pasid
  | setPoqShare m ld weight quota => exact execSetPoqShare_keepsSettings m ld weight quota
  | setMasters m entries => exact execSetMasters_keepsSettings m entries
  | setRegPolicy => exact Bool.noConfusion hc
  | setSource m source config => exact execSetSource_keepsSettings m source config
  | clearSource m source count => exact execClearSource_keepsSettings m source count
  | getSources m first max => exact execGetSources_keepsSettings m first max
  | awlArm m d => exact execAwlArm_keepsSettings m d
  | awlDisarm m injection => exact execAwlDisarm_keepsSettings m injection
  | readInsole m cursor max => exact execReadInsole_keepsSettings m cursor max
  | unfreezeInsole m => exact execUnfreezeInsole_keepsSettings m
  | setWeltPolicy => exact Bool.noConfusion hc
  | quiesceChannel m channel => exact execQuiesceChannel_keepsSettings m channel
  | rejoinChannel m channel => exact execRejoinChannel_keepsSettings m channel
  | setChannelControl m channel control => exact execSetChannelControl_keepsSettings m channel control
  | setLacePoint m module rate half => exact execSetLacePoint_keepsSettings m module rate half
  | getRepairTable m channel cursor max => exact execGetRepairTable_keepsSettings m channel cursor max
  | programKey m keyId flags ldMask ckid ld key => exact execProgramKey_keepsSettings m keyId flags ldMask ckid ld key
  | destroyKey m keyId => exact execDestroyKey_keepsSettings m keyId
  | slotDestructionComplete keyId => exact execSlotDestructionComplete_keepsSettings keyId
  | queryKey m keyId => exact execQueryKey_keepsSettings m keyId
  | setDefaultKey m ld keyId => exact execSetDefaultKey_keepsSettings m ld keyId
  | setKeyQuota => exact Bool.noConfusion hc
  | grantShare m keyId ldMask => exact execGrantShare_keepsSettings m keyId ldMask
  | getMarginReport m => exact execGetMarginReport_keepsSettings m
  | setPortRate m head maxRate => exact execSetPortRate_keepsSettings m head maxRate
  | compatRemap m dpa => exact execCompatRemap_keepsSettings m dpa
  | compatClear m entry => exact execCompatClear_keepsSettings m entry
  | compatList m => exact execCompatList_keepsSettings m
  | driveRelease m drive confirm => exact execDriveRelease_keepsSettings m drive confirm
  | driveRemove m drive => exact execDriveRemove_keepsSettings m drive
  | getTargetTspVersion ld session => exact execGetTargetTspVersion_keepsSettings ld session
  | getTargetCapabilities ld session => exact execGetTargetCapabilities_keepsSettings ld session
  | setTargetConfiguration ld session ckidEnable => exact execSetTargetConfiguration_keepsSettings ld session ckidEnable
  | getTargetConfiguration ld session => exact execGetTargetConfiguration_keepsSettings ld session
  | getTargetConfigurationReport ld session => exact execGetTargetConfigurationReport_keepsSettings ld session
  | lockTargetConfiguration ld session => exact execLockTargetConfiguration_keepsSettings ld session
  | setTargetCkidSpecificKey ld session ckid slot key => exact execSetTargetCkidSpecificKey_keepsSettings ld session ckid slot key
  | setTargetCkidRandomKey ld session ckid slot => exact execSetTargetCkidRandomKey_keepsSettings ld session ckid slot
  | clearTargetCkidKey ld session ckid => exact execClearTargetCkidKey_keepsSettings ld session ckid
  | tspUnsupportedRequest ld session opcode => exact execTspUnsupportedRequest_keepsSettings ld session opcode
  | ideKmMessage p session stream set km => exact execIdeKmMessage_keepsSettings p session stream set km
  | getVersion m => exact execGetVersion_keepsSettings m
  | getCapabilities m => exact execGetCapabilities_keepsSettings m
  | negotiateAlgorithms m algsOk => exact execNegotiateAlgorithms_keepsSettings m algsOk
  | getDigests m => exact execGetDigests_keepsSettings m
  | getCertificate m slot => exact execGetCertificate_keepsSettings m slot
  | challenge m slot nonce => exact execChallenge_keepsSettings m slot nonce
  | getMeasurements m index signed => exact execGetMeasurements_keepsSettings m index signed
  | keyExchange m keyHash => exact execKeyExchange_keepsSettings m keyHash
  | finish m sid authenticated => exact execFinish_keepsSettings m sid authenticated
  | keyUpdate m sid => exact execKeyUpdate_keepsSettings m sid
  | heartbeat m sid => exact execHeartbeat_keepsSettings m sid
  | endSession m sid => exact execEndSession_keepsSettings m sid
  | vendorDefinedRequest => exact Bool.noConfusion hc
  | mctpControlMessage setEid reset => exact execMctpControlMessage_keepsSettings setEid reset
  | doeDiscovery ld index => exact execDoeDiscovery_keepsSettings ld index
  | cdatTableAccess ld entry => exact execCdatTableAccess_keepsSettings ld entry
  | secureWatchdogExpiry => exact execSecureWatchdogExpiry_keepsSettings
  | normalWatchdogExpiry => exact execNormalWatchdogExpiry_keepsSettings
  | coreException core => exact execCoreException_keepsSettings core
  | secureWorldReady activeOk otherOk inTime => exact execSecureWorldReady_keepsSettings activeOk otherOk inTime
  | svnRaise w => exact execSvnRaise_keepsSettings w
  | ownerTableChange page o => exact execOwnerTableChange_keepsSettings page o
  | gateRequest core b gated => exact execGateRequest_keepsSettings core b gated
  | ownerViolation r page write line => exact execOwnerViolation_keepsSettings r page write line
  | extest boundary => exact execExtest_keepsSettings boundary
  | idcode => exact execIdcode_keepsSettings
  | samplePreload boundary => exact execSamplePreload_keepsSettings boundary
  | clamp => exact execClamp_keepsSettings
  | highz => exact execHighz_keepsSettings
  | bypass code => exact execBypass_keepsSettings code
  | eventArrival events => exact execEventArrival_keepsSettings events
  | insoleExportWrite => exact execInsoleExportWrite_keepsSettings
  | classReturn => exact execClassReturn_keepsSettings
  | aliveToggle => exact execAliveToggle_keepsSettings
  | heartbeatLost => exact execHeartbeatLost_keepsSettings
  | awlInjection slot => exact execAwlInjection_keepsSettings slot
  | insoleExportEnable head value => exact execInsoleExportEnable_keepsSettings head value
  | freezeAll fn value => exact execFreezeAll_keepsSettings fn value
  | cpmuConfigWrite fn unit counter cfg => exact execCpmuConfigWrite_keepsSettings fn unit counter cfg
  | sampleCfgWrite fn p value => exact execSampleCfgWrite_keepsSettings fn p value
  | dumpRingEnable fn value => exact execDumpRingEnable_keepsSettings fn value
  | periodicDump fn => exact execPeriodicDump_keepsSettings fn
  | avsPoll ack mv icore => exact execAvsPoll_keepsSettings ack mv icore
  | thermalSensorRead tj => exact execThermalSensorRead_keepsSettings tj
  | xtalLoss => exact execXtalLoss_keepsSettings
  | pllUnlock => exact execPllUnlock_keepsSettings
  | channelPllUnlock pair => exact execChannelPllUnlock_keepsSettings pair
  | thermAlert => exact execThermAlert_keepsSettings
  | drivePresenceChange n present => exact execDrivePresenceChange_keepsSettings n present
  | priorityHoldEnd master rowHold => exact execPriorityHoldEnd_keepsSettings master rowHold
  | arbiterWaitAge tag => exact execArbiterWaitAge_keepsSettings tag
  | pmicPowerGood ch => exact execPmicPowerGood_keepsSettings ch
  | slotSupplySettled ch dimms => exact execSlotSupplySettled_keepsSettings ch dimms
  | slotSupplyOff ch => exact execSlotSupplyOff_keepsSettings ch
  | driveLinkUp n d => exact execDriveLinkUp_keepsSettings n d
  | backgroundOperationDone fn => exact execBackgroundOperationDone_keepsSettings fn
  | normalWorldReady => exact execNormalWorldReady_keepsSettings
  | aonSupplyLoss => exact Bool.noConfusion hc
  | resetNRelease b => exact execResetNRelease_keepsSettings b
  | changeDeferralTimeout target => exact execChangeDeferralTimeout_keepsSettings target
  | msixVectorUnmask fn vector => exact execMsixVectorUnmask_keepsSettings fn vector
  | hdmDecoderCommit ld n base size ways gran => exact execHdmDecoderCommit_keepsSettings ld n base size ways gran

/-- What one command can do to the settings. -/
theorem exec_changesLegally (c : Instr) (s : State) : ChangesLegally s (exec c s) := by
  cases hc : changesSettings c with
  | false => exact (exec_keepsSettings hc s).changesLegally
  | true =>
    unfold changesSettings at hc
    split at hc
    · exact execSetTierPolicy_changesLegally _ _ _ _ _
    · exact execSetWeltPolicy_changesLegally _ _
    · exact execSetShadowPolicy_changesLegally _ _
    · exact execSetRestorePolicy_changesLegally _ _
    · exact execSetRegPolicy_changesLegally _ _
    · exact execSetKeyQuota_changesLegally _ _ _
    · exact execColdReset_changesLegally _
    · exact execPwrgoodFall_changesLegally
    · exact execAonSupplyLoss_changesLegally
    · exact execVendorDefinedRequest_changesLegally _ _ _ _
    · exact Bool.noConfusion hc

/-- Settles O45: a command changes the settings lawfully, and one that sets or loses none of them keeps them. -/
theorem settingsOnlyByTheirCommands : Obligations.SettingsOnlyByTheirCommands := by
  intro c s t next
  have legal := exec_changesLegally c s t next
  refine ⟨legal.queue, legal.part, ?_⟩
  cases hc : changesSettings c with
  | false =>
    have kept := exec_keepsSettings hc s t next
    split <;> trivial
  | true =>
    unfold changesSettings at hc
    split at hc <;> trivial

/-- Settles O46: device time changes no setting, and the command at the front of the queue changes them lawfully. -/
theorem settingsStayInTheirLimits : Obligations.SettingsStayInTheirLimits := by
  intro s t ok next
  unfold step at next
  split at next
  · cases next
    rwa [settings_settleLines, settings_settleRemovals, settings_passTime]
  · exact (exec_changesLegally _ _ _ next).limits ok

/-- Settles O47: each value of reset lies inside its limits. -/
theorem settingsOfResetAreLegal : Obligations.SettingsOfResetAreLegal := settings_reset_ok

end Sys2Proof.Machine
end

section
/-! The commands of the tiers: what each answers on the hypotheses of O28. -/

namespace Sys2Proof.Machine

/-- A command that arrives and passes its checks answers what its act answers. -/
theorem slafin_answers {s t : State} {g : Gate} {m : Msg} {act : State → Result} {st : W16} {body : List Byte} (runs : s.runs m g)
    (h : act s = .done st body t) : s.slafin g m act = .next (t.reply m g.op st body) := by
  obtain ⟨arrives, passes⟩ := runs
  exact slafin_done arrives passes h

section
variable {s : State} {m : Msg}

theorem exec_setTierPolicy_taken {policy watermark rate : W64} {p : TierPolicy} {w : TierWatermark} {r : TierRate}
    (runs : s.runs m { op := 0xC010, roles := rBmcOwn, sess := false, l0 := false, secure := false, inLen := 32, body := 0 })
    (hp : tierPolicyOf policy = some p) (hw : tierWatermarkOf s.tier.poolFrames watermark = some w) (hr : tierRateOf rate = some r) :
    exec (.setTierPolicy m 7 policy watermark rate) s =
      .next ((s.mapTier fun t => { t with policy := p, watermark := w, rate := r }).afterFree.wake.reply m 0xC010 stOk []) := by
  show execSetTierPolicy m 7 policy watermark rate s = _
  refine slafin_answers runs ?_
  simp [hp, hw, hr]

theorem exec_setTierPolicy_badWatermark {policy watermark rate : W64}
    (runs : s.runs m { op := 0xC010, roles := rBmcOwn, sess := false, l0 := false, secure := false, inLen := 32, body := 0 })
    (bad : tierWatermarkOf s.tier.poolFrames watermark = none) :
    exec (.setTierPolicy m 2 policy watermark rate) s = .next (s.reply m 0xC010 stInvalidRange []) := by
  show execSetTierPolicy m 2 policy watermark rate s = _
  refine slafin_answers runs ?_
  simp [bad]

theorem exec_setRangeAttr_whole {ld poison : Byte} {a pages : W32} {inside : MapEntry → Bool}
    (runs : s.runs m { op := 0xC011, roles := rFm, sess := false, l0 := false, secure := false, inLen := 12, body := 0 })
    (here : s.hasLd ld.toNat = true) (flag : poison.toNat ≤ 1)
    (hin : ∀ e, inside e = (e.valid && decide (a.toNat ≤ e.devBase.toNat) && decide (e.devBase.toNat + e.pages.toNat ≤ a.toNat + pages.toNat)))
    (whole : pagesOf ((s.map ld.toNat).filter inside) = pages.toNat) (nonempty : (s.map ld.toNat).filter inside ≠ []) :
    exec (.setRangeAttr m ld poison a pages) s =
      .next (((s.setMap ld.toNat ((s.map ld.toNat).map fun e => if inside e then { e with poisonUnw := decide (poison = 1) } else e)).mapShank fun k =>
        { k with regionDirty := true }).reply m 0xC011 stOk []) := by
  obtain rfl : inside = _ := funext hin
  show execSetRangeAttr m ld poison a pages s = _
  refine slafin_answers runs (if_neg ?_)
  simp [here, whole, nonempty, Nat.not_lt.mpr flag]

theorem exec_setPageOwner_owned {a pages : W32} {owner : W16} {mine : List Dpn}
    (runs : s.runs m { op := 0xC012, roles := rFmOwn, sess := false, l0 := false, secure := false, inLen := 10, body := 0 })
    (owned : 1 ≤ owner.toNat) (known : owner.toNat ≤ s.nLds)
    (hmine : mine = (s.last.table.keys.filter fun d => decide (a.toNat ≤ d) && decide (d < a.toNat + pages.toNat)).map (BitVec.ofNat 32))
    (covered : coversRange (s.ldMap (owner.toNat - 1)) (a.toNat + pages.toNat) ((s.ldMap (owner.toNat - 1)).length + 1) a.toNat = true)
    (settled : mine.all (fun d => !decide ((s.entry d).state = .restoring)) = true) :
    exec (.setPageOwner m a pages owner) s =
      .next (((mine.filter fun d => decide ((s.entry d).state ≠ .unwritten)).foldl (fun s d => s.setOwner d (owner.setWidth 12)) s).wake.reply
        m 0xC012 stOk []) := by
  have notZero : owner ≠ 0 := by rintro rfl; exact absurd owned (by decide)
  have noneRestoring : (mine.any fun d => decide ((s.entry d).state = .restoring)) = false := by
    rw [List.any_eq_not_all_not, settled, Bool.not_true]
  subst hmine
  show execSetPageOwner m a pages owner s = _
  refine slafin_answers runs ?_
  simp only [if_neg notZero, covered, noneRestoring, Nat.not_lt.mpr known, Bool.not_true, Bool.false_eq_true, or_self, if_false]

theorem exec_setHostCapacity_empty {pages : W32}
    (runs : s.runs m { op := 0xC013, roles := rFmBmcOwn, sess := false, l0 := false, secure := false, inLen := 4, body := 0 }) (nonzero : pages ≠ 0)
    (unbound : s.boundLds = []) (unmapped : s.last.maps = []) (whole : pages.toNat % block = 0) (fits : pages.toNat ≤ maxHostPages s.ev8820)
    (room : (s.last.frames.filter fun q => decide (q.2.kind = .hot) || decide (q.2.kind = .bin)).length < s.poolFor pages.toNat * (s.w - 1)) :
    exec (.setHostCapacity m pages) s = .next ((s.reconfigure pages.toNat).wake.reply m 0xC013 stOk []) := by
  show execSetHostCapacity m pages s = _
  refine slafin_answers runs ?_
  simp only [if_neg nonzero, unbound, unmapped, whole, Nat.not_lt.mpr fits, Nat.not_le.mpr room, List.isEmpty_nil, List.any_nil, Bool.not_true,
    Bool.false_eq_true, ne_eq, not_true_eq_false, or_self, if_false]

end

/-- Settles O28: one lemma for each of the four commands, and one for watermarks outside their limits. -/
theorem tierCommands : Obligations.TierCommands := by
  intro s m
  refine ⟨fun runs policy watermark rate => ⟨fun _ _ _ => exec_setTierPolicy_taken runs, exec_setTierPolicy_badWatermark runs⟩,
    fun runs _ _ _ _ _ => exec_setRangeAttr_whole runs, fun runs _ _ _ _ => exec_setPageOwner_owned runs,
    fun runs _ => exec_setHostCapacity_empty runs⟩

end Sys2Proof.Machine
end

section
/-! The codec on its own time: what each of its commands answers on the hypotheses of O3. -/

namespace Sys2Proof.Machine

section
variable {s : State}

/-- No injection waits for a decode on the decompressor: the decode goes as it goes (R400). -/
theorem State.decodeSpoiled_none {n : Nat}
    (clean : (s.injs.find? fun p => decide (p.2.d.kind = 8) && p.2.due && decide (p.2.d.target.toNat = n)) = none) :
    s.decodeSpoiled n = (none, s) := by
  rw [State.decodeSpoiled, clean]

theorem exec_chunkDecodeDone_plain {tag : BitVec 13} {decomp : Fin 16} (retryBad : Bool) (rereads : List Upset) {r : Req} {ls : List (Option Line)}
    {t : State} (req : s.req tag = some r) (phase : r.phase = .decode)
    (notLate : s.lateOn (8 + decomp.val) (fun j => decide (j.user = .hostRead tag)) = none)
    (holds : s.jobOn (8 + decomp.val) (fun j => decide (j.user = .hostRead tag)) = true)
    (ht : t = s.endJobs (fun j => decide (j.user = .hostRead tag)))
    (clean : (t.injs.find? fun p => decide (p.2.d.kind = 8) && p.2.due && decide (p.2.d.target.toNat = decomp.val)) = none)
    (plain : t.reqPlain r r.got = some ls) :
    exec (.chunkDecodeDone tag decomp false retryBad rereads) s =
      .next (((t.chunkDecoded r).finishRead r (lineOf ls r.line.val) false).flushBacks).wake := by
  have spoiled := State.decodeSpoiled_none clean
  show execChunkDecodeDone tag decomp false retryBad rereads s = _
  simp [execChunkDecodeDone, notLate, req, phase, holds, ← ht, spoiled, plain]

theorem exec_chunkDecodeDone_late {tag : BitVec 13} {decomp : Fin 16} (bad retryBad : Bool) (rereads : List Upset) {j : CodecJob}
    (late : s.lateOn (8 + decomp.val) (fun j => decide (j.user = .hostRead tag)) = some j) :
    exec (.chunkDecodeDone tag decomp bad retryBad rereads) s = .next (s.dropLate j) := by
  show execChunkDecodeDone tag decomp bad retryBad rereads s = _
  simp only [execChunkDecodeDone, late]

/-- The page has been promoted by a write meanwhile: its poisoned lines take the record's (R91). -/
theorem exec_shadowRepairRecordRead_hot {dpn : Dpn} {chunk : Fin 4} (hint : Frame) {j : RepairJob} {rec : Record} {ls : List (Option Line)}
    (entry : (s.codec.repair.find? fun j => decide (j.dpn = dpn) && decide (j.chunk = chunk)) = some j)
    (record : (s.charge mScrub (chargeRead 1)).recordOf dpn = some rec) (good : rec.bad = false)
    (lines : (s.charge mScrub (chargeRead 1)).recordChunk rec chunk.val = some ls) (hot : (s.entry dpn).hotForm = true) :
    exec (.shadowRepairRecordRead dpn chunk true hint) s =
      .next ((((s.charge mScrub (chargeRead 1)).mapCodec fun c => { c with repair := c.repair.erase j }).countCodec 5).patchLines dpn chunk.val ls
        j.granule).wake := by
  show execShadowRepairRecordRead dpn chunk true hint s = _
  simp [execShadowRepairRecordRead, entry, record, good, lines, hot]

/-- A chunk whose verify decode agrees is kept at its tracker (R83, R89). -/
theorem exec_chunkCoded_kept {n : Fin 256} {chunk : Fin 4} {engine : Fin 8} {t : Tracker} {mine : CodecJob → Bool}
    (tracker : s.tracker n.val = some t) (unflipped : t.flipped = false) (recode : t.recode.getLsbD chunk.val = true)
    (uncoded : Tab.get (fun _ => none) t.coded chunk.val = none) (notLate : s.lateOn engine.val (fun j => decide (j.chunk = chunk.val)) = none)
    (hmine : mine = (fun j : CodecJob => decide (j.dpn = t.dpn) && decide (j.chunk = chunk.val) && decide (j.user.kind = 0)))
    (holds : s.jobOn engine.val mine = true) {c : Coded} (hc : c = codeChunk 0 (chunkLines (s.pageLines t.dpn) chunk.val)) :
    exec (.chunkCoded n chunk engine false) s =
      .next ((((if c.cnt = 16 then ((s.pmCrypto 0 16).pmCodec 1).countCodec 1 else (s.pmCrypto 0 16).pmCodec 1).countCodec 0).setTracker n.val
        (some { t with coded := Tab.set (fun _ => none) chunk.val (some c) t.coded })).endJobs mine) := by
  subst hmine hc
  show execChunkCoded n chunk engine false s = _
  simp only [execChunkCoded, notLate, tracker, unflipped, recode, uncoded, holds, Option.isSome_none, Bool.not_true, Bool.false_and, Bool.false_eq_true,
    or_self, false_and, if_false]

end

/-- Settles O3: one lemma for each of the four clauses. -/
theorem codecEvents : Obligations.CodecEvents := fun _ =>
  ⟨fun _ _ retryBad rereads _ _ _ => exec_chunkDecodeDone_plain retryBad rereads,
    fun _ _ bad retryBad rereads _ => exec_chunkDecodeDone_late bad retryBad rereads,
    fun _ _ hint _ _ _ => exec_shadowRepairRecordRead_hot hint,
    fun _ _ _ _ _ tracker unflipped recode uncoded notLate hmine holds =>
      ⟨_, rfl, exec_chunkCoded_kept tracker unflipped recode uncoded notLate hmine holds rfl⟩⟩

end Sys2Proof.Machine
end

section
/-! The CRC of a chunk (R77): a register that shifts right is the mirror image of one that shifts left, bit for bit. -/

namespace Sys2Proof.Machine

/-- One bit through a CRC, most significant bit first. -/
def crcBitMsb {n : Nat} (poly r : BitVec n) (bit : Bool) : BitVec n := if r.msb ^^ bit then r <<< 1 ^^^ poly else r <<< 1

/-- One shift of a reflected CRC. -/
def crcBitRefl {n : Nat} (poly r : BitVec n) : BitVec n := if r.getLsbD 0 then r >>> 1 ^^^ poly else r >>> 1

theorem crcByteMsb_eq {n : Nat} (poly r : BitVec n) (b : Byte) :
    crcByteMsb poly r b = (List.range 8).foldl (fun r i => crcBitMsb poly r (b.getLsbD (7 - i))) r := rfl

theorem crcByteRefl_eq (poly r : W32) (b : Byte) :
    crcByteRefl poly r b = (List.range 8).foldl (fun r _ => crcBitRefl poly r) (r ^^^ b.setWidth 32) := rfl

section
variable {n : Nat}

theorem reverse_shiftLeft_one (r : BitVec n) : (r <<< 1).reverse = r.reverse >>> 1 := by
  ext i hi
  simp [BitVec.getElem_reverse, BitVec.getMsbD_shiftLeft, BitVec.getLsbD_reverse, Nat.add_comm]

theorem reverse_xor (x y : BitVec n) : (x ^^^ y).reverse = x.reverse ^^^ y.reverse := by
  ext i hi
  simp [BitVec.getElem_reverse]

/-- The bits still to come stand in the reflected register, the next one lowest. -/
theorem crcBitRefl_reverse (poly r x : BitVec n) :
    crcBitRefl poly.reverse (r.reverse ^^^ x) = (crcBitMsb poly r (x.getLsbD 0)).reverse ^^^ x >>> 1 := by
  have low : (r.reverse ^^^ x).getLsbD 0 = (r.msb ^^ x.getLsbD 0) := by
    rw [BitVec.getLsbD_xor, BitVec.getLsbD_reverse, BitVec.msb]
  rw [crcBitRefl, crcBitMsb, low, BitVec.ushiftRight_xor_distrib, ← reverse_shiftLeft_one]
  split
  · rw [reverse_xor, BitVec.xor_assoc, BitVec.xor_comm (x >>> 1), BitVec.xor_assoc]
  · rfl

theorem foldl_crcBitRefl_reverse (poly r x : BitVec n) (k : Nat) :
    (List.range k).foldl (fun r _ => crcBitRefl poly.reverse r) (r.reverse ^^^ x) =
      ((List.range k).foldl (fun r i => crcBitMsb poly r (x.getLsbD i)) r).reverse ^^^ x >>> k := by
  induction k with
  | zero => simp
  | succ k ih =>
    have next : (x >>> k).getLsbD 0 = x.getLsbD k := by rw [BitVec.getLsbD_ushiftRight, Nat.add_zero]
    simp only [List.range_succ, List.foldl_append, List.foldl_cons, List.foldl_nil, ih]
    rw [crcBitRefl_reverse, next, BitVec.shiftRight_add]

end

theorem crcByteRefl_reverse (poly r : W32) (b : Byte) : crcByteRefl poly.reverse r.reverse b = (crcByteMsb poly r b.reverse).reverse := by
  have gone : b.setWidth 32 >>> 8 = 0#32 := by
    ext i hi
    simp
  have bits : ∀ (r : W32), ∀ i ∈ List.range 8, crcBitMsb poly r ((b.setWidth 32).getLsbD i) = crcBitMsb poly r (b.reverse.getLsbD (7 - i)) := by
    intro r i hi
    have hi : i < 8 := List.mem_range.mp hi
    have mirror : 8 - 1 - (7 - i) = i := by omega
    rw [BitVec.getLsbD_setWidth, BitVec.getLsbD_reverse, BitVec.getMsbD, mirror, decide_eq_true (by omega : i < 32),
      decide_eq_true (by omega : 7 - i < 8)]
  rw [crcByteRefl_eq, crcByteMsb_eq, foldl_crcBitRefl_reverse, gone, BitVec.xor_zero, List.foldl_ext _ _ _ bits]

theorem foldl_crcByteRefl_reverse (poly r : W32) (bs : List Byte) :
    bs.foldl (crcByteRefl poly.reverse) r.reverse = (bs.foldl (fun r b => crcByteMsb poly r b.reverse) r).reverse := by
  induction bs generalizing r with
  | nil => rfl
  | cons b bs ih => rw [List.foldl_cons, List.foldl_cons, crcByteRefl_reverse, ih]

theorem crc32c_eq (bs : List Byte) :
    crc32c bs = (bs.foldl (fun r b => crcByteMsb 0x1EDC6F41 r b.reverse) (0xFFFFFFFF : W32)).reverse ^^^ 0xFFFFFFFF := by
  have poly : (0x1EDC6F41 : W32).reverse = 0x82F63B78 := by decide +kernel
  have ones : (0xFFFFFFFF : W32).reverse = 0xFFFFFFFF := by decide +kernel
  have mirrored := foldl_crcByteRefl_reverse 0x1EDC6F41 0xFFFFFFFF bs
  rw [poly, ones] at mirrored
  rw [crc32c, mirrored]

theorem headerOf_bytes_drop (mode : CMode) (level len : Nat) (bs : List Byte) : (headerOf mode level len bs).bytes.drop 4 = leBytes 4 (crc32c bs) :=
  List.drop_left' (leBytes_length 4 _)

/-- Settles O51: the mirrored polynomial and register, the check value by running it, and the last four bytes of a header. -/
theorem chunkCrc : Obligations.ChunkCrc := ⟨crc32c_eq, by decide +kernel, headerOf_bytes_drop⟩

end Sys2Proof.Machine
end

section
/-! The token stream of a chunk (R80, R81): what an encoder may emit, and the decoder that reads it back token by token. -/

namespace Sys2Proof.Machine

/-! ### Packed bits -/

theorem natOfBits_testBit (bits : List Bool) (i : Nat) : (natOfBits bits).testBit i = bits.getD i false := by
  induction bits generalizing i with
  | nil => simp [natOfBits]
  | cons b bits ih =>
    rw [natOfBits]
    cases i with
    | zero => cases b <;> simp
    | succ i =>
      have half : ((if b = true then 1 else 0) + 2 * natOfBits bits) / 2 = natOfBits bits := by split <;> omega
      rw [Nat.testBit_succ, half, ih, List.getD_cons_succ]

theorem natOfBits_lt (bits : List Bool) : natOfBits bits < 2 ^ bits.length := by
  induction bits with
  | nil => simp [natOfBits]
  | cons b bits ih => rw [natOfBits, List.length_cons, Nat.pow_succ]; split <;> omega

theorem fieldBits_natOfBits {n : Nat} {bits : List Bool} (h : bits.length ≤ n) :
    fieldBits n (natOfBits bits) = bits ++ List.replicate (n - bits.length) false := by
  refine List.ext_getElem (by simp [fieldBits_length, h]) fun i hi _ => ?_
  rw [fieldBits_length] at hi
  simp only [fieldBits, List.getElem_map, List.getElem_range, natOfBits_testBit, List.getElem_append, List.getElem_replicate]
  split <;> rename_i hb
  · exact (List.getElem_eq_getD false).symm
  · exact List.getD_eq_default _ _ (by omega)

theorem packBits_length (bits : List Bool) : (packBits bits).length = (bits.length + 7) / 8 := by simp [packBits]

theorem packBits_step {bits : List Bool} (h : bits ≠ []) :
    packBits bits = BitVec.ofNat 8 (natOfBits (bits.take 8)) :: packBits (bits.drop 8) := by
  have nonempty := List.length_pos_iff.mpr h
  have count : (bits.length + 7) / 8 = ((bits.drop 8).length + 7) / 8 + 1 := by rw [List.length_drop]; omega
  rw [packBits, count, List.range_succ_eq_map, List.map_cons, List.map_map, packBits]
  simp only [Function.comp_def, List.drop_drop, Nat.mul_succ, Nat.mul_zero, List.drop_zero, Nat.add_comm 8]

/-- The bits of packed bits are the bits themselves and at most seven zeros. -/
theorem bitsOf_packBits (bits : List Bool) : ∃ pad < 8, bitsOf (packBits bits) = bits ++ List.replicate pad false := by
  by_cases h : bits = []
  · exact ⟨0, by decide, by subst h; rfl⟩
  have nonempty := List.length_pos_iff.mpr h
  have first := fieldBits_natOfBits (List.length_take_le 8 bits)
  have small : natOfBits (bits.take 8) < 2 ^ 8 :=
    Nat.lt_of_lt_of_le (natOfBits_lt _) (Nat.pow_le_pow_right (by decide) (List.length_take_le 8 bits))
  rw [packBits_step h, bitsOf_cons, BitVec.toNat_ofNat, Nat.mod_eq_of_lt small, first]
  by_cases long : 8 ≤ bits.length
  · obtain ⟨pad, hpad, rest⟩ := bitsOf_packBits (bits.drop 8)
    refine ⟨pad, hpad, ?_⟩
    rw [rest, List.length_take_of_le long, Nat.sub_self, List.replicate_zero, List.append_nil, ← List.append_assoc, List.take_append_drop]
  · have short : bits.length ≤ 8 := by omega
    refine ⟨8 - bits.length, by omega, ?_⟩
    rw [List.drop_eq_nil_of_le short, List.take_of_length_le short]
    exact List.append_nil _
termination_by bits.length
decreasing_by rw [List.length_drop]; omega

/-! ### One token read back -/

section
variable {n : Nat} {out : List Byte} {r : List Bool} (fuel : Nat)

theorem decodeTokens_lit {bs : List Byte} (nonempty : bs ≠ []) (run : bs.length ≤ 64) (fits : n + bs.length ≤ 1024) :
    decodeTokens (fuel + 1) n out ((Token.lit bs).bits ++ r) = decodeTokens fuel (n + bs.length) (bs.reverse ++ out) r := by
  have pos := List.length_pos_iff.mpr nonempty
  have len : bs.length - 1 + 1 = bs.length := by omega
  rw [Token.bits, List.cons_append, List.append_assoc, decodeTokens, takeField_fieldBits 6 _ _ (by omega)]
  simp only [Nat.add_assoc, len, if_neg (Nat.not_lt.mpr fits), readLits_bitsOf]

theorem readOffset_offsetBits {off : Nat} (least : 1 ≤ off) (most : off ≤ 1023) : readOffset (offsetBits off ++ r) = some (off, r) := by
  rw [offsetBits]
  split
  · rw [List.cons_append, readOffset, takeField_fieldBits 6 _ _ (by omega), Option.map_some, Nat.sub_add_cancel least]
  · simp only [List.cons_append, readOffset, takeField_fieldBits 10 off r (by omega)]
    exact if_neg (by omega)

theorem readMatch_offsetBits {len off : Nat} (least : 1 ≤ off) (most : off ≤ 1023) (inside : off ≤ n) (fits : n + len ≤ 1024) :
    readMatch len n out (offsetBits off ++ r) = some (n + len, copyBack off len out, r) := by
  simp only [readMatch, readOffset_offsetBits least most]
  exact if_neg (by omega)

theorem decodeTokens_mat {len off : Nat} (hlen : 4 ≤ len ∧ len ≤ 259) (least : 1 ≤ off) (most : off ≤ 1023) (inside : off ≤ n)
    (fits : n + len ≤ 1024) :
    decodeTokens (fuel + 1) n out ((Token.mat len off).bits ++ r) = decodeTokens fuel (n + len) (copyBack off len out) r := by
  rw [Token.bits]
  split
  · have short : len - 4 + 4 = len := by omega
    simp only [List.cons_append, List.append_assoc, decodeTokens, takeField_fieldBits 3 (len - 4) _ (by omega), short,
      readMatch_offsetBits least most inside fits]
  · have long : len - 12 + 12 = len := by omega
    simp only [List.cons_append, List.append_assoc, decodeTokens, takeField_fieldBits 8 (len - 12) _ (by omega), long,
      if_neg (by omega : ¬ len - 12 > 247), readMatch_offsetBits least most inside fits]

theorem decodeTokens_end : decodeTokens (fuel + 1) n out ([true, true, true] ++ r) = some (n, out, r) := rfl

end

/-! ### What an encoder may emit -/

/-- The bytes of a chunk from p on match the earlier ones from c on, over a length that a MATCH can name. -/
structure Matches (all : List Byte) (p c len : Nat) : Prop where
  earlier : c < p
  least : 4 ≤ len
  most : len ≤ 259
  fits : p + len ≤ all.length
  same : ∀ i < len, all[c + i]? = all[p + i]?

/-- The tokens, newest first, spell the first n bytes of the chunk: literal runs of 1 to 64 bytes of it, and matches. -/
inductive Spells (all : List Byte) : List Token → Nat → Prop where
  | nil : Spells all [] 0
  | lit {ts : List Token} {n : Nat} {bs : List Byte} :
    Spells all ts n → bs ≠ [] → bs.length ≤ 64 → bs <+: all.drop n → Spells all (.lit bs :: ts) (n + bs.length)
  | mat {ts : List Token} {n c len : Nat} : Spells all ts n → Matches all n c len → Spells all (.mat len (n - c) :: ts) (n + len)

section
variable {all : List Byte} {ts : List Token} {n : Nat}

theorem Spells.le_length (h : Spells all ts n) : n ≤ all.length := by
  induction h with
  | nil => exact Nat.zero_le _
  | lit _ _ _ run ih =>
    have := run.length_le
    rw [List.length_drop] at this
    omega
  | mat _ m _ => exact m.fits

/-- Each token spells at least one byte. -/
theorem Spells.tokens_le (h : Spells all ts n) : ts.length ≤ n := by
  induction h with
  | nil => exact Nat.le_refl _
  | lit _ nonempty _ _ ih =>
    have := List.length_pos_iff.mpr nonempty
    rw [List.length_cons]; omega
  | mat _ m ih =>
    have := m.least
    rw [List.length_cons]; omega

/-- The output so far, newest first, and a run of the next bytes are the output after the run. -/
theorem reverse_append_take {bs : List Byte} (run : bs <+: all.drop n) : bs.reverse ++ (all.take n).reverse = (all.take (n + bs.length)).reverse := by
  rw [← List.reverse_append, List.take_add, ← List.prefix_iff_eq_take.mp run]

/-- A copy writes the bytes that the match found equal, even those that it has just written itself. -/
theorem copyBack_take {c len : Nat} (earlier : c < n) (fits : n + len ≤ all.length) (same : ∀ i < len, all[c + i]? = all[n + i]?) :
    copyBack (n - c) len (all.take n).reverse = (all.take (n + len)).reverse := by
  induction len generalizing n c with
  | zero => rfl
  | succ len ih =>
    have copied : (all.take n).reverse.getD (n - c - 1) 0 = all[n] := by
      have := same 0 (Nat.succ_pos _)
      rw [List.getD_eq_getElem?_getD, List.getElem?_reverse (by rw [List.length_take]; omega), List.length_take,
        show min n all.length - 1 - (n - c - 1) = c by omega, List.getElem?_take_of_lt earlier, show all[c]? = all[n]? from this,
        List.getElem?_eq_getElem (by omega), Option.getD_some]
    have longer : all[n] :: (all.take n).reverse = (all.take (n + 1)).reverse := by
      rw [List.take_succ_eq_append_getElem (by omega), List.reverse_append]; rfl
    have next := ih (n := n + 1) (c := c + 1) (by omega) (by omega) fun i hi => by
      simpa only [Nat.add_assoc, Nat.add_comm 1] using same (i + 1) (by omega)
    rwa [Nat.add_sub_add_right, Nat.add_assoc, Nat.add_comm 1, ← longer, ← copied] at next

/-- The decoder reads the tokens that spell the beginning of a chunk and has that beginning as its output. -/
theorem decodeTokens_spells (chunk : all.length = 1024) (h : Spells all ts n) (fuel : Nat) (r : List Bool) :
    decodeTokens (fuel + ts.length) 0 [] (ts.reverse.flatMap Token.bits ++ r) = decodeTokens fuel n (all.take n).reverse r := by
  induction h generalizing fuel r with
  | nil => rfl
  | lit spelt nonempty run pre ih =>
    have fits := (Spells.lit spelt nonempty run pre).le_length
    rw [List.length_cons, List.reverse_cons, List.flatMap_append, List.append_assoc, ← Nat.add_assoc, Nat.add_right_comm, ih, List.flatMap_singleton,
      decodeTokens_lit fuel nonempty run (by omega), reverse_append_take pre]
  | mat spelt m ih =>
    obtain ⟨earlier, least, most, fits, same⟩ := m
    rw [List.length_cons, List.reverse_cons, List.flatMap_append, List.append_assoc, ← Nat.add_assoc, Nat.add_right_comm, ih, List.flatMap_singleton,
      decodeTokens_mat fuel ⟨least, most⟩ (by omega) (by omega) (by omega) (by omega), copyBack_take earlier fits same]

/-- A stream that is emitted is that of its tokens and END, and fits in 952 bytes (R85). -/
theorem tokenStream_some {st : List Byte} (fits : tokenStream ts = some st) :
    st = packBits (ts.flatMap Token.bits ++ [true, true, true]) ∧ (ts.flatMap Token.bits ++ [true, true, true]).length ≤ 952 * 8 := by
  simp only [tokenStream] at fits
  split at fits
  · next short => exact ⟨(Option.some.inj fits).symm, short⟩
  · cases fits

theorem tokenStream_length {st : List Byte} (fits : tokenStream ts = some st) : 1 ≤ st.length ∧ st.length ≤ 952 := by
  obtain ⟨rfl, short⟩ := tokenStream_some fits
  have theEnd : 3 ≤ (ts.flatMap Token.bits ++ [true, true, true]).length := by rw [List.length_append]; exact Nat.le_add_left 3 _
  rw [packBits_length]
  omega

/-- The stream of the tokens that spell a chunk decodes to the chunk. -/
theorem decodeCoded_tokenStream (chunk : all.length = 1024) (h : Spells all ts 1024) {st : List Byte} (fits : tokenStream ts.reverse = some st) :
    decodeCoded st = some all := by
  obtain ⟨rfl, -⟩ := tokenStream_some fits
  obtain ⟨pad, hpad, bits⟩ := bitsOf_packBits (ts.reverse.flatMap Token.bits ++ [true, true, true])
  have tokens := h.tokens_le
  have fuel : 1025 = (1024 - ts.length + 1) + ts.length := by omega
  rw [decodeCoded, bits, List.append_assoc, fuel, decodeTokens_spells chunk h, decodeTokens_end]
  simp [hpad, ← chunk]

end

end Sys2Proof.Machine
end

section
/-! The encoders (R83, R84): whatever the hash table offers, a match is verified byte by byte, so the tokens of both passes spell the chunk. -/

namespace Sys2Proof.Machine

/-! ### Verified matches -/

theorem agree_spec (k : Nat) (x y : List Byte) :
    agree k x y ≤ k ∧ agree k x y ≤ y.length ∧ ∀ i < agree k x y, x[i]? = y[i]? := by
  induction k, x, y using agree.induct with
  | case1 => simp [agree]
  | case2 => simp [agree]
  | case3 => simp [agree]
  | case4 k a x y ih =>
    obtain ⟨most, fits, same⟩ := ih
    rw [agree, if_pos rfl]
    refine ⟨Nat.succ_le_succ most, Nat.succ_le_succ fits, ?_⟩
    rintro (_ | i) hi
    · rfl
    · exact same i (by omega)
  | case5 k a x b y differ => simp [agree, differ]

section
variable {all : List Byte} {p : Nat}

theorem matches_of_agree {c : Nat} (earlier : c < p) (inside : p ≤ all.length) (least : 4 ≤ agree 259 (all.drop c) (all.drop p)) :
    Matches all p c (agree 259 (all.drop c) (all.drop p)) := by
  obtain ⟨most, fits, same⟩ := agree_spec 259 (all.drop c) (all.drop p)
  rw [List.length_drop] at fits
  refine ⟨earlier, least, most, by omega, fun i hi => ?_⟩
  simpa only [List.getElem?_drop] using same i hi

/-! ### Pending literals -/

/-- The tokens and the pending literals, both newest first, spell the first p bytes of the chunk; the run is not due yet. -/
structure Reaches (all : List Byte) (p : Nat) (pend : List Byte) (ts : List Token) : Prop where
  started : pend.length ≤ p
  short : pend.length < 64
  run : pend.reverse <+: all.drop (p - pend.length)
  spelt : Spells all ts (p - pend.length)

variable {pend : List Byte} {ts : List Token}

theorem Spells.reaches (h : Spells all ts p) : Reaches all p [] ts := ⟨Nat.zero_le _, by decide, List.nil_prefix, h⟩

/-- A run that is emitted spells its literals. -/
theorem Spells.run (h : Spells all ts (p - pend.length)) (started : pend.length ≤ p) (nonempty : pend ≠ []) (run : pend.length ≤ 64)
    (pre : pend.reverse <+: all.drop (p - pend.length)) : Spells all (.lit pend.reverse :: ts) p := by
  have spelt := Spells.lit h (mt List.reverse_eq_nil_iff.mp nonempty) (by rwa [List.length_reverse]) pre
  rwa [List.length_reverse, Nat.sub_add_cancel started] at spelt

theorem Reaches.flush (h : Reaches all p pend ts) : Spells all (flushLits pend ts) p := by
  obtain ⟨started, short, run, spelt⟩ := h
  cases pend with
  | nil => exact spelt
  | cons b pend => exact spelt.run started (List.cons_ne_nil b pend) (by omega) run

theorem Reaches.literal (h : Reaches all p pend ts) {b : Byte} (next : all[p]? = some b) :
    Reaches all (p + 1) (addLit b pend ts).1 (addLit b pend ts).2 := by
  obtain ⟨started, short, run, spelt⟩ := h
  have start : p + 1 - (b :: pend).length = p - pend.length := by rw [List.length_cons]; omega
  have longer : (b :: pend).reverse <+: all.drop (p - pend.length) := by
    obtain ⟨tail, htail⟩ := run
    have after : tail = all.drop p := by
      have := congrArg (List.drop pend.length) htail
      rwa [← List.length_reverse, List.drop_left, List.length_reverse, List.drop_drop, Nat.sub_add_cancel started] at this
    obtain ⟨inside, hb⟩ := List.getElem?_eq_some_iff.mp next
    refine ⟨all.drop (p + 1), ?_⟩
    rw [← htail, after, List.drop_eq_getElem_cons inside, hb, List.reverse_cons, List.append_assoc]
    rfl
  unfold addLit
  split
  · refine Spells.reaches (Spells.run (pend := b :: pend) (start ▸ spelt) (Nat.succ_le_succ started) (List.cons_ne_nil b pend) ?_ (start ▸ longer))
    rw [List.length_cons]; omega
  · exact ⟨Nat.succ_le_succ started, by rw [List.length_cons]; omega, start ▸ longer, start ▸ spelt⟩

/-- A match follows the pending run. -/
theorem Reaches.matched (h : Reaches all p pend ts) {c len : Nat} (m : Matches all p c len) :
    Reaches all (p + len) [] (.mat len (p - c) :: flushLits pend ts) := (h.flush.mat m).reaches

/-! ### The line-rate compressor (R83) -/

/-- The table holds positions before p alone. -/
def HeadsBefore (p : Nat) (tab : Tab (Option Nat)) : Prop := ∀ h c, Tab.get (fun _ => none) tab h = some c → c < p

theorem HeadsBefore.mono {q : Nat} {tab : Tab (Option Nat)} (heads : HeadsBefore p tab) (le : p ≤ q) : HeadsBefore q tab :=
  fun h c hc => Nat.lt_of_lt_of_le (heads h c hc) le

theorem HeadsBefore.insert {tab : Tab (Option Nat)} (heads : HeadsBefore p tab) (h : Nat) :
    HeadsBefore (p + 1) (Tab.set (fun _ => none) h (some p) tab) := by
  intro k c hc
  rw [Tab.get_set] at hc
  split at hc
  · cases hc; exact Nat.lt_succ_self p
  · exact Nat.lt_succ_of_lt (heads k c hc)

theorem lineRate_spells (fuel : Nat) {tab : Tab (Option Nat)} (enough : all.length < p + fuel) (inside : p ≤ all.length)
    (heads : HeadsBefore p tab) (h : Reaches all p pend ts) :
    Spells all (lineRate all fuel p (all.drop p) tab pend ts) all.length := by
  induction fuel generalizing p tab pend ts with
  | zero => omega
  | succ fuel ih =>
    cases rest : all.drop p with
    | nil =>
      have atEnd : p = all.length := Nat.le_antisymm inside (List.drop_eq_nil_iff.mp rest)
      rw [lineRate]
      exact atEnd ▸ h.flush
    | cons b tail =>
      have next : all[p]? = some b := by rw [← List.head?_drop, rest, List.head?_cons]
      obtain rfl : all.drop (p + 1) = tail := by rw [List.drop_add_one_eq_tail_drop, rest, List.tail_cons]
      obtain ⟨more, -⟩ := List.getElem?_eq_some_iff.mp next
      rw [lineRate, ← rest]
      split
      · exact ih (by omega) more (heads.mono (Nat.le_succ p)) (h.literal next)
      · have heads' := heads.insert (lerzHash (all.drop p))
        dsimp only
        cases cand : Tab.get (fun _ => none) tab (lerzHash (all.drop p)) with
        | none => exact ih (by omega) more heads' (h.literal next)
        | some c =>
          dsimp only
          split
          · next least =>
            have m := matches_of_agree (heads _ c cand) inside least
            rw [List.drop_drop]
            exact ih (by omega) m.fits (heads'.mono (by omega)) (h.matched m)
          · exact ih (by omega) more heads' (h.literal next)

/-! ### The deep engine (R84) -/

/-- Every chain holds positions before p alone. -/
def ChainsBefore (p : Nat) (tab : Tab (List Nat)) : Prop := ∀ h, ∀ c ∈ Tab.get (fun _ => []) tab h, c < p

theorem ChainsBefore.mono {q : Nat} {tab : Tab (List Nat)} (chains : ChainsBefore p tab) (le : p ≤ q) : ChainsBefore q tab :=
  fun h c hc => Nat.lt_of_lt_of_le (chains h c hc) le

theorem ChainsBefore.insert {q : Nat} {tab : Tab (List Nat)} (chains : ChainsBefore q tab) (before : p < q) :
    ChainsBefore q (deepInsert all p tab) := by
  unfold deepInsert
  split
  · exact chains
  · intro h c hc
    rw [Tab.get_set] at hc
    split at hc
    · rcases List.mem_cons.mp hc with rfl | hc
      · exact before
      · exact chains _ c hc
    · exact chains h c hc

theorem ChainsBefore.insertAll {q k : Nat} {tab : Tab (List Nat)} (chains : ChainsBefore q tab) (before : p + k ≤ q) :
    ChainsBefore q ((List.range k).foldl (fun t i => deepInsert all (p + i) t) tab) := by
  induction k with
  | zero => exact chains
  | succ k ih =>
    rw [List.range_succ, List.foldl_append]
    exact (ih (by omega)).insert (by omega)

/-- What a search has found, if it is long enough to name, is a match. -/
def Found (all : List Byte) (p : Nat) (m : Nat × Nat) : Prop := 4 ≤ m.1 → ∃ c, m.2 = p - c ∧ Matches all p c m.1

theorem bestMatch_found (inside : p ≤ all.length) (nice : Nat) (chain : List Nat) {best : Nat × Nat} (earlier : ∀ c ∈ chain, c < p)
    (found : Found all p best) : Found all p (bestMatch all p nice chain best) := by
  induction chain generalizing best with
  | nil => exact found
  | cons c chain ih =>
    have goOn : ∀ b, Found all p b → Found all p (if b.1 ≥ nice then b else bestMatch all p nice chain b) := fun b hb => by
      split
      · exact hb
      · exact ih (fun c hc => earlier c (List.mem_cons_of_mem _ hc)) hb
    rw [bestMatch]
    refine goOn _ ?_
    split
    · exact fun least => ⟨c, rfl, matches_of_agree (earlier c List.mem_cons_self) inside least⟩
    · exact found

theorem deepSearch_found (inside : p ≤ all.length) (depth nice : Nat) {tab : Tab (List Nat)} (chains : ChainsBefore p tab) :
    Found all p (deepSearch all depth nice p tab) := by
  have nothing : Found all p (0, 0) := fun h => absurd h (by decide)
  rw [deepSearch]
  split
  · exact nothing
  · exact bestMatch_found inside nice _ (fun c hc => chains _ c (List.mem_of_mem_take hc)) nothing

theorem deepPass_spells (chunk : all.length = 1024) (depth : Nat) (lazy : Bool) (nice fuel : Nat) {tab : Tab (List Nat)} (enough : 1024 < p + fuel)
    (inside : p ≤ 1024) (chains : ChainsBefore p tab) (h : Reaches all p pend ts) :
    Spells all (deepPass all depth lazy nice fuel p tab pend ts) 1024 := by
  induction fuel generalizing p tab pend ts with
  | zero => omega
  | succ fuel ih =>
    rw [deepPass]
    split
    · next atEnd => exact Nat.le_antisymm inside atEnd ▸ h.flush
    · have found := deepSearch_found (by omega) depth nice chains (all := all)
      have chains' : ChainsBefore (p + 1) (deepInsert all p tab) := (chains.mono (Nat.le_succ p)).insert (Nat.lt_succ_self p)
      have next : all[p]? = some (all.getD p 0) := by
        rw [List.getElem?_eq_getElem (by omega), List.getElem_eq_getD]
      dsimp only
      split
      · next taken =>
        obtain ⟨c, off, m⟩ := found taken.1
        have fits := m.fits
        rw [off]
        exact ih (by omega) (by omega) ((chains'.mono (by omega)).insertAll (by omega)) (h.matched m)
      · exact ih (by omega) (by omega) chains' (h.literal next)

end

/-- The tokens of a chunk at any level spell it. -/
theorem chunkTokens_spells (level : Nat) {bs : List Byte} (chunk : bs.length = 1024) : Spells bs (chunkTokens level bs).reverse 1024 := by
  have start : Reaches bs 0 [] [] := Spells.reaches .nil
  unfold chunkTokens
  split
  · rw [List.reverse_reverse]
    exact chunk ▸ lineRate_spells 1025 (by omega) (Nat.zero_le _) (fun _ _ h => nomatch h) start
  · rw [List.reverse_reverse]
    exact deepPass_spells chunk _ _ _ 1025 (by decide) (by decide) (fun _ _ h => nomatch h) start

end Sys2Proof.Machine
end

section
/-! The forms of a chunk (R75, R76, R78, R79): header and content of each form, which the decoder reads back in a bin and in a frame. -/

namespace Sys2Proof.Machine

/-- MODE of the header that a form carries; the headerless forms take their MODE outside bins (R79). -/
def ChunkForm.mode : ChunkForm → CMode
  | .absent => .zero
  | .rep _ => .rep
  | .coded _ => .coded
  | .raw => .raw

/-- The bytes that follow the header. -/
def ChunkForm.content (bs : List Byte) : ChunkForm → List Byte
  | .absent => []
  | .rep p => p
  | .coded st => st
  | .raw => bs

/-- What a form says of the chunk that it is a form of. -/
def ChunkForm.Codes (bs : List Byte) : ChunkForm → Prop
  | .absent => bs = zeros 1024
  | .rep p => p = bs.take 8 ∧ bs = (List.replicate 128 p).flatten
  | .coded st => decodeCoded st = some bs ∧ 1 ≤ st.length ∧ st.length ≤ 952
  | .raw => True

section
variable {bs : List Byte} (chunk : bs.length = 1024)
include chunk

theorem formOf_codes (level : Nat) (poison : Bool) : (formOf level poison bs).Codes bs := by
  unfold formOf
  split
  · trivial
  split
  · next zero =>
    exact List.eq_replicate_iff.mpr ⟨chunk, fun b hb => beq_iff_eq.mp (List.all_eq_true.mp zero b hb)⟩
  split
  · next repeats => exact ⟨rfl, beq_iff_eq.mp repeats⟩
  split
  · next st fits =>
    have spells := chunkTokens_spells level chunk
    rw [← List.reverse_reverse (chunkTokens level bs)] at fits
    exact ⟨decodeCoded_tokenStream chunk spells fits, tokenStream_length fits⟩
  · trivial

end

/-- The header of a form. -/
def ChunkForm.header (level : Nat) (bs : List Byte) (f : ChunkForm) : CHeader := headerOf f.mode level (f.content bs).length bs

/-- LEVEL has four bits. -/
theorem headerOf_bytes_level (mode : CMode) (level len : Nat) (bs : List Byte) :
    (headerOf mode level len bs).bytes = (headerOf mode (level % 16) len bs).bytes := by
  simp [CHeader.bytes, CHeader.control, headerOf]

theorem length_padTo {n : Nat} (pos : 0 < n) (bs : List Byte) : (padTo n bs).length = ceilDiv bs.length n * n := by
  have covers := Nat.lt_div_mul_add (a := bs.length + n - 1) pos
  rw [padTo, List.length_append, zeros, List.length_replicate, ceilDiv]
  omega

theorem padTo_of_dvd {n : Nat} (pos : 0 < n) {bs : List Byte} (h : n ∣ bs.length) : padTo n bs = bs := by
  obtain ⟨k, hk⟩ := h
  have whole : ceilDiv bs.length n * n = bs.length := by
    rw [ceilDiv, hk, Nat.add_sub_assoc pos, Nat.mul_add_div pos, Nat.div_eq_of_lt (by omega), Nat.add_zero, Nat.mul_comm]
  rw [padTo, whole, Nat.sub_self]
  exact List.append_nil bs

section
variable {f : ChunkForm} {bs : List Byte} (chunk : bs.length = 1024)
include chunk

theorem ChunkForm.Codes.rep_length {p : List Byte} (codes : (ChunkForm.rep p).Codes bs) : p.length = 8 := by
  obtain ⟨first, -⟩ := codes
  rw [first, List.length_take, chunk]
  rfl

variable (codes : f.Codes bs)
include codes

/-- LEN is one that MODE permits. -/
theorem ChunkForm.Codes.lenOk (level : Nat) : (f.header level bs).lenOk = true := by
  cases f with
  | absent => rfl
  | rep p => exact beq_iff_eq.mpr (codes.rep_length chunk)
  | coded st =>
    obtain ⟨-, least, most⟩ := codes
    exact Bool.and_eq_true_iff.mpr ⟨decide_eq_true least, decide_eq_true most⟩
  | raw => exact beq_iff_eq.mpr chunk

theorem ChunkForm.Codes.content_le : (f.content bs).length ≤ 1024 := by
  cases f with
  | absent => exact Nat.zero_le _
  | rep p => exact Nat.le_trans (Nat.le_of_eq (codes.rep_length chunk)) (by decide)
  | coded st =>
    obtain ⟨-, -, most⟩ := codes
    exact Nat.le_trans most (by decide)
  | raw => exact Nat.le_of_eq chunk

/-- The decoder reads every form back, and no byte after its content (R81, R82). -/
theorem ChunkForm.Codes.decodeChunk_content (level : Nat) (r : List Byte) : decodeChunk (f.header level bs) (f.content bs ++ r) = .ok bs := by
  cases f with
  | absent => simp [decodeChunk, ChunkForm.header, headerOf, ChunkForm.mode, ChunkForm.content, ← show bs = zeros 1024 from codes]
  | rep p =>
    have len := codes.rep_length chunk
    obtain ⟨-, repeats⟩ := codes
    simp [decodeChunk, ChunkForm.header, headerOf, ChunkForm.mode, ChunkForm.content, List.take_left' len, len, ← repeats,
      -List.reduceReplicate]
  | coded st =>
    obtain ⟨decodes, least, most⟩ := codes
    simp [decodeChunk, ChunkForm.header, headerOf, ChunkForm.mode, ChunkForm.content, least, most, decodes]
  | raw => simp [decodeChunk, ChunkForm.header, headerOf, ChunkForm.mode, ChunkForm.content, chunk]

theorem ChunkForm.Codes.parse_header (level : Nat) (r : List Byte) :
    CHeader.parse ((f.header level bs).bytes ++ r) = f.header (level % 16) bs := by
  have len := codes.content_le chunk
  rw [ChunkForm.header, headerOf_bytes_level]
  exact CHeader.parse_bytes _ r (Nat.one_lt_succ_succ 14) (Nat.mod_lt _ (by decide)) (Nat.lt_of_le_of_lt len (by decide))

/-! ### In a bin (R78) -/

theorem ChunkForm.Codes.decodeStored_padTo {cnt : Nat} (pos : 0 < cnt) (lt : cnt < 16) (level : Nat) :
    decodeStored cnt (padTo 64 ((f.header level bs).bytes ++ f.content bs)) = some bs := by
  rw [decodeStored, if_neg (by omega), if_neg (by omega), padTo, List.append_assoc, codes.parse_header chunk, List.drop_left' (CHeader.bytes_length _),
    codes.decodeChunk_content chunk]

theorem ChunkForm.Codes.decodeStored_stored (level : Nat) : decodeStored (f.stored level bs).1 (f.stored level bs).2 = some bs := by
  cases f with
  | absent => exact congrArg some codes.symm
  | raw => exact congrArg some (List.take_of_length_le (Nat.le_of_eq chunk))
  | rep p =>
    have decodes := codes.decodeStored_padTo chunk (cnt := 1) (by decide) (by decide) level
    rwa [ChunkForm.header, ChunkForm.content, codes.rep_length chunk] at decodes
  | coded st =>
    have granules : (padTo 64 ((headerOf .coded level st.length bs).bytes ++ st)).length / 64 = ceilDiv (8 + st.length) 64 := by
      rw [length_padTo (by decide), Nat.mul_div_cancel _ (by decide), List.length_append, CHeader.bytes_length]
    have bounds : 0 < ceilDiv (8 + st.length) 64 ∧ ceilDiv (8 + st.length) 64 < 16 := by
      have ⟨_, least, most⟩ := codes
      unfold ceilDiv
      omega
    rw [← granules] at bounds
    exact codes.decodeStored_padTo chunk bounds.1 bounds.2 level

/-! ### In a frame (R79) -/

theorem ChunkForm.Codes.frame_eq (level : Nat) : f.frame level bs = padTo 8 ((f.header level bs).bytes ++ f.content bs) := by
  have whole : 8 ∣ (f.content bs).length → padTo 8 ((f.header level bs).bytes ++ f.content bs) = (f.header level bs).bytes ++ f.content bs := by
    intro h
    refine padTo_of_dvd (by decide) ?_
    rw [List.length_append, CHeader.bytes_length]
    exact Nat.dvd_add (Nat.dvd_refl 8) h
  cases f with
  | absent => exact (List.append_nil _).symm.trans (whole (Nat.dvd_zero 8)).symm
  | rep p =>
    have len := codes.rep_length chunk
    rw [whole (Dvd.intro_left 1 len.symm), ChunkForm.header, ChunkForm.content, len]
    rfl
  | coded st => rfl
  | raw =>
    rw [whole (Dvd.intro_left 128 chunk.symm), ChunkForm.header, ChunkForm.content, chunk]
    rfl

theorem ChunkForm.Codes.readFrame_frame (level : Nat) (rest : List Byte) : readFrame (f.frame level bs ++ rest) = .ok bs rest := by
  have total : ceilDiv (8 + (f.header (level % 16) bs).len) 8 * 8 = (f.frame level bs).length := by
    rw [codes.frame_eq chunk, length_padTo (by decide), List.length_append, CHeader.bytes_length]
    rfl
  obtain ⟨tail, split⟩ : ∃ tail, f.frame level bs ++ rest = (f.header level bs).bytes ++ (f.content bs ++ tail) :=
    ⟨_, by rw [codes.frame_eq chunk, padTo, List.append_assoc, List.append_assoc]⟩
  have parsed : CHeader.parse (f.frame level bs ++ rest) = f.header (level % 16) bs := by rw [split, codes.parse_header chunk]
  have decoded : decodeChunk (f.header (level % 16) bs) ((f.frame level bs ++ rest).drop 8) = .ok bs := by
    rw [split, List.drop_left' (CHeader.bytes_length _), codes.decodeChunk_content chunk]
  have header : ¬ (f.frame level bs ++ rest).length < 8 := by rw [split, List.length_append, CHeader.bytes_length]; omega
  have frame : ¬ (f.frame level bs ++ rest).length < (f.frame level bs).length := by rw [List.length_append]; omega
  simp only [readFrame, if_neg header, parsed, codes.lenOk chunk, total, if_neg frame, decoded, List.drop_left]
  rfl

end

/-- Settles O49: the tokens of every level spell the chunk, and every form decodes. -/
theorem storedChunksDecode : Obligations.StoredChunksDecode := fun level poison _ chunk =>
  (formOf_codes chunk level poison).decodeStored_stored chunk level

/-- Settles O50: as O49, with the frame's padding before what follows. -/
theorem framesDecode : Obligations.FramesDecode := fun level poison _ rest chunk =>
  (formOf_codes chunk level poison).readFrame_frame chunk level rest

end Sys2Proof.Machine
end

section
/-! The cipher of a line (05 R96, R100): four blocks, each of its own, and in a block the tweak is XORed before and after the permutation. -/

namespace Sys2Proof.Machine

/-- Block j of a line. -/
def blockOfLine (x : Line) (j : Nat) : BitVec 128 := x.extractLsb' (128 * j) 128

/-- The line of four blocks, block 0 lowest. -/
def lineOfBlocks (b : Nat → BitVec 128) : Line := b 3 ++ b 2 ++ b 1 ++ b 0

theorem encLine_eq (k : Key) (seq b0 : Nat) (x : Line) :
    encLine k seq b0 x = lineOfBlocks fun j => xtsEnc k seq (b0 + j) (blockOfLine x j) := rfl

theorem decLine_eq (k : Key) (seq b0 : Nat) (x : Line) :
    decLine k seq b0 x = lineOfBlocks fun j => xtsDec k seq (b0 + j) (blockOfLine x j) := rfl

/-- Bit i of a line is bit i % 128 of block i / 128. -/
theorem getLsbD_lineOfBlocks {b : Nat → BitVec 128} {i : Nat} (hi : i < 512) : (lineOfBlocks b).getLsbD i = (b (i / 128)).getLsbD (i % 128) := by
  show (b 3 ++ b 2 ++ b 1 ++ b 0 : BitVec (128 + 128 + 128 + 128)).getLsbD i = _
  rw [BitVec.getLsbD_append, BitVec.getLsbD_append, BitVec.getLsbD_append]
  have block {j r : Nat} (below : r < 128) (place : i = 128 * j + r) : (b j).getLsbD r = (b (i / 128)).getLsbD (i % 128) := by
    rw [place, Nat.mul_add_div (by decide), Nat.mul_add_mod, Nat.div_eq_of_lt below, Nat.mod_eq_of_lt below, Nat.add_zero]
  split_ifs <;> exact block (by omega) (by omega)

/-- A line is its four blocks. -/
theorem lineOfBlocks_blockOfLine (x : Line) : lineOfBlocks (blockOfLine x) = x := by
  refine BitVec.eq_of_getLsbD_eq fun i hi => ?_
  rw [getLsbD_lineOfBlocks hi, blockOfLine, BitVec.getLsbD_extractLsb', Nat.div_add_mod, decide_eq_true (Nat.mod_lt i (by decide)), Bool.true_and]

theorem blockOfLine_lineOfBlocks (b : Nat → BitVec 128) {j : Nat} (hj : j < 4) : blockOfLine (lineOfBlocks b) j = b j := by
  refine BitVec.eq_of_getLsbD_eq fun i hi => ?_
  rw [blockOfLine, BitVec.getLsbD_extractLsb', getLsbD_lineOfBlocks (by omega), Nat.mul_add_div (by decide), Nat.mul_add_mod, Nat.div_eq_of_lt hi,
    Nat.mod_eq_of_lt hi, decide_eq_true hi, Bool.true_and, Nat.add_zero]

theorem lineOfBlocks_congr {b c : Nat → BitVec 128} (h : ∀ j < 4, b j = c j) : lineOfBlocks b = lineOfBlocks c := by
  simp [lineOfBlocks, h]

/-- What is undone in every block is undone in the line. -/
theorem lineOfBlocks_undo {f g : Nat → BitVec 128 → BitVec 128} (undo : ∀ j y, g j (f j y) = y) (x : Line) :
    (lineOfBlocks fun j => g j (blockOfLine (lineOfBlocks fun j => f j (blockOfLine x j)) j)) = x := by
  have blocks : ∀ j < 4, g j (blockOfLine (lineOfBlocks fun j => f j (blockOfLine x j)) j) = blockOfLine x j := fun j hj => by
    rw [blockOfLine_lineOfBlocks _ hj, undo]
  exact (lineOfBlocks_congr blocks).trans (lineOfBlocks_blockOfLine x)

theorem xor_tweak_cancel (y t : BitVec 128) : y ^^^ t ^^^ t = y := by rw [BitVec.xor_assoc, BitVec.xor_self, BitVec.xor_zero]

theorem xtsDec_xtsEnc (k : Key) (seq j : Nat) (y : BitVec 128) : xtsDec k seq j (xtsEnc k seq j y) = y := by
  rw [xtsDec, xtsEnc, xor_tweak_cancel, Equiv.symm_apply_apply, xor_tweak_cancel]

theorem xtsEnc_xtsDec (k : Key) (seq j : Nat) (y : BitVec 128) : xtsEnc k seq j (xtsDec k seq j y) = y := by
  rw [xtsDec, xtsEnc, xor_tweak_cancel, Equiv.apply_symm_apply, xor_tweak_cancel]

/-- Settles O53: each block is undone, whatever the permutation and the tweak are, and a line is its four blocks. -/
theorem cipherLosesNothing : Obligations.CipherLosesNothing := fun k seq b0 x => by
  simp only [encLine_eq, decLine_eq]
  exact ⟨lineOfBlocks_undo (fun j => xtsDec_xtsEnc k seq (b0 + j)) x, lineOfBlocks_undo (fun j => xtsEnc_xtsDec k seq (b0 + j)) x⟩

end Sys2Proof.Machine
end

section
/-! The key commands (05 R106, R110, R116, R119): what each answers on the hypotheses of O34. -/

namespace Sys2Proof.Machine

section
variable {s : State} {m : Msg}

/-- A command that arrives and passes its checks, and whose act leaves it open, answers later. -/
theorem slafin_waits {t : State} {g : Gate} {act : State → Result} (runs : s.runs m g) (h : act s = .later t) : s.slafin g m act = .next t := by
  obtain ⟨arrives, passes⟩ := runs
  exact slafin_later arrives passes h

/-- A key ID that a command takes is not past the last slot (R116). -/
theorem keyId_inRange {k : W16} (least : 1 ≤ k.toNat) (most : k.toNat ≤ 4095) : ¬(k.toNat = 0 ∨ k.toNat > 4095) := by omega

theorem exec_programKey_empty {k : W16} {mask : W32} (ld : Byte) (key : Key) (runs : s.runs m (keyGate 0xC090 80 0 rLdBmcOwn)) (least : 1 ≤ k.toNat)
    (most : k.toNat ≤ 4095) (maskMine : s.mayMask (s.role m) k.toNat mask = true) (slotMine : s.mayAct (s.role m) k.toNat = true)
    (empty : (s.slot k.toNat).state = .empty) (room : s.overQuota (s.role m) = false) :
    exec (.programKey m k 1 mask 0xFFFF ld key) s =
      .next ((s.loadSlot k.toNat key true mask (programmerOf (s.role m))).reply m 0xC090 stOk []) := by
  show execProgramKey m k 1 mask 0xFFFF ld key s = _
  refine slafin_answers runs ?_
  simp [Nat.ne_of_gt least, Nat.not_lt.mpr most, maskMine, slotMine, empty, room]

theorem exec_destroyKey_loaded {k : W16} (runs : s.runs m (keyGate 0xC091 2 0 rLdBmcOwn)) (least : 1 ≤ k.toNat) (most : k.toNat ≤ 4095)
    (mine : s.mayAct (s.role m) k.toNat = true) (loaded : (s.slot k.toNat).state = .loaded) (fresh : (s.slot k.toNat).destroying = false) :
    exec (.destroyKey m k) s = .next ((s.startDestroy k.toNat).updSlot k.toNat fun x => { x with waiters := x.waiters ++ [m] }) := by
  show execDestroyKey m k s = _
  refine slafin_waits runs ?_
  simp [Nat.ne_of_gt least, Nat.not_lt.mpr most, mine, loaded, fresh]

theorem exec_slotDestructionComplete_idle {k : BitVec 12} (destroying : (s.slot k.toNat).destroying = true) (idle : s.keyInflight k.toNat = 0)
    (secure : (s.zeroizeSlot k.toNat).world.secure ≠ .restarting) :
    exec (.slotDestructionComplete k) s = .next ((s.zeroizeSlot k.toNat).answerDestroyed k.toNat (s.slot k.toNat)).wake := by
  show execSlotDestructionComplete k s = _
  simp [execSlotDestructionComplete, destroying, idle, secure]

theorem exec_queryKey_mine {k : W16} (runs : s.runs m (keyGate 0xC092 2 16 rLdBmcOwn)) (most : k.toNat ≤ 4095)
    (mine : s.mayAct (s.role m) k.toNat = true) {x : KeySlot} (hx : x = s.slot k.toNat) :
    exec (.queryKey m k) s =
      .next (s.reply m 0xC092 stOk (leNat 1 (slotCode x.state) ++ leNat 1 (if x.persistent then 1 else 0) ++ zeros 2 ++ leBytes 4 x.mask
        ++ leNat 8 x.pages)) := by
  subst hx
  show execQueryKey m k s = _
  refine slafin_answers runs ?_
  simp [Nat.not_lt.mpr most, mine]

theorem exec_setDefaultKey_granted {ld : Byte} {k : W16} (runs : s.runs m (keyGate 0xC093 4 0 rLdOwn)) (here : s.hasLd ld.toNat = true)
    (most : k.toNat ≤ 4095) (mine : othersLd (s.role m) ld.toNat = false) (loaded : (s.slot k.toNat).state = .loaded)
    (granted : (s.slot k.toNat).mask.getLsbD ld.toNat = true) :
    exec (.setDefaultKey m ld k) s = .next ((s.setDefKey ld.toNat (BitVec.ofNat 12 k.toNat)).reply m 0xC093 stOk []) := by
  show execSetDefaultKey m ld k s = _
  refine slafin_answers runs ?_
  simp [here, Nat.not_lt.mpr most, mine, loaded, granted]

theorem exec_setKeyQuota_here {ld : Byte} (quota : W16) (runs : s.runs m (keyGate 0xC094 4 0 rFmOwn)) (here : s.hasLd ld.toNat = true) :
    exec (.setKeyQuota m ld quota) s =
      .next (if quota.toNat ≤ 4095 then (s.setKeyQuota ld.toNat quota.toNat).reply m 0xC094 stOk [] else s.reply m 0xC094 stInvalidRange []) := by
  show execSetKeyQuota m ld quota s = _
  by_cases most : quota.toNat ≤ 4095
  · rw [if_pos most]
    exact slafin_answers runs (if_neg (by simp [here, most]))
  · rw [if_neg most]
    exact slafin_answers runs (if_pos (.inr (Nat.lt_of_not_le most)))

theorem exec_grantShare_inRange {k : W16} (mask : W32) (runs : s.runs m (keyGate 0xC095 8 0 rOwn)) (least : 1 ≤ k.toNat) (most : k.toNat ≤ 4095) :
    exec (.grantShare m k mask) s = .next ((s.updSlot k.toNat fun x => { x with grant := mask }).reply m 0xC095 stOk []) := by
  show execGrantShare m k mask s = _
  exact slafin_answers runs (if_neg (keyId_inRange least most))

end

/-- Settles O34: one lemma for each of the seven clauses. -/
theorem keyCommands : Obligations.KeyCommands := fun _ _ =>
  ⟨fun runs _ _ ld key => exec_programKey_empty ld key runs, fun runs _ => exec_destroyKey_loaded runs, fun _ => exec_slotDestructionComplete_idle,
    fun runs _ _ most mine => exec_queryKey_mine runs most mine, fun runs _ _ => exec_setDefaultKey_granted runs,
    fun runs _ quota => exec_setKeyQuota_here quota runs, fun runs _ mask => exec_grantShare_inRange mask runs⟩

end Sys2Proof.Machine
end

section
/-! The TSP requests (05 R117): what each answers to a session of its LD. -/

namespace Sys2Proof.Machine

/-! ### The generator leaves the keys in place (R116) -/

section
variable (s : State)

theorem State.keys_seeded : s.seeded.2.keys = s.keys := by
  unfold State.seeded
  split <;> rfl

/-- A generated key moves the generator on, and nothing else of the keys. -/
theorem State.keys_drawKey : ∃ y, s.drawKey.2.keys = { s.keys with drbg := some y } :=
  ⟨(drbgDraw s.seeded.1).2, by rw [← s.keys_seeded]; rfl⟩

@[simp] theorem State.slot_drawKey (k : Nat) : s.drawKey.2.slot k = s.slot k := by
  obtain ⟨_, keys⟩ := s.keys_drawKey
  rw [State.slot, keys]; rfl

@[simp] theorem State.tspOf_drawKey (ld : Nat) : s.drawKey.2.tspOf ld = s.tspOf ld := by
  obtain ⟨_, keys⟩ := s.keys_drawKey
  rw [State.tspOf, keys]; rfl

@[simp] theorem State.overQuota_ld_drawKey (ld : Fin 32) : s.drawKey.2.overQuota (.ld ld) = s.overQuota (.ld ld) := by
  obtain ⟨_, keys⟩ := s.keys_drawKey
  rw [State.overQuota, State.keySlotsOf, State.keyQuota, keys]
  rfl

@[simp] theorem State.emptyKeySlot_drawKey (hint : Nat) : s.drawKey.2.emptyKeySlot hint = s.emptyKeySlot hint := by
  simp only [State.emptyKeySlot, State.slot_drawKey]

end

/-! ### Its session is served -/

section
variable {s : State} {ld : Fin 32} {x : Fin 8}

/-- TSP of an LD over its session, with the secure world up and the LD's head, where it has one, in 256-byte flit mode. -/
def State.tspServed (s : State) (ld : Fin 32) (x : Fin 8) : Prop :=
  s.tspHere ld x = true ∧ s.world.secure = .up ∧ ∀ h, (s.fn ld.val).head = some h → s.head68 h.val = false

theorem tspRun_served (served : s.tspServed ld x) (act : State → State) : s.tspRun ld x act = .next (act s) := by
  obtain ⟨here, secure, flit⟩ := served
  rw [State.tspRun, if_neg (by simp [here]), if_neg (by simp [secure]), if_neg (by simp [secure])]
  cases head : (s.fn ld.val).head with
  | none => rfl
  | some h => exact if_neg (by simp [flit h head])

/-- A key goes into the EMPTY slot that is found, for a CKID of an open table that has none (R117). -/
theorem State.tspProgram_free {ckid slot k : Nat} (key : Key) (unlocked : (s.tspOf ld.val).locked = false) (inTable : ckid ≤ 127)
    (unkeyed : (Tab.get (fun _ => none) (s.tspOf ld.val).ckids ckid : Option (BitVec 12)) = none) (room : s.overQuota (.ld ld) = false)
    (empty : s.emptyKeySlot slot = some k) :
    s.tspProgram ld ckid slot key =
      ((s.loadSlot k key false (ldBit ld.val) (programmerOf (.ld ld))).setCkid ld.val ckid (some (BitVec.ofNat 12 k))).emit
        (.tsp ld "key set" [ckid]) := by
  simp [State.tspProgram, unlocked, Nat.not_lt.mpr inTable, unkeyed, room, empty]

theorem State.tspProgram_locked (ckid slot : Nat) (key : Key) (locked : (s.tspOf ld.val).locked = true) :
    s.tspProgram ld ckid slot key = s.emit (.tsp ld "locked" []) := if_pos locked

theorem exec_setTargetConfiguration_open (served : s.tspServed ld x) (on : Bool) (unlocked : (s.tspOf ld.val).locked = false) :
    exec (.setTargetConfiguration ld x on) s = .next ((s.updTspOf ld.val fun t => { t with enabled := on }).emit (.tsp ld "configured" [])) := by
  show execSetTargetConfiguration ld x on s = _
  simp [execSetTargetConfiguration, tspRun_served served, unlocked]

theorem exec_setTargetConfiguration_locked (served : s.tspServed ld x) (on : Bool) (locked : (s.tspOf ld.val).locked = true) :
    exec (.setTargetConfiguration ld x on) s = .next (s.emit (.tsp ld "locked" [])) := by
  show execSetTargetConfiguration ld x on s = _
  simp [execSetTargetConfiguration, tspRun_served served, locked]

theorem exec_setTargetCkidSpecificKey_served (served : s.tspServed ld x) (ckid : BitVec 13) (slot : BitVec 12) (key : Key) :
    exec (.setTargetCkidSpecificKey ld x ckid slot key) s = .next (s.tspProgram ld ckid.toNat slot.toNat key) :=
  (tspRun_served served _ : execSetTargetCkidSpecificKey ld x ckid slot key s = _)

theorem exec_setTargetCkidRandomKey_served (served : s.tspServed ld x) (ckid : BitVec 13) (slot : BitVec 12) :
    exec (.setTargetCkidRandomKey ld x ckid slot) s = .next (s.drawKey.2.tspProgram ld ckid.toNat slot.toNat s.drawKey.1) :=
  (tspRun_served served _ : execSetTargetCkidRandomKey ld x ckid slot s = _)

theorem exec_clearTargetCkidKey_locked (served : s.tspServed ld x) (ckid : BitVec 13) (locked : (s.tspOf ld.val).locked = true) :
    exec (.clearTargetCkidKey ld x ckid) s = .next (s.emit (.tsp ld "locked" [])) := by
  show execClearTargetCkidKey ld x ckid s = _
  simp [execClearTargetCkidKey, tspRun_served served, locked]

theorem exec_clearTargetCkidKey_loaded (served : s.tspServed ld x) {ckid : BitVec 13} {k : BitVec 12} {t : State}
    (unlocked : (s.tspOf ld.val).locked = false)
    (keyed : (Tab.get (fun _ => none) (s.tspOf ld.val).ckids ckid.toNat : Option (BitVec 12)) = some k) (nonzero : k ≠ 0)
    (ht : t = s.setCkid ld.val ckid.toNat none) (loaded : (t.slot k.toNat).state = .loaded) :
    exec (.clearTargetCkidKey ld x ckid) s =
      .next ((if (t.slot k.toNat).destroying then t else t.startDestroy k.toNat).updSlot k.toNat fun y =>
        { y with tspWaiters := y.tspWaiters ++ [ld] }) := by
  show execClearTargetCkidKey ld x ckid s = _
  rw [execClearTargetCkidKey, tspRun_served served]
  simp only [unlocked, keyed, ← ht, loaded, nonzero, Bool.false_eq_true, ne_eq, not_true_eq_false, or_self, if_false]

end

/-- Settles O35: the session is served, and each request answers what its act answers. -/
theorem tspRequests : Obligations.TspRequests := by
  intro s ld x here secure flit
  have served : s.tspServed ld x := ⟨here, secure, flit⟩
  refine ⟨(tspRun_served served _ : execGetTargetTspVersion ld x s = _), (tspRun_served served _ : execGetTargetCapabilities ld x s = _),
    exec_setTargetConfiguration_open served, exec_setTargetConfiguration_locked served,
    (tspRun_served served _ : execGetTargetConfiguration ld x s = _), (tspRun_served served _ : execGetTargetConfigurationReport ld x s = _),
    (tspRun_served served _ : execLockTargetConfiguration ld x s = _), ?program, ?locked, fun _ _ _ => exec_clearTargetCkidKey_loaded served,
    fun op => (tspRun_served served _ : execTspUnsupportedRequest ld x op s = _)⟩
  case program =>
    intro ckid slot key k unlocked inTable unkeyed room empty
    rw [exec_setTargetCkidSpecificKey_served served, exec_setTargetCkidRandomKey_served served,
      State.tspProgram_free key unlocked inTable unkeyed room empty,
      State.tspProgram_free s.drawKey.1 (by simpa using unlocked) inTable (by simpa using unkeyed) (by simpa using room) (by simpa using empty)]
    exact ⟨rfl, rfl⟩
  case locked =>
    intro ckid slot key locked
    rw [exec_setTargetCkidSpecificKey_served served, State.tspProgram_locked _ _ key locked]
    exact ⟨rfl, exec_clearTargetCkidKey_locked served ckid locked⟩

end Sys2Proof.Machine
end

section
/-! Lines and their side bits (06 R123 to R133): storing a line, its check, and the delta of a parity line. -/

namespace Sys2Proof.Machine

/-! ### Storing a line (R123) -/

/-- Two lines of DRAM share no byte and no side bit. -/
theorem State.rawLine_setRaw_other (s : State) (r : Raw) {f g : Nat} {k line : Fin 64} (other : ¬(g = f ∧ k = line)) :
    (s.setRaw f line.val r).rawLine g k.val = s.rawLine g k.val := by
  have apart : g ≠ f ∨ k.val ≠ line.val := by
    rw [← not_and_or, Fin.val_inj]
    exact other
  have side : ((s.setRaw f line.val r).rawLine g k.val).side = (s.rawLine g k.val).side := by
    rw [State.side_setRaw, if_neg (by unfold pla; omega)]
  have data := State.data_setRaw_other s f line.val g k.val r (by omega)
  exact congrArg₂ Raw.mk data side

/-- Settles O54: a line and its side bits lie apart from those of every other line, and a write of a table keeps its form. -/
theorem linesReadAsStored : Obligations.LinesReadAsStored := fun s f line r =>
  ⟨s.rawLine_setRaw f line r, fun _ _ => s.rawLine_setRaw_other r, s.memOk_setRaw f line r, rfl⟩

/-! ### One wrong bit (R124, R126) -/

theorem parityBit_xor (a b : Byte) : parityBit (a ^^^ b) = (parityBit a ^^ parityBit b) := by
  have folds : ∀ (l : List Nat) (p q : Bool),
      l.foldl (fun p i => p ^^ (a ^^^ b).getLsbD i) (p ^^ q) = (l.foldl (fun p i => p ^^ a.getLsbD i) p ^^ l.foldl (fun p i => p ^^ b.getLsbD i) q) := by
    intro l
    induction l with
    | nil => intro p q; rfl
    | cons i l ih =>
      intro p q
      rw [List.foldl_cons, List.foldl_cons, List.foldl_cons, ← ih, BitVec.getLsbD_xor]
      congr 1
      simp only [Bool.xor_assoc, Bool.xor_left_comm]
  exact folds _ false false

theorem byteAt_xor {n : Nat} (x y : BitVec n) (i : Nat) : byteAt (x ^^^ y) i = byteAt x i ^^^ byteAt y i := BitVec.extractLsb'_xor

/-- Bit i of a word alone is bit i mod 8 of its byte i / 8. -/
theorem byteAt_bit {n i : Nat} (hi : i < n) : byteAt (1#n <<< i) (i / 8) = 1#8 <<< (i % 8) := by
  rw [← BitVec.twoPow_eq, ← BitVec.twoPow_eq]
  ext j hj
  have place : i = 8 * (i / 8) + j ↔ j = i % 8 := by omega
  simp [byteAt, BitVec.getLsbD_twoPow, BitVec.getElem_twoPow, hi, place]

theorem parityBit_bit : ∀ k < 8, parityBit (1#8 <<< k) = true := by decide

theorem put_bit_getLsbD (i : Nat) {j : Nat} (hj : j < 64) : (put i 1 1).getLsbD j = decide (i = j) := by
  rw [put, BitVec.getLsbD_ofNat, Nat.shiftLeft_eq, Nat.mod_eq_of_lt (by decide), Nat.one_mul, Nat.testBit_two_pow]
  simp [hj]

/-- A word that is built flag by flag has the flags. -/
theorem foldl_put_getLsbD (f : Nat → Bool) (n : Nat) {j : Nat} (hj : j < 64) :
    ((List.range n).foldl (fun w i => if f i then w ||| put i 1 1 else w) 0#64).getLsbD j = (decide (j < n) && f j) := by
  induction n with
  | zero => simp
  | succ n ih =>
    have one : ∀ w : W64, (if f n then w ||| put n 1 1 else w).getLsbD j = (w.getLsbD j || (f n && decide (n = j))) := by
      intro w
      cases f n <;> simp [put_bit_getLsbD n hj]
    rw [List.range_succ, List.foldl_append, List.foldl_cons, List.foldl_nil, one, ih]
    by_cases same : n = j
    · simp [same]
    · simp [same, show j < n + 1 ↔ j < n by omega]

/-- A BPAR bit is the parity of its byte. -/
theorem bpar_getLsbD (d : Line) {j : Nat} (hj : j < 64) : (bpar d).getLsbD j = parityBit (byteAt d j) := by
  have flags := foldl_put_getLsbD (fun i => parityBit (byteAt d i)) 64 hj
  rwa [decide_eq_true hj, Bool.true_and] at flags

/-- One wrong bit changes the parity of its byte. -/
theorem bpar_flip_ne (d : Line) {i : Nat} (hi : i < 512) : bpar d ≠ bpar (d ^^^ (1#512 <<< i)) := by
  intro same
  have odd := parityBit_bit (i % 8) (Nat.mod_lt i (by decide))
  have bit := congrArg (·.getLsbD (i / 8)) same
  simp [bpar_getLsbD _ (show i / 8 < 64 by omega), byteAt_xor, byteAt_bit hi, parityBit_xor, odd] at bit

section
variable {n : Nat} (x : BitVec n) {lo len i : Nat}

theorem getLsbD_flip (hi : i < n) (j : Nat) : (x ^^^ (1#n <<< i)).getLsbD j = (x.getLsbD j ^^ decide (i = j)) := by
  rw [← BitVec.twoPow_eq, BitVec.getLsbD_xor, BitVec.getLsbD_twoPow, decide_eq_true hi, Bool.true_and]

/-- A field that holds the wrong bit changes. -/
theorem extractLsb'_flip_ne (hi : i < n) (low : lo ≤ i) (high : i < lo + len) : (x ^^^ (1#n <<< i)).extractLsb' lo len ≠ x.extractLsb' lo len := by
  intro same
  have bit := congrArg (·.getLsbD (i - lo)) same
  simp [getLsbD_flip x hi, show i - lo < len by omega, show lo + (i - lo) = i by omega] at bit

/-- A field that lies above the wrong bit stays. -/
theorem extractLsb'_flip_above (hi : i < n) (above : i < lo) : (x ^^^ (1#n <<< i)).extractLsb' lo len = x.extractLsb' lo len := by
  ext j hj
  simp [getLsbD_flip x hi, show i ≠ lo + j by omega]

end

section
variable {r : Raw} {p : Nat}

theorem checkData_eq_false_of_bpar (wrong : sideBpar r.side ≠ bpar r.data) : checkData r p = false := by
  simp [checkData, wrong]

theorem checkData_eq_false_of_lcrc (wrong : sideLcrc r.side ≠ lcrc r.data p (sideMeta r.side)) : checkData r p = false := by
  simp [checkData, wrong]

end

/-- Settles O55: wrong data change the byte parity but not BPAR; a wrong bit of BPAR or LCRC leaves the data and META that they are checked with. -/
theorem oneWrongBitFails : Obligations.OneWrongBitFails := by
  intro d p m kind
  refine ⟨checkData_freshRaw d p m kind, fun ⟨i, hi⟩ => checkData_eq_false_of_bpar ?data, fun ⟨i, hi⟩ => ?side⟩
  case data => exact ne_of_eq_of_ne (sideBpar_sideOf ..) (bpar_flip_ne d hi)
  case side =>
    have wide : i < 128 := by omega
    by_cases inBpar : i < 64
    · exact checkData_eq_false_of_bpar ((extractLsb'_flip_ne _ wide (Nat.zero_le _) (by omega)).trans_eq (sideBpar_sideOf ..))
    · have metaStays : sideMeta ((freshRaw d p m).side ^^^ (1#128 <<< i)) = m := (extractLsb'_flip_above _ wide hi).trans (sideMeta_sideOf ..)
      refine checkData_eq_false_of_lcrc ?_
      rw [metaStays]
      exact (extractLsb'_flip_ne _ wide (Nat.le_of_not_lt inBpar) (by omega)).trans_eq (sideLcrc_sideOf ..)

/-! ### The delta of a parity line (R133) -/

/-- The parity of the metadata region is that of the tables: a delta leaves it as it is. -/
theorem State.deltaParity_metaGroup (s : State) {g : Nat} (line : Nat) (d : Raw) (region : s.metaGroup g = true) : s.deltaParity g line d = s := by
  rw [State.deltaParity, State.withParity, if_pos region]

/-- A device with 4,000,000 groups, the last of which lies in the metadata region. -/
def oneChannel : State := (State.reset.updChan 0 fun c => { c with frames := 4000000 }).mapLast fun l => { l with hostPages := 65536 }

/-- Refutes O56: a group of the metadata region has a parity line in use, which a delta leaves as it is; old and new data that differ in one bit would
have to change it. -/
theorem not_parityTakesTheDelta : ¬ Obligations.ParityTakesTheDelta := by
  intro h
  have region : oneChannel.metaGroup 3999999 = true := by decide +kernel
  have inUse : (oneChannel.parityLine 3999999 0).isSome = true := by decide +kernel
  obtain ⟨p, line⟩ := Option.isSome_iff_exists.mp inUse
  obtain ⟨q, after, data, -⟩ := h oneChannel 3999999 0 p zeroRaw { zeroRaw with data := 1 } (by decide) line
  have kept : q = p := by
    rw [State.deltaParity_metaGroup _ _ _ region] at after
    exact Option.some.inj (after.symm.trans line)
  rw [kept] at data
  change p.data = p.data ^^^ 0#512 ^^^ 1#512 at data
  rw [BitVec.xor_zero] at data
  have noDelta : 1#512 = 0#512 := (BitVec.xor_right_inj p.data).mp (data.symm.trans BitVec.xor_zero.symm)
  exact absurd (congrArg (·.getLsbD 0) noDelta) (by simp)

end Sys2Proof.Machine
end

section
/-! Failing rows and on-chip parity errors on their own time: what each of their commands answers on the hypotheses of O5. -/

namespace Sys2Proof.Machine

section
variable {s : State} {ch : Fin 12} {idx : Fin 256}

theorem exec_parityCacheClean_awake (awake : s.inSave = false) :
    exec .parityCacheClean s = .next ((s.dirtyParity.take (s.dirtyParity.length - Config.parityLines * 3 / 4)).foldl State.writeBackParity s) := by
  show execParityCacheClean s = _
  simp [execParityCacheClean, awake]

theorem exec_candidateExpiry_candidate (candidate : (s.row (rowKey ch.val idx.val)).state = .candidate) :
    exec (.candidateExpiry ch idx) s = .next (s.setRow (rowKey ch.val idx.val) rowReset) := by
  show execCandidateExpiry ch idx s = _
  rw [execCandidateExpiry, if_pos candidate]

/-- The row's rank leaves service for the repair, and its unit names the row (R145). -/
theorem exec_rowRepairStart_hard {e : RowEntry} {n : Nat} {u : UnitSlot} (he : e = s.row (rowKey ch.val idx.val)) (hard : e.state = .hard)
    (repairable : s.rowRepairable ch.val e = true) (noUnit : s.unitsOut = []) (awake : s.inSave = false) (resumed : s.inResume = false)
    (unit : (s.unitOut (e.scope ch.val) 2 none).unitFor (e.scope ch.val) = some (n, u)) :
    exec (.rowRepairStart ch idx) s =
      .next (((s.unitOut (e.scope ch.val) 2 none).setUnit n (some { u with repair := some (rowKey ch.val idx.val) })).emits
        (e.devices.map fun d => .ddr ch "hard post-package repair" d)) := by
  show execRowRepairStart ch idx s = _
  simp [execRowRepairStart, ← he, hard, repairable, noUnit, awake, resumed, unit]

theorem exec_repairWaitExpiry_hard (hard : (s.row (rowKey ch.val idx.val)).state = .hard) :
    exec (.repairWaitExpiry ch idx) s = .next (s.relocateRow ch.val idx.val) := by
  show execRepairWaitExpiry ch idx s = _
  rw [execRepairWaitExpiry, if_pos hard]

/-- Every frame of a repaired row is stale when its rank rejoins (R145). -/
theorem exec_postPackageRepairDone_repaired {e : RowEntry} {n : Nat} {u : UnitSlot} {t : State} (he : e = s.row (rowKey ch.val idx.val))
    (unit : s.unitFor (e.scope ch.val) = some (n, u)) (hard : e.state = .hard) (cause : u.cause = 2) (out : u.state = 0)
    (rank : u.wholeChannel = false) (mine : u.repair = some (rowKey ch.val idx.val))
    (ht : t = s.emits (e.devices.flatMap fun d => [.ddr ch "write repaired row" d, .ddr ch "read repaired row" d])) :
    exec (.postPackageRepairDone ch idx true) s =
      .next (((t.setRow (rowKey ch.val idx.val) { e with state := .repaired }).countWelt 4).rejoinStale n (s.rowFrames ch.val e)) := by
  show execPostPackageRepairDone ch idx true s = _
  simp [execPostPackageRepairDone, ← he, unit, hard, cause, out, rank, mine, ht]

theorem exec_rowRetired_all {e : RowEntry} {t : State} (he : e = s.row (rowKey ch.val idx.val)) (relocating : e.state = .relocating)
    (ht : t = (s.rowFrames ch.val e).foldl State.retireFrame s) (all : (s.rowFrames ch.val e).all t.frameRetired = true) :
    exec (.rowRetired ch idx) s = .next (t.setRow (rowKey ch.val idx.val) { e with state := .retired }) := by
  show execRowRetired ch idx s = _
  simp only [execRowRetired, ← he, relocating, ne_eq, not_true_eq_false, if_false, ← ht, all, if_true]

end

section
variable {s : State} (reads : List MemberRead)

/-- A buffered line is held twice: one bad copy costs its record alone (R130). -/
theorem exec_onchipParityError_writeBuffer {dpn : Dpn} {line : Fin 64} {w : WbEntry} (buffered : s.buffered dpn line.val = some w) :
    exec (.onchipParityError (.writeBuffer dpn line false) reads) s = .next (hubParity none s) := by
  show execOnchipParityError (.writeBuffer dpn line false) reads s = _
  simp [execOnchipParityError, buffered]

/-- A clean line can be fetched again from DRAM (R136). -/
theorem exec_onchipParityError_parityCache {group : BitVec 28} {line : Fin 64} {p : ParityLine}
    (cached : s.cachedParity group.toNat line.val = some p) (clean : p.dirty = false) :
    exec (.onchipParityError (.parityCache group line) reads) s =
      .next (hubParity (s.takeOnchip 0).1 ((s.takeOnchip 0).2.mapWelt fun w => { w with pcache := w.pcache.erase p })) := by
  show execOnchipParityError (.parityCache group line) reads s = _
  simp [execOnchipParityError, cached, clean]

theorem exec_onchipParityError_codecEngine {n : Fin 26} (inService : s.engineFenced n.val = false) :
    exec (.onchipParityError (.codecEngine n) reads) s = .next ((s.takeOnchip (2 + n.val)).2.engineParity n.val (s.takeOnchip (2 + n.val)).1) := by
  show execOnchipParityError (.codecEngine n) reads s = _
  simp [execOnchipParityError, inService]

end

/-- Settles O5: one lemma for each of the six commands of rows and of the parity cache, and one for each block that a parity error can meet. -/
theorem rowEvents : Obligations.RowEvents :=
  ⟨fun _ _ _ => ⟨exec_parityCacheClean_awake, exec_candidateExpiry_candidate, fun _ _ _ => exec_rowRepairStart_hard, exec_repairWaitExpiry_hard,
    fun _ _ _ _ => exec_postPackageRepairDone_repaired, fun _ _ => exec_rowRetired_all⟩,
    fun _ reads => ⟨rfl, fun _ _ _ => exec_onchipParityError_writeBuffer reads, fun _ _ _ => exec_onchipParityError_parityCache reads,
      fun _ => exec_onchipParityError_codecEngine reads⟩⟩

end Sys2Proof.Machine
end

section
/-! Scrub, units out of service and the rebalance: what each of their commands answers on the hypotheses of O6. -/

namespace Sys2Proof.Machine

section
variable {s : State}

/-- A line that passes its check stands as it is; the scrub goes on behind it (R148). -/
theorem exec_scrubLine_good {u : Upset} (reads : List MemberRead) {m : Nat} {r : Raw} (populated : s.groups ≠ 0) (awake : s.inSave = false)
    (level : s.resume.level ≠ 0) (target : s.scrubTarget (s.welt.scrubPos / 64) = some m)
    (good : (s.scrubOn.charge mScrub (chargeRead 1)).scrubRead m (s.welt.scrubPos % 64) u = some (r, true)) :
    exec (.scrubLine u reads) s = .next (s.scrubOn.charge mScrub (chargeRead 1)) := by
  show execScrubLine u reads s = _
  simp [execScrubLine, populated, awake, level, target, good]

/-- A row that no entry names takes a new one, a candidate with the device of the count (R149). -/
theorem exec_ecsRead_newRow {ch : Fin 12} {ranksel : BitVec 6} {device : Fin 20} {count : W16} {bank : BitVec 5} {row : BitVec 18} {i : Nat} {x t : State}
    (hx : x = raise { Ev.of 71 with detail := [0, 0, 0, ch.val, ranksel.toNat, bank.toNat, row.toNat, 2 ^ device.val] } s)
    (here : s.hasChannel ch.val = true) (above : count.toNat > s.welt.policy.ecsLimit)
    (unnamed : (List.range 256).all (fun i => let e := x.row (rowKey ch.val i)
      !(decide (e.state ≠ .free) && decide (e.row = row) && decide (e.ranksel = ranksel) && decide (e.bank = bank))) = true)
    (free : x.newRow ch.val = some (i, t)) :
    exec (.ecsRead ch ranksel device count bank row) s =
      .next (t.setRow (rowKey ch.val i) { firstTime := BitVec.ofNat 64 t.time, lastTime := BitVec.ofNat 64 t.time, row, ranksel, bank
                                          state := .candidate, count := 0, mask := 1#20 <<< device.val }) := by
  have noEntry : ((List.range 256).any fun i => let e := x.row (rowKey ch.val i)
      decide (e.state ≠ .free) && decide (e.row = row) && decide (e.ranksel = ranksel) && decide (e.bank = bank)) = false := by
    rw [List.any_eq_not_all_not, unnamed, Bool.not_true]
  show execEcsRead ch ranksel device count bank row s = _
  simp only [execEcsRead, here, above, and_self, if_true, ← hx, noEntry, Bool.false_eq_true, if_false, free]

theorem exec_unitRebuildStep_spares {slot : Fin 4} {reads : List MemberRead} {u : UnitSlot} {f : Nat} {t : State} (unit : s.unit slot.val = some u)
    (notRepair : u.cause ≠ 2) (rebuilding : u.state = 1) (notWithdrawn : u.base ≠ .withdrawn) (awake : s.inSave = false)
    (prelude : u.progress ≥ s.rebuildPrelude) (noMove : s.spareToMove u = none) (stale : s.nextStale u.scope = some f)
    (spared : s.spareOne f reads = some t) :
    exec (.unitRebuildStep slot reads) s = .next (t.rebuildOn slot.val false) := by
  show execUnitRebuildStep slot reads s = _
  simp [execUnitRebuildStep, unit, notRepair, rebuilding, notWithdrawn, awake, Nat.not_lt.mpr prelude, noMove, stale, spared]

theorem exec_unitMapResolve_end {slot : Fin 4} (reads : List MemberRead) {u : UnitSlot} (unit : s.unit slot.val = some u) (walking : u.state = 5)
    (awake : s.inSave = false) (ended : u.progress ≥ s.groups) :
    exec (.unitMapResolve slot reads) s = .next (s.unitIn slot.val u) := by
  show execUnitMapResolve slot reads s = _
  simp [execUnitMapResolve, unit, walking, awake, ended]

/-- A page moves only off a crowded channel; while one is crowded the rebalance goes on (R160). -/
theorem exec_rebalance_moves {dpn : Dpn} {hint : Frame} {t : State} {c : Fin 12} {f : Nat}
    (crowded : s.crowded (channelOf s.w (s.entry dpn).frame.toNat) = true) (inside : channelOf s.w (s.entry dpn).frame.toNat < s.w)
    (rejoined : s.welt.rebalance = some c)
    (free : s.nextFree (fun f => decide (channelOf s.w f = c.val)) (s.poolGroups * s.w) hint.toNat = some f)
    (starts : s.startMigration .rebalance dpn (BitVec.ofNat 32 f) = some t) :
    exec (.rebalance dpn hint) s = .next t := by
  have goesOn : (List.range s.w).any s.crowded = true := List.any_eq_true.mpr ⟨_, List.mem_range.mpr inside, crowded⟩
  show execRebalance dpn hint s = _
  simp [execRebalance, rejoined, goesOn, crowded, free, State.startOrWait, starts]

end

/-- Settles O6: one lemma for each of the five commands; the share of a channel is what makes it crowded. -/
theorem unitEvents : Obligations.UnitEvents := by
  refine fun s => ⟨fun _ reads _ _ => exec_scrubLine_good reads, fun _ _ _ _ _ _ _ _ => exec_ecsRead_newRow rfl,
    fun _ _ _ _ _ => exec_unitRebuildStep_spares, fun _ reads _ => exec_unitMapResolve_end reads, ?rebalance⟩
  case rebalance =>
    intro dpn hint t used c f hused share inside
    obtain rfl : used = s.framesUsed := funext hused
    exact exec_rebalance_moves (decide_eq_true share) inside

end Sys2Proof.Machine
end

section
/-! The commands of channels, modules, links, drives and compatibility: what each answers on the hypotheses of O33. -/

namespace Sys2Proof.Machine

section
variable {s : State} {m : Msg}

theorem exec_setWeltPolicy_taken {policy : W64} {p : WeltPolicy}
    (runs : s.runs m { op := 0xC080, roles := rBmcOwn, sess := false, l0 := true, secure := false, inLen := 8, body := 0 })
    (hp : weltPolicyOf policy = some p) :
    exec (.setWeltPolicy m policy) s = .next ((s.mapWelt fun w => { w with policy := p }).reply m 0xC080 stOk []) := by
  show execSetWeltPolicy m policy s = _
  refine slafin_answers runs ?_
  rw [hp]

/-- With no other unit out of service, and no member of the channel in a spare frame, the channel leaves; its asker waits until it is empty (R157). -/
theorem exec_quiesceChannel_leaves {ch : Byte}
    (runs : s.runs m { op := 0xC081, roles := rBmcOwn, sess := false, l0 := true, secure := false, inLen := 1, body := 0 })
    (here : s.hasChannel ch.toNat = true) (inService : s.chanUnit ch.toNat = none) (noUnit : s.unitsOut = [])
    (room : (s.unitIndex false).isSome = true) (unspared : s.sparedOn { channel := ch.toNat, whole := true, ranksel := 0 } = false) :
    exec (.quiesceChannel m ch) s =
      .next ((s.unitOut { channel := ch.toNat, whole := true, ranksel := 0 } 1 none).park ch.toNat m).wake := by
  have slot : (s.unitIndex false).isNone = false := Option.isNone_eq_false_iff.mpr room
  show execQuiesceChannel m ch s = _
  refine slafin_waits runs ?_
  simpa [here, inService, noUnit, slot] using unspared

/-- A quiesced channel that holds a module is powered; its asker waits for the rejoin (R158). -/
theorem exec_rejoinChannel_powers {ch : Byte} {n : Nat} {u : UnitSlot}
    (runs : s.runs m { op := 0xC082, roles := rBmcOwn, sess := false, l0 := true, secure := false, inLen := 1, body := 0 })
    (here : s.hasChannel ch.toNat = true) (unit : s.chanUnit ch.toNat = some (n, u)) (quiesced : u.state = 3) (asked : u.cause = 1)
    (first : (s.chan ch.toNat).rejoinWait = none) (present : (s.chan ch.toNat).present = true) :
    exec (.rejoinChannel m ch) s =
      .next ((((s.updChan ch.toNat fun c => { c with pwrEn := true, slotStep := .powering, rejoinWait := some m }).setUnitState ch.toNat 4).endChannelInj
        ch.toNat).slotPin ch.toNat true) := by
  show execRejoinChannel m ch s = _
  refine slafin_waits runs ?_
  simp [here, unit, quiesced, asked, first, present]

/-- A control that leaves the rate as it is takes effect at once (R179). -/
theorem exec_setChannelControl_sameRate {ch : Byte} {control : W64} {c : DdrControl}
    (runs : s.runs m { op := 0xC083, roles := rBmcOwn, sess := false, l0 := true, secure := false, inLen := 16, body := 0 })
    (here : s.hasChannel ch.toNat = true) (hc : ddrControlOf control = some c)
    (sameRate : (s.setControl ch.toNat c).chosenRate ch.toNat = (s.chan ch.toNat).rate) :
    exec (.setChannelControl m ch control) s = .next ((s.setControl ch.toNat c).reply m 0xC083 stOk []) := by
  show execSetChannelControl m ch control s = _
  refine slafin_answers runs ?_
  simp [here, hc, sameRate]

theorem exec_setLacePoint_retrains {k rate half : Byte}
    (runs : s.runs m { op := 0xC084, roles := rBmcOwn, sess := false, l0 := true, secure := false, inLen := 3, body := 0 })
    (here : s.hasModule k.toNat = true) (hrate : rate.toNat ≤ 2) (hhalf : half.toNat ≤ 1) (alone : (s.laceMod k.toNat).carryAll = false)
    (first : (s.laceMod k.toNat).pointWait = none) (up : (s.laceMod k.toNat).state = 2) :
    exec (.setLacePoint m k rate half) s =
      .next (((s.updLaceMod k.toNat fun x => { x with pendingPoint := some (Fin.ofNat 3 rate.toNat, decide (half.toNat = 1)) }).startRetrain k.toNat).reply
        m 0xC084 stOk []) := by
  show execSetLacePoint m k rate half s = _
  refine slafin_answers runs ?_
  simp [here, Nat.not_lt.mpr hrate, Nat.not_lt.mpr hhalf, alone, first, up]

theorem exec_getRepairTable_inRange {ch : Byte} {cursor max : W32}
    (runs : s.runs m { op := 0xC085, roles := rFmBmcOwn, sess := false, l0 := false, secure := false, inLen := 12, body := 8 })
    (here : s.hasChannel ch.toNat = true) (inside : cursor.toNat < 256) {n : Nat} (hn : n = fits m 8 32 max.toNat (256 - cursor.toNat)) :
    exec (.getRepairTable m ch cursor max) s =
      .next (s.reply m 0xC085 stOk (leNat 4 n ++ leNat 4 (nextCursor cursor.toNat n 256)
        ++ (List.range n).flatMap fun i => (s.row (rowKey ch.toNat (cursor.toNat + i))).bytes)) := by
  subst hn
  show execGetRepairTable m ch cursor max s = _
  refine slafin_answers runs ?_
  simp only [here, Nat.not_le.mpr inside, Bool.not_true, Bool.false_eq_true, or_self, if_false]

theorem exec_getMarginReport_runs
    (runs : s.runs m { op := 0xC0A0, roles := rAll, sess := false, l0 := false, secure := false, inLen := 0, body := 192 }) :
    exec (.getMarginReport m) s = .next (s.reply m 0xC0A0 stOk s.marginReport) := by
  show execGetMarginReport m s = _
  exact slafin_answers runs rfl

/-- Whether the head is in a recovery that something else started is drawn; a link that is down takes the limit at once (R298). -/
theorem exec_setPortRate_down {h rate : Byte}
    (runs : s.runs m { op := 0xC0A1, roles := rBmcOwn, sess := false, l0 := false, secure := false, inLen := 2, body := 0 })
    (here : s.hasHead h.toNat = true) (known : (rateCodeOf rate.toNat).isSome = true) (first : (s.headOf h.toNat).rateWait = none)
    (down : (s.headOf h.toNat).up = false) :
    exec (.setPortRate m h rate) s = .next ((s.draw.2.limitRate h.toNat rate.toNat).reply m 0xC0A1 stOk []) := by
  have code : (rateCodeOf rate.toNat).isNone = false := Option.isNone_eq_false_iff.mpr known
  have stillDown : (s.draw.2.headOf h.toNat).up = false := down
  show execSetPortRate m h rate s = _
  refine slafin_answers runs ?_
  simp [here, code, first, stillDown]

theorem exec_driveRelease_foreign {n : Byte}
    (runs : s.runs m { op := 0xC0C0, roles := rBmcOwn, sess := false, l0 := true, secure := false, inLen := 2, body := 0 })
    (here : s.hasDrive n.toNat = true) (foreign : (s.drive n.toNat).state = 4) :
    exec (.driveRelease m n 0x5A) s = .next ((s.joinDrive (Fin.ofNat 4 n.toNat)).wake.reply m 0xC0C0 stOk []) := by
  show execDriveRelease m n 0x5A s = _
  refine slafin_answers runs ?_
  simp [here, foreign]

theorem exec_driveRemove_noImage {n : Byte}
    (runs : s.runs m { op := 0xC0C1, roles := rBmcOwn, sess := false, l0 := true, secure := false, inLen := 1, body := 0 })
    (here : s.hasDrive n.toNat = true) (noImage : s.shank.imageExists = false) :
    exec (.driveRemove m n) s =
      .next ((((s.failDrive (Fin.ofNat 4 n.toNat) 0).updDrive n.toNat fun x => { x with perst := false }).emit
        (.drive (Fin.ofNat 4 n.toNat) "perst" 0)).reply m 0xC0C1 stOk []) := by
  show execDriveRemove m n s = _
  refine slafin_answers runs ?_
  simp [here, noImage]

/-- The entry holds the line's content and META, with side bits formed anew for the line's place (R147). -/
theorem exec_compatRemap_hot {dpa : W64} {e : LastEntry} {i : Nat} {r : Raw}
    (runs : s.runs m { op := 0xC0B0, roles := rBmcOwn, sess := false, l0 := false, secure := false, inLen := 8, body := 1 })
    (he : e = s.entry (dpa.extractLsb' 12 32)) (aligned : fld dpa 0 6 = 0) (inside : dpa.toNat / 4096 < s.last.hostPages) (hot : e.state = .hot)
    (slot : s.compatSlot dpa = some i) (content : s.lineContent e.frame.toNat (fld dpa 6 6) = some r) :
    exec (.compatRemap m dpa) s =
      .next ((s.setCompat i (some { dpa, raw := freshRaw r.data (pla e.frame.toNat (fld dpa 6 6)) (sideMeta r.side) })).reply m 0xC0B0 stOk
        (leNat 1 i)) := by
  show execCompatRemap m dpa s = _
  refine slafin_answers runs ?_
  simp only [← he, aligned, Nat.not_le.mpr inside, hot, slot, content, ne_eq, not_true_eq_false, if_false]

theorem exec_compatClear_entry {n : Byte}
    (runs : s.runs m { op := 0xC0B1, roles := rBmcOwn, sess := false, l0 := false, secure := false, inLen := 1, body := 0 }) (entry : n.toNat < 8) :
    exec (.compatClear m n) s = .next ((s.setCompat n.toNat none).reply m 0xC0B1 stOk []) := by
  show execCompatClear m n s = _
  exact slafin_answers runs (if_neg (Nat.not_le.mpr entry))

theorem exec_compatClear_noEntry {n : Byte}
    (runs : s.runs m { op := 0xC0B1, roles := rBmcOwn, sess := false, l0 := false, secure := false, inLen := 1, body := 0 }) (beyond : n.toNat ≥ 8) :
    exec (.compatClear m n) s = .next (s.reply m 0xC0B1 stInvalidRange []) := by
  show execCompatClear m n s = _
  exact slafin_answers runs (if_pos beyond)

theorem exec_compatList_runs
    (runs : s.runs m { op := 0xC0B2, roles := rFmBmcOwn, sess := false, l0 := false, secure := false, inLen := 0, body := 128 }) :
    exec (.compatList m) s = .next (s.reply m 0xC0B2 stOk ((List.range 8).flatMap s.compatBytes)) := by
  show execCompatList m s = _
  exact slafin_answers runs rfl

end

/-- Settles O33: one lemma for each of the thirteen commands, and one for an entry past the eight. -/
theorem channelCommands : Obligations.ChannelCommands :=
  ⟨fun _ _ => ⟨fun runs _ _ => exec_setWeltPolicy_taken runs, fun runs _ => exec_quiesceChannel_leaves runs,
      fun runs _ _ _ => exec_rejoinChannel_powers runs, fun runs _ _ _ => exec_setChannelControl_sameRate runs,
      fun runs _ _ _ => exec_setLacePoint_retrains runs, fun runs _ _ _ here inside _ => exec_getRepairTable_inRange runs here inside,
      exec_getMarginReport_runs, fun runs _ _ => exec_setPortRate_down runs, fun runs _ => exec_driveRelease_foreign runs,
      fun runs _ => exec_driveRemove_noImage runs⟩,
    fun _ _ => ⟨fun runs _ _ _ _ => exec_compatRemap_hot runs, fun runs _ => ⟨exec_compatClear_entry runs, exec_compatClear_noEntry runs⟩,
      exec_compatList_runs⟩⟩

end Sys2Proof.Machine
end

section
/-! The timers of a channel: refresh, tracking, activation window and age of a request. What each of their commands answers on the hypotheses of O7. -/

namespace Sys2Proof.Machine

section
variable {s : State} {ch : Fin 12} {rank : Fin 4}

theorem exec_refreshDue_unqueued (here : s.hasChannel ch.val = true) (live : (s.chan ch.val).live = true)
    (there : s.rankThere ch.val rank.val = true) (unqueued : s.queuedFor ch.val rank.val = false) :
    exec (.refreshDue ch rank) s = .next (s.refreshRank ch.val rank.val 1) := by
  show execRefreshDue ch rank s = _
  simp [execRefreshDue, here, live, there, unqueued]

/-- A refresh that falls due while the rank has requests waiting is postponed, as long as the limit allows (R173). -/
theorem exec_refreshDue_postponed (here : s.hasChannel ch.val = true) (live : (s.chan ch.val).live = true)
    (there : s.rankThere ch.val rank.val = true) (queued : s.queuedFor ch.val rank.val = true)
    (below : (s.chan ch.val).owedOf rank.val < (s.chan ch.val).owedLimit) :
    exec (.refreshDue ch rank) s = .next (s.updChan ch.val fun c => c.setOwed rank.val (c.owedOf rank.val + 1)) := by
  show execRefreshDue ch rank s = _
  simp [execRefreshDue, here, live, there, queued, below]

theorem exec_owedRefreshDrain_unqueued (owes : (s.chan ch.val).owedOf rank.val ≠ 0) (unqueued : s.queuedFor ch.val rank.val = false) :
    exec (.owedRefreshDrain ch rank) s =
      .next ((s.updChan ch.val fun c => c.setOwed rank.val 0).refreshRank ch.val rank.val ((s.chan ch.val).owedOf rank.val)) := by
  show execOwedRefreshDrain ch rank s = _
  simp [execOwedRefreshDrain, owes, unqueued]

/-- A logical rank in service is tracked, unless the microcontroller of its die restarts (R169, R428). -/
theorem exec_periodicTracking_inService {lr : Fin 32} (there : lr.val < s.logicalRanks ch.val) (inService : (s.chan ch.val).state = 0)
    (usable : (s.chan ch.val).unusable.getLsbD lr.val = false)
    (noUnit : s.unitFor { channel := ch.val, whole := false, ranksel := s.rankOfLr ch.val lr.val } = none)
    (mcuUp : s.ddr.mcuDown.getLsbD (ch.val / 6) = false) :
    exec (.periodicTracking ch lr) s = .next (s.emit (.ddr ch "tracking" lr.val)) := by
  show execPeriodicTracking ch lr s = _
  simp only [execPeriodicTracking, there, inService, usable, noUnit, mcuUp, decide_true, Option.isNone_none, Bool.not_false, Bool.not_true, Bool.and_self,
    Bool.false_eq_true, if_false]

end

/-- Settles O7: one lemma for each refresh and tracking command; the window and the age of a request have one path each. -/
theorem channelTimers : Obligations.ChannelTimers := fun _ _ =>
  ⟨fun _ => exec_refreshDue_unqueued, fun _ => exec_refreshDue_postponed, fun _ => exec_owedRefreshDrain_unqueued,
    fun _ => exec_periodicTracking_inService, rfl, fun _ => rfl⟩

end Sys2Proof.Machine
end

section
/-! What befalls a channel: training, slots, supply, alerts, the microcontroller of its die and the temperature of its modules. What each of these
commands answers on the hypotheses of O8. -/

namespace Sys2Proof.Machine

section
variable {s : State} {ch : Fin 12}

/-- A cached training whose record and check hold is not judged by rank; its margins alone decide (R170, R434). -/
theorem exec_trainingComplete_cached {r : TrainResult} {t : State} (here : s.hasChannel ch.val = true) (training : s.training ch.val = true)
    (sameRate : (s.chan ch.val).pendingRate = none) (notFull : (s.chan ch.val).full = false)
    (ht : t = s.updChan ch.val fun c => { c with dimms := r.spd.foldl (fun t d => Tab.set (fun _ => none) d.1.val (some d.2) t) c.dimms })
    (record : t.recordOk ch.val r.temp = true) (check : r.cachedCheckOk = true) (rdFloor : r.rdMargin ≥ 20) (wrFloor : r.wrMargin ≥ 20) :
    exec (.trainingComplete ch r) s =
      .next (((t.mapPower fun p => { p with margins := Tab.set (fun _ => (0, 0)) ch.val (r.rdMargin, r.wrMargin) p.margins }).trained ch.val false r).startDeferred
        ch.val).wake := by
  show execTrainingComplete ch r s = _
  simp [execTrainingComplete, here, training, sameRate, notFull, ← ht, record, check, Nat.not_lt.mpr rdFloor, Nat.not_lt.mpr wrFloor]

theorem exec_slotPresenceChange_low (here : s.hasChannel ch.val = true) :
    exec (.slotPresenceChange ch false) s = .next (s.updChan ch.val fun c => { c with present := true }) := by
  show execSlotPresenceChange ch false s = _
  simp [execSlotPresenceChange, here]

theorem exec_pmicPowerGoodTimeout_powering (powering : (s.chan ch.val).slotStep = .powering) :
    exec (.pmicPowerGoodTimeout ch) s = .next (s.rejoinEnds ch.val stNoResource) := by
  show execPmicPowerGoodTimeout ch s = _
  rw [execPmicPowerGoodTimeout, if_pos (.inl powering)]

theorem exec_pmicFault_here (here : s.hasChannel ch.val = true) :
    exec (.pmicFault ch) s =
      .next (((raise { Ev.of (srcChan ch.val 4) with detail := [ch.val] } s).slotsOff ch.val).channelFails ch.val none).wake := by
  show execPmicFault ch s = _
  simp [execPmicFault, here]

/-- The EV8820 has no second memory die (R3). -/
theorem exec_trainMcuWatchdog_there {die : Fin 2} (there : s.ev8820 = false ∨ die.val = 0) :
    exec (.trainMcuWatchdog die) s = .next (raise { Ev.of 906 with detail := [die.val] }
      (s.mapDdr fun d => { d with mcuRestarts := d.mcuRestarts + 1, mcuDown := d.mcuDown ||| (1#2 <<< die.val) })) := by
  have notMissing : ¬ (s.ev8820 = true ∧ die.val = 1) := by
    rintro ⟨small, second⟩
    rcases there with large | first
    · simp [large] at small
    · omega
  show execTrainMcuWatchdog die s = _
  rw [execTrainMcuWatchdog, if_neg notMissing]

end

/-- The usable bandwidth belongs to regulation. -/
@[simp] theorem State.chan_recomputeUsable (s : State) (k : Nat) : s.recomputeUsable.chan k = s.chan k := rfl

/-- Whether tREFI is halved once a channel's one module reads `b` degrees (R172). -/
def Chan.hotRefreshAt (c : Chan) (mr4Hot : Bool) (b : Byte) : Bool :=
  if mr4Hot = true ∨ b.toNat ≥ 85 then true else if b.toNat < 82 then false else c.hotRefresh

/-- Whether tFAW is doubled once a channel's one module reads `b` degrees (R178). -/
def Chan.tfawDoubledAt (c : Chan) (b : Byte) : Bool :=
  if b.toNat ≥ 95 then true else if b.toNat < 90 then false else c.tfawDoubled

/-- The state once a channel's one module has read `b` degrees; the usable bandwidth follows the refresh rate (R172). -/
def State.moduleReads (s : State) (ch : Nat) (mr4Hot : Bool) (b : Byte) : State :=
  let t := s.updChan ch fun c =>
    { c with temp := b, hotRefresh := (s.chan ch).hotRefreshAt mr4Hot b, tfawDoubled := (s.chan ch).tfawDoubledAt b }
  if (s.chan ch).hotRefreshAt mr4Hot b ≠ (s.chan ch).hotRefresh then t.recomputeUsable else t

theorem State.chan_moduleReads (s : State) (ch : Nat) (mr4Hot : Bool) (b : Byte) : (s.moduleReads ch mr4Hot b).chan ch =
    { s.chan ch with temp := b, hotRefresh := (s.chan ch).hotRefreshAt mr4Hot b, tfawDoubled := (s.chan ch).tfawDoubledAt b } := by
  rw [State.moduleReads, apply_ite (State.chan · ch), State.chan_recomputeUsable, ite_self, State.chan_updChan, if_pos rfl]

section
variable {s : State} {ch : Fin 12} (hot : Bool) {b : Byte}

/-- One reading of one module: what it sets, and the event of a module that has become too hot (R172, R178). -/
theorem exec_moduleTempRead_one (module : (Tab.get (fun _ => none) (s.chan ch.val).dimms 0).isSome = true) :
    exec (.moduleTempRead ch [(0, some b)] hot) s =
      .next (if (s.chan ch.val).tfawDoubledAt b ∧ !(s.chan ch.val).tfawDoubled
        then raise { Ev.of (srcChan ch.val 7) with detail := [ch.val, b.toNat] } (s.moduleReads ch.val hot b)
        else s.moduleReads ch.val hot b) := by
  have mine : ([(0, some b)] : List (Fin 2 × Option Byte)).filter (fun t => (Tab.get (fun _ => none) (s.chan ch.val).dimms t.1.val).isSome) = [(0, some b)] :=
    List.filter_eq_self.mpr fun _ only => List.mem_singleton.mp only ▸ module
  show execModuleTempRead ch [(0, some b)] hot s = _
  simp only [execModuleTempRead, mine, List.isEmpty_cons, List.map_cons, List.map_nil, List.foldl_cons, List.foldl_nil, Nat.zero_max, List.all_cons,
    List.all_nil, List.any_cons, List.any_nil, List.filter_cons, List.filter_nil, Option.isNone_some, Bool.and_true, Bool.or_false, Bool.false_eq_true,
    if_false, decide_eq_true_eq, BitVec.ofNat_toNat, BitVec.setWidth_eq]
  exact (apply_ite Host.Outcome.next _ _ _).symm

/-- A module below 95 degrees is not too hot, so that its channel shows what the reading sets and no event has followed. -/
theorem exec_moduleTempRead_hysteresis {temps : List (Fin 2 × Option Byte)} (module : (Tab.get (fun _ => none) (s.chan ch.val).dimms 0).isSome = true)
    (one : temps = [(0, some b)]) :
    ∃ t, exec (.moduleTempRead ch temps hot) s = .next t
      ∧ (b.toNat < 95 → (t.chan ch.val).hotRefresh =
          (if hot = true ∨ b.toNat ≥ 85 then true else if b.toNat < 82 then false else (s.chan ch.val).hotRefresh)
        ∧ (t.chan ch.val).tfawDoubled = (if b.toNat < 90 then false else (s.chan ch.val).tfawDoubled)
        ∧ (t.chan ch.val).temp = b) := by
  subst one
  refine ⟨_, exec_moduleTempRead_one hot module, fun below => ?_⟩
  have tfaw : (s.chan ch.val).tfawDoubledAt b = if b.toNat < 90 then false else (s.chan ch.val).tfawDoubled := if_neg (Nat.not_le.mpr below)
  have noEvent : ¬ ((s.chan ch.val).tfawDoubledAt b = true ∧ (!(s.chan ch.val).tfawDoubled) = true) := by
    rw [tfaw]
    split <;> simp
  rw [if_neg noEvent, State.chan_moduleReads]
  exact ⟨rfl, tfaw, rfl⟩

end

/-- Settles O8: one lemma for each command; the two alerts have one path each. -/
theorem channelTrouble : Obligations.ChannelTrouble :=
  ⟨fun _ _ => ⟨fun _ _ => exec_trainingComplete_cached, exec_slotPresenceChange_low, exec_pmicPowerGoodTimeout_powering, fun _ => ⟨rfl, rfl⟩,
    exec_pmicFault_here, fun _ => exec_trainMcuWatchdog_there⟩,
    fun _ _ _ hot _ => exec_moduleTempRead_hysteresis hot⟩

end Sys2Proof.Machine
end

section
/-! The flits of a Lace module: what a received flit leads to, with a good CRC and with a bad one. -/

namespace Sys2Proof.Machine

section
variable {s : State} {m : Nat} {e : LaceEnd} {f : Flit}

/-- What a flit that is taken does, by its type: request, response, control, training; any other type is a protocol error (R188, R190). -/
def State.takeByType (s : State) (m : Nat) (e : LaceEnd) (f : Flit) (margin : Nat) (repaired : Byte) : State :=
  if f.type = 1 then s.takeData m e f .req
  else if f.type = 2 then s.takeData m e f .rsp
  else if f.type = 8 then s.takeCtrl m e f f.acknak
  else if f.type = 12 then s.takeTrain m e f margin repaired
  else s.protocolError m

/-- Of a flit whose CRC fails only the type and the sequence number count, and they only for the failure's report and for a retrain (R194, R203). -/
theorem State.takeFlit_crcFails (margin : Nat) (repaired : Byte) (here : s.hasModule m = true) (there : (s.laceMod m).state ≠ 0)
    (noBadData : s.laceInj 5 m e = none) (noDrop : s.laceInj 6 m e = none) (bad : f.crcOk = false) :
    s.takeFlit m e f margin repaired = s.crcFails m e f.type f.seq none := by
  have received : ¬ ((!s.hasModule m) = true ∨ (s.laceMod m).state = 0) := by simp [here, there]
  simp only [State.takeFlit, if_neg received, noBadData, noDrop, ite_self, bad, Bool.not_false, if_true]

/-- A flit with a good CRC and a valid acknowledgement is taken: first its acknowledgement, then what its type carries (R194, R196). -/
theorem State.takeFlit_taken (margin : Nat) (repaired : Byte) (here : s.hasModule m = true) (there : (s.laceMod m).state ≠ 0)
    (notDown : (s.laceMod m).state ≠ 4) (noBadData : s.laceInj 5 m e = none) (noDrop : s.laceInj 6 m e = none) (noAckDrop : s.laceInj 7 m e = none)
    (good : f.crcOk = true) (ack : (s.side m e).ackValid f.acknak f.ackSeq = true) :
    s.takeFlit m e f margin repaired = (s.takeAck m e f.acknak f.ackSeq).takeByType m e f margin repaired := by
  have received : ¬ ((!s.hasModule m) = true ∨ (s.laceMod m).state = 0) := by simp [here, there]
  simp only [State.takeFlit, if_neg received, if_neg notDown, noBadData, noDrop, noAckDrop, ite_self, good, ack, Option.isSome_none, Bool.not_true,
    Bool.false_eq_true, if_false, State.takeByType]

end

section
variable {s : State} {m : Fin 4} {e : LaceEnd} {f : Flit}

theorem exec_dataFlitReceived_crcFails (here : s.hasModule m.val = true) (there : (s.laceMod m.val).state ≠ 0)
    (noBadData : s.laceInj 5 m.val e = none) (noDrop : s.laceInj 6 m.val e = none) (bad : f.crcOk = false) :
    ∃ t, exec (.dataFlitReceived m e f) s = .next t ∧ t.settings = s.settings ∧ t = (s.crcFails m.val e f.type f.seq none).afterFlit m.val :=
  ⟨s.receive m.val e f 100 0, rfl, settings_receive .., congrArg (State.afterFlit · m.val) (State.takeFlit_crcFails 100 0 here there noBadData noDrop bad)⟩

theorem exec_trainDone_taken {margin : Nat} {repaired : Byte} (here : s.hasModule m.val = true) (there : (s.laceMod m.val).state ≠ 0)
    (notDown : (s.laceMod m.val).state ≠ 4) (noBadData : s.laceInj 5 m.val e = none) (noDrop : s.laceInj 6 m.val e = none)
    (noAckDrop : s.laceInj 7 m.val e = none) (good : f.crcOk = true) (ack : (s.side m.val e).ackValid f.acknak f.ackSeq = true) :
    exec (.trainDone m e f margin repaired) s =
      .next (((s.takeAck m.val e f.acknak f.ackSeq).takeByType m.val e f margin repaired).afterFlit m.val) := by
  show execTrainDone m e f margin repaired s = _
  rw [execTrainDone, State.receive, State.takeFlit_taken margin repaired here there notDown noBadData noDrop noAckDrop good ack]

end

/-- Settles O9: the eight commands are one reception; a flit with a good CRC and one with a bad CRC have one lemma each. -/
theorem flitsJudged : Obligations.FlitsJudged :=
  ⟨fun _ _ _ _ _ _ => ⟨rfl, rfl, rfl, rfl, rfl, rfl, rfl, exec_trainDone_taken⟩, fun _ _ _ _ => exec_dataFlitReceived_crcFails⟩

end Sys2Proof.Machine
end

section
/-! The messages between hub and die. What each of their commands answers on the hypotheses of O10. -/

namespace Sys2Proof.Machine

section
variable {s : State} {m : Fin 4}

theorem exec_dieRead_carried {r : ReqSlot} (carried : s.carries m.val r.channel.val = true) :
    exec (.dieRead m r) s = .next (s.enqueue r.channel.val
      { tag := r.tag, master := r.master, priority := r.priority, rt := r.rt, write := false, frame := r.frame, line := r.line
        count := r.countM1.val + 1, aged := false }) := by
  show execDieRead m r s = _
  simp [execDieRead, carried]

/-- A write whose frame lies on the channel it names stores its line as it joins the queue, and its channel counts it (R192). -/
theorem exec_dieWrite_carried {r : ReqSlot} {data : Line} {side : Side} (carried : s.carries m.val r.channel.val = true)
    (onChannel : channelOf s.w r.frame.toNat = r.channel.val) :
    exec (.dieWrite m r data side) s = .next (((s.enqueue r.channel.val
      { tag := r.tag, master := r.master, priority := r.priority, rt := r.rt, write := true, frame := r.frame, line := r.line
        count := 1, aged := false }).setRaw r.frame.toNat r.line.val { data, side }).pmChan r.channel.val 2) := by
  show execDieWrite m r data side s = _
  simp [execDieWrite, carried, onChannel]

theorem exec_channelCommand_carried {ch : Fin 12} {k : ChanCmd} {tag : BitVec 13} (carried : s.carries m.val ch.val = true) :
    exec (.channelCommand m ch k tag) s =
      .next ((s.updLaceMod m.val fun x => { x with commands := x.commands ++ [(tag, ch, k)] }).emit (.ddr ch (chanCmdName k) 0)) := by
  show execChannelCommand m ch k tag s = _
  simp [execChannelCommand, carried]

/-- An event of the die's own sources, under a number that is not in use, is raised at once and answered with EVENT_TAKEN (R396). -/
theorem exec_dieEvent_new {num : W16} {source : BitVec 11} (here : s.hasModule m.val = true) (low : 1024 + 512 * (m.val / 2) ≤ source.toNat)
    (high : source.toNat < 1024 + 512 * (m.val / 2) + 384) (new : (s.laceMod m.val).events.contains num = false) :
    exec (.dieEvent m num source) s =
      .next ((fire source.toNat (s.updLaceMod m.val fun x => { x with events := x.events ++ [num] })).post m.val .hub (eventTakenMsg num)) := by
  show execDieEvent m num source s = _
  rw [execDieEvent, if_neg]
  simp only [here, new, Bool.not_true, Bool.false_eq_true, or_false, false_or]
  omega

theorem exec_lineData_wellFormed {entries : List LineEntry} (here : s.hasModule m.val = true) (count : countOk entries.length = true) :
    exec (.lineData m entries) s =
      .next ((entries.filter (·.last)).foldl (fun s x => s.dequeue x.tag false) (entries.foldl State.takeLine s)).wake := by
  show execLineData m entries s = _
  simp [execLineData, here, count]

theorem exec_writeDone_wellFormed {tags : List (BitVec 13)} (here : s.hasModule m.val = true) (count : countOk tags.length = true) :
    exec (.writeDone m tags) s = .next (tags.foldl (fun s t => s.dequeue t true) s) := by
  show execWriteDone m tags s = _
  simp [execWriteDone, here, count]

theorem exec_commandDone_here {tag : BitVec 13} {ok : Bool} (here : s.hasModule m.val = true) :
    exec (.commandDone m tag ok) s =
      .next ((s.updLaceMod m.val fun x => { x with commands := x.commands.filter fun c => decide (c.1 ≠ tag) }).emits
        (((s.laceMod m.val).commands.filter fun c => decide (c.1 = tag)).map fun c =>
          .ddr c.2.1 (if ok then "command done" else "command failed") 0)) := by
  show execCommandDone m tag ok s = _
  simp [execCommandDone, here]

theorem exec_eventTaken_wellFormed {nums : List W16} (here : s.hasModule m.val = true) (count : countOk nums.length = true) :
    exec (.eventTaken m nums) s = .next (s.updLaceMod m.val fun x => { x with events := x.events.filter fun n => !nums.contains n }) := by
  show execEventTaken m nums s = _
  simp [execEventTaken, here, count]

end

/-- Settles O10: one lemma for each of the eight messages. -/
theorem dieMessages : Obligations.DieMessages := fun _ _ =>
  ⟨fun _ => exec_dieRead_carried, fun _ _ _ => exec_dieWrite_carried, fun _ _ _ => exec_channelCommand_carried, fun _ _ => exec_dieEvent_new,
    fun _ => exec_lineData_wellFormed, fun _ => exec_writeDone_wellFormed, fun _ _ => exec_commandDone_here, fun _ => exec_eventTaken_wellFormed⟩

end Sys2Proof.Machine
end

section
/-! The timers of a Lace module. What each of their commands answers on the hypotheses of O11. -/

namespace Sys2Proof.Machine

section
variable {s : State} {m : Fin 4} {e : LaceEnd}

theorem exec_ackDue_owed (up : s.laceUp m.val = true) (owed : (s.side m.val e).sinceAck > 0) :
    exec (.ackDue m e) s = .next (s.sendCtrl m.val e 0 1 0) := by
  show execAckDue m e s = _
  rw [execAckDue, if_pos ⟨up, owed⟩]

/-- The buffers in use free as their credits go out with the flit (R198). -/
theorem exec_ctrlFlitDue_up (up : s.laceUp m.val = true) :
    exec (.ctrlFlitDue m e) s =
      .next ((s.updSide m.val e fun d => { d with incReq := d.incReq + d.occReq, incRsp := d.incRsp + d.occRsp, occReq := 0, occRsp := 0 }).sendCtrl
        m.val e 0 1 0) := by
  show execCtrlFlitDue m e s = _
  rw [execCtrlFlitDue, if_pos up]

/-- The unacknowledged flits go out again; the module retrains when this is the fourth time without progress (R196). -/
theorem exec_replayTimerExpiry_unacknowledged {t : State} (up : s.laceUp m.val = true) (unacknowledged : (s.side m.val e).replay ≠ [])
    (ht : t = raiseFencing { Ev.of (srcLace m.val 1) with detail := [m.val, if e = .hub then 0 else 1, (s.side m.val e).oldest] } (.module m.val)
      ((s.replayFrom m.val e (s.side m.val e).oldest).updSide m.val e fun d => { d with timeouts := d.timeouts + 1 })) :
    exec (.replayTimerExpiry m e) s = .next (if (s.side m.val e).timeouts ≥ 3 then t.startRetrain m.val else t) := by
  have replays : ¬ ((!s.laceUp m.val) = true ∨ (s.side m.val e).replay.isEmpty = true) := by simp [up, unacknowledged]
  have fourth : (s.side m.val e).timeouts + 1 ≥ 4 ↔ (s.side m.val e).timeouts ≥ 3 := Nat.succ_le_succ_iff
  show execReplayTimerExpiry m e s = _
  simp only [execReplayTimerExpiry, if_neg replays, fourth, ← ht]
  exact (apply_ite Host.Outcome.next _ _ _).symm

theorem exec_creditLeakDetected_running (up : s.laceUp m.val = true) (running : (s.side m.val e).leakRun = true)
    (unscheduled : (s.laceMod m.val).leakScheduled = false) :
    exec (.creditLeakDetected m e) s =
      .next (raise { Ev.of (srcLace m.val 2) with detail := [m.val, 0, 0, (s.side m.val e).leak] }
        (s.updLaceMod m.val fun x => { x with leakScheduled := true })) := by
  show execCreditLeakDetected m e s = _
  simp [execCreditLeakDetected, up, running, unscheduled]

theorem exec_leakRetrainStart_scheduled (up : s.laceUp m.val = true) (scheduled : (s.laceMod m.val).leakScheduled = true) :
    exec (.leakRetrainStart m) s = .next ((s.countLace m.val 5).startRetrain m.val) := by
  show execLeakRetrainStart m s = _
  rw [execLeakRetrainStart, if_pos ⟨up, scheduled⟩]

theorem exec_silenceTimeout_up (up : s.laceUp m.val = true) : exec (.silenceTimeout m) s = .next (s.startRetrain m.val) := by
  show execSilenceTimeout m s = _
  rw [execSilenceTimeout, if_pos up]

theorem exec_retrainTimeout_retraining (here : s.hasModule m.val = true) (retraining : (s.laceMod m.val).state = 3) :
    exec (.retrainTimeout m) s = .next (s.retrainFails m.val).wake := by
  show execRetrainTimeout m s = _
  rw [execRetrainTimeout, if_pos ⟨here, .inl retraining⟩]

/-- A die whose first module is down goes down when the partner, itself not down, has not taken over (R206). -/
theorem exec_handoverTimeout_pending {die : Fin 2} (here : s.hasModule (2 * die.val) = true) (down : (s.laceMod (2 * die.val)).state = 4)
    (partnerNotDown : (s.laceMod (partner (2 * die.val))).state ≠ 4) (partnerThere : (s.laceMod (partner (2 * die.val))).state ≠ 0)
    (notTaken : (s.laceMod (partner (2 * die.val))).carryAll = false) :
    exec (.handoverTimeout die) s = .next (s.dieDown die.val).wake := by
  show execHandoverTimeout die s = _
  simp [execHandoverTimeout, here, down, partnerNotDown, partnerThere, notTaken]

/-- Each attempt is counted, at most 16; the soak begins when its training ends well (R207). -/
theorem exec_returnAttempt_allowed {trained : Bool} (here : s.hasModule m.val = true) (down : (s.laceMod m.val).state = 4)
    (carried : (s.laceMod (partner m.val)).carryAll = true) (left : (s.laceMod m.val).returnAttempts < 16)
    (notSoaking : (s.laceMod m.val).soaking = false) (notReturning : (s.laceMod m.val).returning = false) :
    exec (.returnAttempt m trained) s =
      .next (s.updLaceMod m.val fun x => { x with returnAttempts := x.returnAttempts + 1, soaking := trained }) := by
  show execReturnAttempt m trained s = _
  simp [execReturnAttempt, here, down, carried, left, notSoaking, notReturning]

theorem exec_returnSoakEnd_clean (soaking : (s.laceMod m.val).soaking = true) :
    exec (.returnSoakEnd m true) s =
      .next ((s.updLaceMod m.val fun x => { x with soaking := false, returning := true, returnSent := false, returnSeen := 0 }).tryReturn m.val) := by
  show execReturnSoakEnd m true s = _
  simp [execReturnSoakEnd, soaking]

end

/-- Settles O11: one lemma for each of the ten timers. -/
theorem laceTimers : Obligations.LaceTimers := fun _ _ _ =>
  ⟨exec_ackDue_owed, exec_ctrlFlitDue_up, fun _ => exec_replayTimerExpiry_unacknowledged, exec_creditLeakDetected_running,
    exec_leakRetrainStart_scheduled, exec_silenceTimeout_up, exec_retrainTimeout_retraining, fun _ => exec_handoverTimeout_pending,
    fun _ => exec_returnAttempt_allowed, exec_returnSoakEnd_clean⟩

end Sys2Proof.Machine
end

section
/-! The shadow in service: recording, epochs, the lap, the dirty window and the hold-up bank. What each of their commands answers on the hypotheses
of O12. -/

namespace Sys2Proof.Machine

section
variable {s : State}

/-- A changed hot page is no longer DIRTY as its record begins; its key is not persistent, so the record waits for no wrapped copy (R216). -/
theorem exec_shadowRecord_hot {q : QEntry} {rest : List QEntry} (v : VerifyFails) (records : s.canRecord = true) (queue : s.shank.queue = q :: rest)
    (unrepaired : s.repairWaits q.dpn = false) (loaded : (s.slot (s.entry q.dpn).key.toNat).state = .loaded)
    (notPersistent : (s.slot (s.entry q.dpn).key.toNat).persistent = false) (noEmergency : s.shank.emergency = false)
    (hot : (s.entry q.dpn).state = .hot) (dirty : (s.entry q.dpn).dirty = true) (changed : q.kind = .changed) (settled : s.writePending q.dpn = false)
    (compressor : (s.idleEngine 0).isSome = true ∨ s.allFenced 0 = true) :
    exec (.shadowRecord v) s =
      .next ((((s.mapShank fun k => { k with queue := rest }).touchEntry q.dpn fun e => { e with dirty := false }).recordPage q.dpn
        (queueAmount (s.entry q.dpn) .changed) 0 id (v := v)).slotQueuePassed.wake) := by
  have goesOn : ¬ (s.writePending q.dpn = true ∨ ((s.entry q.dpn).hotForm = true ∧ (s.idleEngine 0).isNone = true ∧ (!s.allFenced 0) = true)) := by
    rintro (pending | ⟨-, noneIdle, inService⟩)
    · simp [settled] at pending
    · rcases compressor with idle | fenced
      · simp [Option.isNone_iff_eq_none.mp noneIdle] at idle
      · simp [fenced] at inService
  show execShadowRecord s v = _
  simp only [execShadowRecord, records, queue, unrepaired, loaded, notPersistent, noEmergency, hot, changed, if_neg goesOn, Bool.not_true,
    Bool.false_eq_true, ne_eq, not_true_eq_false, reduceCtorEq, false_and, or_self, if_false]
  rw [if_pos dirty]

/-- The drive counts the record's bytes; no drive carries a command of the record any more, so the record is in the image (R234). -/
theorem exec_driveCommandComplete_last {n : Fin 4} {id : Nat} {w : RecWrite} (carried : (s.drive n.val).commands.contains id = true)
    (write : (s.shank.writes.find? fun w => decide (w.page.lsn = id)) = some w)
    (last : (s.updDrive n.val fun x =>
      { x with commands := x.commands.erase id, written := x.written + 64 * (1 + w.page.granules.length) }).driveWaits id = false) :
    exec (.driveCommandComplete n id) s =
      .next ((s.updDrive n.val fun x => { x with commands := x.commands.erase id, written := x.written + 64 * (1 + w.page.granules.length) }).recordDone
        id).wake := by
  show execDriveCommandComplete n id s = _
  simp only [execDriveCommandComplete, carried, write, last, Bool.not_true, Bool.false_eq_true, if_false]

theorem exec_epochEnd_inService (image : s.shank.imageExists = true) (noSave : s.shank.saveStep = 0) (notDone : s.shank.saveDone = false) :
    exec .epochEnd s = .next s.endEpoch := by
  show execEpochEnd s = _
  rw [execEpochEnd, if_pos ⟨image, noSave, by rw [notDone]; rfl⟩]

/-- No hardening request waits for the epoch, so its entry in the epoch log is a plain CLOSE (R217). -/
theorem exec_epochClose_plain {e : Nat} {rest : List Nat} (ended : s.shank.epochEnded = e :: rest) (complete : s.epochOpen e = false)
    (image : s.shank.imageExists = true) (saved : s.shank.saveFailed = false) (noHarden : s.shank.harden = []) :
    exec .epochClose s = .next ((s.closeEpoch e .close).hardenDone e).freeSlots.wake := by
  show execEpochClose s = _
  simp only [execEpochClose, ended, complete, image, saved, noHarden, List.any_nil, Bool.not_true, Bool.false_eq_true, or_self, if_false]

/-- The lap goes on behind the page; its fresh record has no amount of the queue (R218). -/
theorem exec_refreshLapStep_records {d : Dpn} {t : State} (records : s.canRecord = true) (awake : s.inSave = false)
    (next : s.nextDurable s.shank.lapPos = some d) (ht : t = s.mapShank (fun k => { k with lapPos := d.toNat + 1 }))
    (loaded : (s.slot (s.entry d).key.toNat).state = .loaded) (notPersistent : (s.slot (s.entry d).key.toNat).persistent = false)
    (unrepaired : t.repairWaits d = false) (notRestoring : (s.entry d).state ≠ .restoring) :
    exec .refreshLapStep s = .next (t.recordPage d 0 0 fun r => { r with lap := true }).wake := by
  show execRefreshLapStep s = _
  simp only [execRefreshLapStep, records, awake, next, ← ht, loaded, notPersistent, unrepaired, notRestoring, Bool.not_true, Bool.false_eq_true, ne_eq,
    not_true_eq_false, false_and, or_self, if_false]
  rw [← ht]

/-- A bank voltage that is kept: the mean over the samples kept, and the energy above the least usable voltage at that mean (R225). -/
def State.keepSample (u : State) (b : Board) (v : Nat) : State :=
  u.mapShank fun k =>
    let l := (v :: k.vSamples).take 1000
    { k with lastSample := v, vSamples := l, vbankMv := l.sum / l.length
             eUsableMj := usableEnergy k.capMf (l.sum / l.length) b.vMinMv.toNat b.effPct.toNat }

/-- A sample goes to the probe first, then it is kept (R225). -/
theorem exec_holdupSample_board {mv : Nat} {b : Board} (bank : s.holdup = some b) :
    exec (.holdupSample mv) s =
      .next ((s.probeSample b (mv * b.vsenseRatio.toNat / 100)).keepSample b (mv * b.vsenseRatio.toNat / 100)) := by
  show execHoldupSample mv s = _
  rw [execHoldupSample, bank]
  rfl

end

/-- Settles O12: one lemma for each command; the window has one path, and a hold-up sample is what its probe leaves and what is kept. -/
theorem shadowEvents : Obligations.ShadowEvents := by
  refine fun s => ⟨fun v _ _ => exec_shadowRecord_hot v, fun _ _ _ => exec_driveCommandComplete_last, exec_epochEnd_inService,
    fun _ _ => exec_epochClose_plain, fun _ _ => exec_refreshLapStep_records, ?window, ?holdup⟩
  case window =>
    rintro sat t rfl
    rfl
  case holdup =>
    exact fun mv b bank => ⟨_, _, exec_holdupSample_board bank, rfl, rfl, rfl, rfl, rfl⟩

end Sys2Proof.Machine
end

section
/-! The power-fail save, step by step, and its end in place: what each of its commands answers on the hypotheses of O13. -/

namespace Sys2Proof.Machine

section
variable {s : State}

theorem exec_gpfPhase1_up {head : Fin 4} (up : (s.headOf head.val).up = true) :
    exec (.gpfPhase1 head) s = .next (s.emit (.port head "gpf phase 1 complete" 0)) := by
  show execGpfPhase1 head s = _
  rw [execGpfPhase1, if_pos up]

/-- In step 1 of a save the head is marked, and the last head awaited ends the step (R228). -/
theorem exec_gpfPhase2_flushing {head : Fin 4} {t : State} (up : (s.headOf head.val).up = true) (flushing : s.shank.saveStep = 1)
    (noEmergency : s.shank.emergency = false)
    (ht : t = (s.emit (.port head "gpf phase 2 complete" 0)).mapShank (fun k => { k with gpfHeads := k.gpfHeads ||| (1#4 <<< head.val) })) :
    exec (.gpfPhase2 head) s = .next (if t.gpfComplete then t.saveFence else t) := by
  show execGpfPhase2 head s = _
  simp only [execGpfPhase2, up, State.emit_shank, flushing, noEmergency, ← ht, Bool.not_true, Bool.not_false, Bool.false_eq_true, and_self, if_false,
    if_true]

/-- The flush is awaited where an LD is bound; without one the hosts are fenced at once (R228). -/
theorem exec_saveStart_service {t : State} (notDone : s.shank.saveDone = false) (noSave : s.shank.saveStep = 0) (resumed : s.inResume = false)
    (ht : t = ((s.countShank 4).mapShank fun k => { k with saveStep := 1, pwrfailLow := true, gpfHeads := 0 }).mapPower (fun p => { p with state := 1 })) :
    exec .saveStart s = .next (if (List.range t.nLds).any (fun n => (t.fn n).bound) then t else t.saveFence) := by
  show execSaveStart s = _
  simp only [execSaveStart, notDone, noSave, resumed, ← ht, Bool.false_eq_true, zero_ne_one, ne_eq, not_true_eq_false, false_and, if_false]

theorem exec_gpfTimeout_flushing (flushing : s.shank.saveStep = 1) (noEmergency : s.shank.emergency = false) :
    exec .gpfTimeout s = .next s.saveFence := by
  show execGpfTimeout s = _
  rw [execGpfTimeout, if_pos ⟨flushing, by rw [noEmergency]; rfl⟩]

/-- With nothing queued and nothing written, the image closes whether the save is clean or has stopped writing (R228). -/
theorem exec_saveQueueEmpty_closes (recording : s.shank.saveStep = 2) (touched : s.imageUntouched = false) (noQueue : s.shank.queue = [])
    (noWrites : s.shank.writes = []) :
    exec .saveQueueEmpty s = .next (s.closeSave.flushDrives.mapShank fun k => { k with saveStep := 3 }) := by
  show execSaveQueueEmpty s = _
  simp only [execSaveQueueEmpty, recording, touched, noQueue, noWrites, List.isEmpty_nil, Bool.and_self, Bool.not_true, Bool.false_eq_true, ne_eq,
    not_true_eq_false, and_false, if_false]

theorem exec_saveFlushComplete_done {t : State} (flushing : s.shank.saveStep = 3)
    (ht : t = (if s.saveClean then s.countShank 5 else s).mapShank fun k => { k with saveStep := 4, saveDone := true }) :
    exec .saveFlushComplete s =
      .next ((insoleOther .reset [1, if s.saveClean then 1 else 0, if t.shank.saveFailed then 1 else 0] none t).emit (.pin "SAVE_DONE" true)) := by
  subst ht
  show execSaveFlushComplete s = _
  rw [execSaveFlushComplete, if_neg (not_not.mpr flushing)]

/-- The parity lines are in DRAM before the ranks enter self-refresh (R137, R230). -/
theorem exec_parityWritebackDone_first {t : State} (saved : s.shank.saveDone = true) (first : s.shank.savedParity = false)
    (ht : t = (s.welt.pcache.filter (·.dirty)).foldl (fun s p => s.writeBackParity p) s) :
    exec .parityWritebackDone s =
      .next ((((List.range t.channels).foldl (fun (s : State) c => s.setSelfRefresh c true) t).mapShank fun k =>
        { k with savedParity := true }).mapPower fun p => { p with state := 2 }) := by
  show execParityWritebackDone s = _
  simp only [execParityWritebackDone, saved, first, ← ht, Bool.not_true, Bool.false_eq_true, or_self, if_false]

/-- Power that is back before the hosts are fenced ends the save (R231). -/
theorem exec_pwrfailReturn_early {r t : State} (low : s.shank.pwrfailLow = true) (flushing : s.shank.saveStep = 1)
    (noEmergency : s.shank.emergency = false) (hr : r = s.mapShank fun k => { k with pwrfailLow := false })
    (ht : t = r.mapShank fun k => { k with saveStep := 0, gpfHeads := 0 }) :
    exec .pwrfailReturn s = .next (fire 768 (t.mapPower fun p => { p with state := r.servicePower })).wake := by
  have early : s.shank.pwrfailLow = true ∧ r.shank.saveStep = 1 ∧ (!r.shank.emergency) = true := by
    subst hr
    exact ⟨low, flushing, by rw [State.mapShank_shank, noEmergency]; rfl⟩
  show execPwrfailReturn s = _
  simp only [execPwrfailReturn, ← hr, if_pos early, ← ht]

/-! How many heads the part has depends on neither its power state nor the request path. -/

theorem State.nHeads_mapPower (f : Power → Power) : (s.mapPower f).nHeads = s.nHeads := rfl
theorem State.nHeads_mapPath (f : PathSt → PathSt) : (s.mapPath f).nHeads = s.nHeads := rfl

/-- A save that failed leaves no image; any other has its superblocks written again before the links train (R231, R237). -/
theorem exec_resumeInPlace_powered {r t u : State} (saved : s.shank.saveDone = true) (parity : s.shank.savedParity = true)
    (back : s.shank.pwrfailLow = false) (good : s.power.pwrgood = true)
    (hr : r = s.mapShank fun k => { k with saveStep := 0, saveDone := false, savedParity := false, emergency := false, gpfHeads := 0 })
    (ht : t = if s.shank.saveFailed then r.loseImage else r.refreshSupers false)
    (hu : u = (List.range t.channels).foldl (fun (s : State) c => s.setSelfRefresh c false) t) :
    exec .resumeInPlace s = .next (((List.range u.nHeads).foldl (fun (s : State) h => s.emit (.port (Fin.ofNat 4 h) "train" 0))
      ((u.mapPath fun p => { p with fenced := false }).mapPower fun p => { p with state := u.servicePower })).emit (.pin "SAVE_DONE" false)).wake := by
  have outcome : r.shank.saveFailed = s.shank.saveFailed := by rw [hr, State.mapShank_shank]
  have powered : s.shank.saveDone = true ∧ s.shank.savedParity = true ∧ (!s.shank.pwrfailLow) = true ∧ s.power.pwrgood = true :=
    ⟨saved, parity, by rw [back]; rfl, good⟩
  show execResumeInPlace s = _
  simp only [execResumeInPlace, if_pos powered, ← hr, outcome, ← ht, ← hu, State.nHeads_mapPower, State.nHeads_mapPath]

end

/-- Settles O13: one lemma for each command of the save, in the order of its steps. -/
theorem saveSteps : Obligations.SaveSteps := fun _ =>
  ⟨fun _ => exec_gpfPhase1_up, fun _ _ => exec_gpfPhase2_flushing, fun _ => exec_saveStart_service, exec_gpfTimeout_flushing,
    exec_saveQueueEmpty_closes, fun _ => exec_saveFlushComplete_done, fun _ => exec_parityWritebackDone_first,
    fun _ low flushing noEmergency => exec_pwrfailReturn_early low flushing noEmergency rfl, fun _ _ _ => exec_resumeInPlace_powered⟩

end Sys2Proof.Machine
end

section
/-! Drives that fail, the rebuild of a set and a new image: what each of their commands answers on the hypotheses of O14. -/

namespace Sys2Proof.Machine

section
variable {s : State} {n : Fin 4}

theorem exec_driveSaveTimeout_writing (saving : s.inSave = true) (notDone : s.shank.saveDone = false) (writes : s.driveWrites n.val = true) :
    exec (.driveSaveTimeout n) s = .next ((s.countShank 6).failDrive n 2) := by
  show execDriveSaveTimeout n s = _
  rw [execDriveSaveTimeout, if_pos ⟨saving, by rw [notDone]; rfl, writes⟩]

/-- Outside a save the failure is an event of its own (R237). -/
theorem exec_driveFail_inService (writes : s.driveWrites n.val = true) (awake : s.inSave = false) :
    exec (.driveFail n false) s = .next ((raise { Ev.of 773 with detail := [n.val] } s).failDrive n 2).wake := by
  show execDriveFail n false s = _
  simp only [execDriveFail, writes, awake, Bool.not_true, Bool.false_eq_true, if_false]

/-- The step that reaches the end makes the drive ACTIVE and the set whole, which the superblocks then say (R237). -/
theorem exec_driveRebuildStep_end {blocks : Nat} {t : State} (replaced : s.shank.failedMember = some n) (rebuilding : (s.drive n.val).state = 3)
    (awake : s.inSave = false) (resumed : s.inResume = false)
    (ht : t = s.updDrive n.val (fun d => { d with rebuilt := min s.driveBlocks (d.rebuilt + blocks) }))
    (ended : (t.drive n.val).rebuilt ≥ t.driveBlocks) :
    exec (.driveRebuildStep n blocks) s =
      .next (((t.updDrive n.val fun d => { d with state := 1 }).mapShank fun k => { k with failedMember := none }).refreshSupers false) := by
  show execDriveRebuildStep n blocks s = _
  simp only [execDriveRebuildStep, replaced, rebuilding, awake, resumed, ← ht, Nat.not_lt.mpr ended, Bool.false_eq_true, ne_eq, not_true_eq_false, or_self,
    if_false]

theorem exec_imageCreate_fit {rate : Nat} (noImage : s.shank.imageExists = false) (awake : s.inSave = false) (bank : s.holdup.isSome = true)
    (fit : s.fitDrives ≠ []) (unread : s.resume.image = 0) :
    exec (.imageCreate rate) s = .next (s.createImage rate).wake := by
  have noBank : s.holdup.isNone = false := Option.isNone_eq_false_iff.mpr bank
  have noDrive : s.fitDrives.isEmpty = false := List.isEmpty_eq_false_iff.mpr fit
  show execImageCreate rate s = _
  simp only [execImageCreate, noImage, awake, noBank, noDrive, unread, Bool.false_eq_true, ne_eq, not_true_eq_false, false_and, or_self, if_false]

end

/-- Settles O14: one lemma for each of the four commands. -/
theorem driveEvents : Obligations.DriveEvents := fun _ =>
  ⟨fun _ => exec_driveSaveTimeout_writing, fun _ => exec_driveFail_inService, fun _ _ _ => exec_driveRebuildStep_end, fun _ => exec_imageCreate_fit⟩

end Sys2Proof.Machine
end

section
/-! The commands of shadowing and resume: what each answers on the hypotheses of O29. -/

namespace Sys2Proof.Machine

section
variable {s : State} {m : Msg}

theorem exec_setShadowPolicy_taken {policy : W64} {p : ShadowPolicy}
    (runs : s.runs m { op := 0xC020, roles := rBmcOwn, sess := false, l0 := false, secure := false, inLen := 8, body := 0 })
    (hp : shadowPolicyOf policy = some p) :
    exec (.setShadowPolicy m policy) s = .next ((s.mapShank fun k => { k with policy := p }).wake.reply m 0xC020 stOk []) := by
  show execSetShadowPolicy m policy s = _
  refine slafin_answers runs ?_
  rw [hp]

/-- A region that is made volatile needs neither an image nor one of the durable regions (R214). -/
theorem exec_setRegionDurable_volatile {region : Byte}
    (runs : s.runs m { op := 0xC021, roles := rFmOwn, sess := false, l0 := false, secure := false, inLen := 2, body := 0 }) (known : region.toNat ≤ 7)
    (empty : s.regionHolds region.toNat = false) :
    exec (.setRegionDurable m region 0) s = .next ((s.updRegion region.toNat fun x => { x with durable := false }).reply m 0xC021 stOk []) := by
  show execSetRegionDurable m region 0 s = _
  refine slafin_answers runs ?_
  simp [Nat.not_lt.mpr known, empty]

/-- The answer counts the requests that wait, this one with them (R259). -/
theorem exec_restorePriority_queued {req : PriorityReq}
    (runs : s.runs m { op := 0xC030, roles := rLdBmcOwn, sess := false, l0 := false, secure := false, inLen := 32, body := 2 })
    (may : s.mayPrioritize (s.role m) req = true) (resuming : s.resume.level ≠ 3)
    (names : (s.resume.extents.any fun x => prioNames req x && decide (x.state ≠ .restored)) = true) (room : s.resume.priority.length < 64) :
    exec (.restorePriority m req) s =
      .next ((s.mapResume fun r => { r with priority := r.priority ++ [req] }).reply m 0xC030 stOk (leNat 2 (s.resume.priority ++ [req]).length)) := by
  show execRestorePriority m req s = _
  refine slafin_answers runs ?_
  simp only [may, resuming, names, Nat.not_le.mpr room, Bool.not_true, Bool.false_eq_true, or_self, if_false, State.mapResume_resume]

/-- The BMC reads the whole list (R266). -/
theorem exec_getLossList_bmc {cursor max : W32} {n : Nat}
    (runs : s.runs m { op := 0xC031, roles := rLdBmcOwn, sess := false, l0 := false, secure := false, inLen := 8, body := 16 }) (bmc : s.role m = .bmc)
    (inside : cursorOk cursor.toNat s.resume.losses.length = true)
    (hn : n = fits m 16 12 max.toNat (s.resume.losses.drop cursor.toNat).length) :
    exec (.getLossList m cursor max) s =
      .next (s.reply m 0xC031 stOk (leNat 4 n ++ leNat 4 (nextCursor cursor.toNat n s.resume.losses.length) ++ leNat 4 s.resume.losses.length ++ zeros 4
        ++ ((s.resume.losses.drop cursor.toNat).take n).flatMap fun r => leNat 4 r.1.toNat ++ leNat 4 r.2.1 ++ leNat 1 (if r.2.2 then 1 else 0) ++ zeros 3)) := by
  show execGetLossList m cursor max s = _
  refine slafin_answers runs ?_
  simp only [bmc, inside, ← hn, Bool.not_true, Bool.false_eq_true, if_false]

/-- A declined extent goes back to its LD's offers (R263). -/
theorem exec_reofferExtent_declined {ld : Byte} {tag : BitVec 128} {o : Fin 32 × RegionEntry}
    (runs : s.runs m { op := 0xC032, roles := rLdFm, sess := false, l0 := false, secure := false, inLen := 32, body := 0 })
    (here : s.hasLd ld.toNat = true) (mine : othersLd (s.role m) ld.toNat = false)
    (declined : (s.cmd.declined.find? fun o => decide (o.1.val = ld.toNat) && decide (o.2.tag = tag)) = some o) :
    exec (.reofferExtent m ld tag) s =
      .next (((s.mapCmd fun c => { c with declined := c.declined.erase o }).offerTo o.2).reply m 0xC032 stOk []) := by
  show execReofferExtent m ld tag s = _
  refine slafin_answers runs ?_
  simp only [here, mine, declined, Bool.not_true, Bool.false_eq_true, if_false]

theorem exec_setRestorePolicy_inRange {policy : W64}
    (runs : s.runs m { op := 0xC033, roles := rBmcOwn, sess := false, l0 := false, secure := false, inLen := 8, body := 0 })
    (least : 10 ≤ fld policy 0 6) (most : fld policy 0 6 ≤ 50) (delay : 1 ≤ fld policy 8 8) :
    exec (.setRestorePolicy m policy) s =
      .next ((s.mapResume fun r => { r with restorePct := fld policy 0 6, upspeedDelayS := fld policy 8 8 }).reply m 0xC033 stOk []) := by
  show execSetRestorePolicy m policy s = _
  exact slafin_answers runs (if_pos ⟨least, most, delay⟩)

/-- The answer names the state of the image as the reading leaves it (R270). -/
theorem exec_retryRestore_unreadable {f : ImageFound} {t : State}
    (runs : s.runs m { op := 0xC034, roles := rBmcOwn, sess := false, l0 := false, secure := false, inLen := 0, body := 1 })
    (unreadable : s.resume.image = 3) (awake : s.inSave = false) (ht : t = (s.mapResume fun r => { r with imageStep := 0 }).readImage f) :
    exec (.retryRestore m f) s = .next (t.reply m 0xC034 stOk (leNat 1 t.resume.image.val)) := by
  subst ht
  show execRetryRestore m f s = _
  exact slafin_answers runs (if_pos ⟨unreadable, by rw [awake]; rfl⟩)

end

/-- Settles O29: one lemma for each of the seven commands. -/
theorem shadowCommands : Obligations.ShadowCommands := fun _ _ =>
  ⟨fun runs _ _ => exec_setShadowPolicy_taken runs, fun runs _ => exec_setRegionDurable_volatile runs, fun runs _ => exec_restorePriority_queued runs,
    fun runs bmc _ _ _ => exec_getLossList_bmc runs bmc, fun runs _ _ _ => exec_reofferExtent_declined runs,
    fun runs _ => exec_setRestorePolicy_inRange runs, fun runs unreadable awake _ _ => exec_retryRestore_unreadable runs unreadable awake⟩

end Sys2Proof.Machine
end

section
/-! The steps of a resume: what each of their commands answers on the hypotheses of O16. -/

namespace Sys2Proof.Machine

section
variable {s : State}

@[simp] theorem State.writeImage_shank (w : ImageWrite) : (s.writeImage w).shank = s.shank := State.emit_shank s _

/-- Before the last group of the pool no emergency bin is set aside (R251). -/
theorem exec_poolInitGroup_notLast {t u : State} {fresh : Nat} (notLast : s.resume.initGroups + 1 < s.poolGroups) (zeroed : s.resume.tableZeroed = true)
    (awake : s.inSave = false) (step6 : s.power.bringup = 6) (capacity : s.capacityUp = true)
    (trained : (List.range s.channels).all (fun c => !decide ((s.chan c).state = 2 ∧ (s.chanUnit c).isNone)) = true)
    (hfresh : fresh = ((s.dataMembers s.resume.initGroups).filter fun f => decide ((s.frameRec f).kind = .free) && decide (s.place f = .at f)).length)
    (ht : t = (s.charge mRestore (chargeRead (64 * s.w))).mapResume (fun r =>
      { r with initGroups := s.resume.initGroups + 1, initDone := decide (s.resume.initGroups + 1 = s.poolGroups) }))
    (hu : u = t.mapTier (fun x => { x with freeFrames := x.freeFrames + fresh })) :
    exec .poolInitGroup s = .next u.enterS1.afterFree.wake := by
  have left : ¬ s.resume.initGroups ≥ s.poolGroups := by omega
  have noneTrains : ((List.range s.channels).any fun c => decide ((s.chan c).state = 2 ∧ (s.chanUnit c).isNone)) = false := by
    rw [List.all_eq_not_any_not, Bool.not_eq_true'] at trained
    simpa only [Bool.not_not] using trained
  have unfinished : u.resume.initDone = false := by
    subst hu ht
    exact decide_eq_false notLast.ne
  show execPoolInitGroup s = _
  simp only [execPoolInitGroup, left, zeroed, awake, step6, capacity, noneTrains, ← hfresh, ← ht, ← hu, unfinished, Bool.not_true, Bool.false_eq_true,
    lt_self_iff_false, or_self, if_false]

theorem exec_imageRead_first {f : ImageFound} (unread : s.resume.imageStep = 0) (noImage : s.shank.imageExists = false) (awake : s.inSave = false)
    (resuming : s.inResume = true) :
    exec (.imageRead f) s = .next (s.readImage f) := by
  show execImageRead f s = _
  simp only [execImageRead, unread, noImage, awake, resuming, Bool.not_true, Bool.false_eq_true, ne_eq, not_true_eq_false, or_self, if_false]

/-- An empty log has no late record, so the head starts at the segment after LSN_END and no page takes an outcome (R256). The last
step is a `rw`: as a definitional step the kernel would unfold both states and compare their heads of the log by computing with `segUnits`. -/
theorem exec_restoreIndexBuilt_emptyLog (read : s.resume.imageStep = 1) (awake : s.inSave = false) (empty : s.image.log = []) :
    exec .restoreIndexBuilt s =
      .next (((s.mapShank fun k => { k with headLsn := roundUp s.resume.lsnEnd segUnits, segRecords := 0, lapStart := roundUp s.resume.lsnEnd segUnits
                                            prevLapStart := k.tailLsn }).mapResume fun r =>
        { r with imageStep := 2, extents := extentsOf s.image.regions }).startExtent.checkLog).raiseLevel.wake := by
  have noLate : lateScan [] 0 s.resume.lsnEnd = ([], s.resume.lsnEnd) := rfl
  have noPages : sortBy (fun a b : Nat => decide (a ≤ b)) [] = [] := rfl
  show execRestoreIndexBuilt s = _
  simp only [execRestoreIndexBuilt, read, awake, empty, List.filter_nil, List.length_nil, noLate, List.isEmpty_nil, List.append_nil, List.map_nil,
    List.eraseDups_nil, noPages, List.foldl_nil, Bool.false_eq_true, ne_eq, not_true_eq_false, or_self, if_false, if_true]
  rw [State.mapShank_image]

section
variable {v : Nat × Nat} {rest : List (Nat × Nat)} {blocks : Nat} (oldest : s.shank.voids = v :: rest) (awake : s.inSave = false)
  (built : s.resume.imageStep = 2)
include oldest awake built

theorem exec_voidOverwriteStep_within (within : (s.shank.voidBlocks + blocks) * 64 < v.2 - v.1) :
    exec (.voidOverwriteStep blocks) s =
      .next ((s.writeImage (.clear (16384 + v.1 % s.logUnits / 64 + s.shank.voidBlocks) blocks)).mapShank fun k =>
        { k with voidBlocks := s.shank.voidBlocks + blocks }) := by
  show execVoidOverwriteStep blocks s = _
  simp only [execVoidOverwriteStep, oldest, awake, built, State.writeImage_shank, within, Bool.false_eq_true, ne_eq, not_true_eq_false, or_self,
    if_false, if_true]

/-- At its end the void range is forgotten, and what the log held in it (R255). -/
theorem exec_voidOverwriteStep_end (ended : v.2 - v.1 ≤ (s.shank.voidBlocks + blocks) * 64) :
    exec (.voidOverwriteStep blocks) s =
      .next (((s.writeImage (.clear (16384 + v.1 % s.logUnits / 64 + s.shank.voidBlocks) blocks)).mapImage fun i =>
        { i with log := i.log.filter fun r => !inVoid [v] r.lsn }).mapShank fun k => { k with voids := rest, voidBlocks := 0 }) := by
  show execVoidOverwriteStep blocks s = _
  simp only [execVoidOverwriteStep, oldest, awake, built, State.writeImage_shank, Nat.not_lt.mpr ended, Bool.false_eq_true, ne_eq, not_true_eq_false,
    or_self, if_false]

end

section
variable {x : RExtent} (awake : s.inSave = false) (running : (s.resume.extents.find? fun x => decide (x.state = .running)) = some x)
include awake running

/-- A zero page needs no frame and no decompressor (R257). -/
theorem exec_restoreRecordRead_zero {hint : Frame} {d : Dpn} {r : Record} (built : s.resume.imageStep = 2)
    (next : (s.resume.index.find? fun p => x.has p.1) = some (d, r)) (zero : r.form = .zero) (good : r.bad = false) :
    exec (.restoreRecordRead true hint) s = .next ((s.putEntry r.dpn { s.restoredEntry r with state := .zero, heat := 0 }).restored r).wake := by
  show execRestoreRecordRead true hint s = _
  simp only [execRestoreRecordRead, awake, built, running, next, zero, good, Bool.not_false, Bool.false_eq_true, ne_eq, not_true_eq_false, or_self,
    and_self, if_false, if_true]

theorem exec_restoreExtentDone_empty (resuming : s.resume.level ≠ 0) (nothingLeft : s.extentLeft x = false) :
    exec .restoreExtentDone s = .next (s.extentDone x).startExtent.raiseLevel.wake := by
  show execRestoreExtentDone s = _
  simp only [execRestoreExtentDone, awake, resuming, running, nothingLeft, Bool.false_eq_true, or_self, if_false]

end

end

/-- Settles O16: one lemma for each command of a resume, two for the overwriting of a void range. -/
theorem resumeEvents : Obligations.ResumeEvents := fun _ =>
  ⟨fun _ _ _ => exec_poolInitGroup_notLast, fun _ => exec_imageRead_first, exec_restoreIndexBuilt_emptyLog,
    fun _ _ _ oldest awake built => exec_voidOverwriteStep_within oldest awake built,
    fun _ _ _ oldest awake built => exec_voidOverwriteStep_end oldest awake built,
    fun _ _ _ _ awake built running => exec_restoreRecordRead_zero awake running built,
    fun _ awake resuming running => exec_restoreExtentDone_empty awake running resuming⟩

end Sys2Proof.Machine
end

section
/-! Regulation: what its commands answer on the hypotheses of O31. -/

namespace Sys2Proof.Machine

section
variable {s : State} {m : Msg}

/-- The settings of one command are judged together: one refused admission refuses them all (R281). -/
theorem exec_setMasters_inRange {entries : List (Byte × W64)} {news : List (Nat × Master)}
    (runs : s.runs m { op := 0xC050, roles := rFmBmcOwn, sess := false, l0 := false, secure := false, inLen := 8 + 16 * entries.length, body := 2 })
    (hnews : news = entries.map (fun e => (e.1.toNat, (s.configured e.1.toNat).apply e.1.toNat e.2))) (nonempty : entries ≠ []) (most : entries.length ≤ 39)
    (known : entries.all (fun e => decide (e.1.toNat < masterCount) && (decide (32 ≤ e.1.toNat) || s.hasLd e.1.toNat)) = true)
    (may : entries.all (fun e => maySet (s.role m) e.1.toNat) = true) (inRange : news.all (fun p => settingOk p.1 p.2) = true) :
    exec (.setMasters m entries) s =
      .next (if s.admits news then (s.setPending news).reply m 0xC050 stOk (leNat 2 (s.setPending news).reg.scale)
        else s.rejectAdmission.reply m 0xC050 stAdmission []) := by
  have noneUnknown : (entries.any fun e => decide (e.1.toNat ≥ masterCount) || (decide (e.1.toNat < 32) && !s.hasLd e.1.toNat)) = false := by
    rw [List.all_eq_not_any_not, Bool.not_eq_true'] at known
    simpa only [Bool.not_and, Bool.not_or, ← decide_not, Nat.not_lt, Nat.not_le] using known
  have noneDenied : (entries.any fun e => !maySet (s.role m) e.1.toNat) = false := by
    rwa [List.all_eq_not_any_not, Bool.not_eq_true'] at may
  have noneOutside : (news.any fun p => !settingOk p.1 p.2) = false := by
    rwa [List.all_eq_not_any_not, Bool.not_eq_true'] at inRange
  have notEmpty : entries.isEmpty = false := List.isEmpty_eq_false_iff.mpr nonempty
  show execSetMasters m entries s = _
  cases admits : s.admits news
  all_goals
    refine slafin_answers runs ?_
    simp only [← hnews, notEmpty, Nat.not_lt.mpr most, noneUnknown, noneDenied, noneOutside, admits, Bool.not_true, Bool.not_false, Bool.false_eq_true,
      or_self, if_false, if_true]

theorem exec_setRegPolicy_inOrder {policy : W64}
    (runs : s.runs m { op := 0xC051, roles := rBmcOwn, sess := false, l0 := false, secure := false, inLen := 8, body := 0 })
    (least : 1 ≤ fld policy 0 7) (most : fld policy 0 7 ≤ 126) (order : fld policy 0 7 < fld policy 7 7) (age : 1 ≤ fld policy 14 8) :
    exec (.setRegPolicy m policy) s =
      .next ((s.mapReg fun r => { r with optimalPct := fld policy 0 7, moderatePct := fld policy 7 7, ageUs := fld policy 14 8 }).reply m 0xC051 stOk []) := by
  show execSetRegPolicy m policy s = _
  exact slafin_answers runs (if_pos ⟨least, most, order, age⟩)

/-- With no master over budget the interval is not one of those that the counter of such intervals counts (R278). -/
theorem exec_accountingInterval_inBudget {t : State} (inBudget : (List.range masterCount).all (fun n => !(s.master n).overBudget) = true)
    (ht : t = (((List.range masterCount).foldl (fun (s : State) n =>
      s.setMaster n { s.configured n with pending := none, interval := 0, overLast := (s.configured n).overBudget, overBudget := false }) s).mapReg fun r =>
        { r with lastTotal := ((List.range masterCount).map fun n => (s.master n).interval).sum }).rescale) :
    exec .accountingInterval s = .next (State.arbitrate t.reg.arbiter.length t) := by
  have noneOver : ((List.range masterCount).any fun n => (s.master n).overBudget) = false := by
    rw [List.all_eq_not_any_not, Bool.not_eq_true'] at inBudget
    simpa only [Bool.not_not] using inBudget
  show execAccountingInterval s = _
  simp only [execAccountingInterval, noneOver, Bool.false_eq_true, if_false, ← ht]

end

/-- Settles O31: one lemma for each of the two settings commands, and one for the interval. -/
theorem regulationCommands : Obligations.RegulationCommands :=
  ⟨fun _ _ => ⟨fun _ _ runs => exec_setMasters_inRange runs, fun runs _ => exec_setRegPolicy_inOrder runs⟩,
    fun _ inBudget _ => exec_accountingInterval_inBudget inBudget⟩

end Sys2Proof.Machine
end

section
/-! Waits, slot supplies, drive links, deferrals, vectors and decoders: what the commands that end them answer on the hypotheses of O42. -/

namespace Sys2Proof.Machine

theorem State.chan_updChan_emit (s : State) (k : Nat) (f : Chan → Chan) (o : Output) : ((s.updChan k f).emit o).chan k = f (s.chan k) :=
  (State.chan_updChan s k k f).trans (if_pos rfl)

section
variable {s : State}

section
variable {ch : Fin 12}

/-- The rejoin command that waits for the supply completes as full training starts (R182). -/
theorem exec_pmicPowerGood_waited {m : Msg} {t : State} (read : (s.chan ch.val).slotStep = .spdRead) (waits : (s.chan ch.val).rejoinWait = some m)
    (ht : t = (s.updChan ch.val fun c => { c with slotStep := .powered, state := 2, full := true, rejoinWait := none }).setUnitState ch.val 4) :
    exec (.pmicPowerGood ch) s = .next ((t.updChan ch.val fun c => { c with rate := t.chosenRate ch.val }).reply m 0xC082 stOk []) := by
  show execPmicPowerGood ch s = _
  simp only [execPmicPowerGood, read, waits, ← ht, ne_eq, not_true_eq_false, if_false]

theorem exec_slotSupplySettled_refused {dimms : List (Fin 2 × Dimm)} (powering : (s.chan ch.val).slotStep = .powering)
    (unfit : framesOf dimms < (s.chan ch.val).frames ∨ dimms.all (fun d => dimmSupported d.2) = false) :
    exec (.slotSupplySettled ch dimms) s = .next (s.rejoinEnds ch.val stNoResource) := by
  have ends : framesOf dimms < (s.chan ch.val).frames ∨ (!dimms.all fun d => dimmSupported d.2) = true := by rwa [Bool.not_eq_true']
  show execSlotSupplySettled ch dimms s = _
  rw [execSlotSupplySettled, if_neg (not_not.mpr powering), if_pos ends]

/-- The channel is written last, so what it shows does not depend on the repair rows and the derating that an exchanged module takes with it (R158). -/
theorem exec_slotSupplySettled_fit {dimms : List (Fin 2 × Dimm)} (powering : (s.chan ch.val).slotStep = .powering)
    (enough : (s.chan ch.val).frames ≤ framesOf dimms) (supported : dimms.all (fun d => dimmSupported d.2) = true) :
    ∃ t, exec (.slotSupplySettled ch dimms) s = .next t ∧ (t.chan ch.val).slotStep = .spdRead ∧ (t.chan ch.val).unusable = 0
      ∧ (t.chan ch.val).failures = [] := by
  have goesOn : ¬ (framesOf dimms < (s.chan ch.val).frames ∨ (!dimms.all fun d => dimmSupported d.2) = true) := by
    simp [supported, Nat.not_lt.mpr enough]
  have answer : exec (.slotSupplySettled ch dimms) s = execSlotSupplySettled ch dimms s := rfl
  rw [answer, execSlotSupplySettled, if_neg (not_not.mpr powering), if_neg goesOn]
  refine ⟨_, rfl, ?_⟩
  rw [State.chan_updChan_emit]
  exact ⟨rfl, rfl, rfl⟩

/-- The quiesce command that waits for the slots to be off completes (R182). -/
theorem exec_slotSupplyOff_waited {m : Msg} (parking : (s.chan ch.val).slotStep = .parking) (waits : (s.chan ch.val).quiesceWait = some m) :
    exec (.slotSupplyOff ch) s =
      .next (((s.updChan ch.val fun c => { c with slotStep := .off, state := 3, quiesceWait := none }).setUnitState ch.val 3).reply m 0xC081 stOk []) := by
  show execSlotSupplyOff ch s = _
  simp only [execSlotSupplyOff, parking, waits, ne_eq, not_true_eq_false, if_false]

end

/-- A drive that is no candidate of an image waits for a creation while the set is whole (R237). -/
theorem State.joinDrive_wholeSet (n : Fin 4) (whole : s.shank.failedMember = none) :
    s.joinDrive n = s.updDrive n.val fun d => { d with state := 0, fit := true } := by
  rw [State.joinDrive, whole]

/-- A link with its lane margin keeps the rate that it came up at (R434). -/
theorem exec_driveLinkUp_fit {n : Fin 4} {d : DriveInfo} {b : Board} {u : State} (here : s.hasDrive n.val = true) (unused : s.driveWrites n.val = false)
    (margin : d.margin ≥ 10) (board : s.power.board = some b) (derated : Tab.get (fun _ => 0) s.power.derateDrive n.val = 0) (fresh : d.candidate = false)
    (hu : u = s.updDrive n.val (fun x => { x with
      x8 := b.flags.getLsbD 2, speed := d.gen, margin := d.margin, blocks := d.blocks.toNat / 32 * 32, nguid := d.nguid, fit := false, commands := [],
      perst := true, written := 0, rate := 0, rebuilt := 0 }))
    (meets : u.driveMeets n.val d = true) (whole : u.shank.failedMember = none) :
    exec (.driveLinkUp n d) s = .next (u.updDrive n.val fun d => { d with state := 0, fit := true }).wake := by
  show execDriveLinkUp n d s = _
  simp only [execDriveLinkUp, here, unused, board, derated, ← hu, Nat.not_lt.mpr margin, meets, fresh, State.joinDrive_wholeSet n whole, Bool.not_true,
    Bool.not_false, Bool.false_eq_true, ne_eq, not_true_eq_false, false_and, or_self, if_false, if_true]

theorem exec_backgroundOperationDone_running {fn : Fin 36} {op : W16} (running : (s.cmdLd fn.val).background = some (op, false)) :
    exec (.backgroundOperationDone fn) s =
      .next ((s.updCmdLd fn.val fun c => { c with background := some (op, true) }).emit (.background fn.val op.toNat)) := by
  show execBackgroundOperationDone fn s = _
  rw [execBackgroundOperationDone, running]

/-- The targets below 12 are the channels, each with at most one change of rate that waits (R180). -/
theorem exec_changeDeferralTimeout_channel {target : Fin 20} {m : Msg} {c : DdrControl} (channel : target.val < 12)
    (deferred : (s.chan target.val).rateDeferred = some (m, c)) :
    exec (.changeDeferralTimeout target) s =
      .next ((s.updChan target.val fun c => { c with rateDeferred := none }).reply m 0xC083 stDeferred []) := by
  show execChangeDeferralTimeout target s = _
  simp only [execChangeDeferralTimeout, channel, if_true, deferred]

theorem exec_msixVectorUnmask_here {fn : Fin 36} (vector : Fin 2048) (here : s.hasFn fn.val = true) :
    exec (.msixVectorUnmask fn vector) s = .next (s.unmask fn.val vector.val) := by
  show execMsixVectorUnmask fn vector s = _
  rw [execMsixVectorUnmask, if_pos here]

/-- The first decoder follows no other, so the order of the decoders' ranges asks nothing of it (R291). -/
theorem exec_hdmDecoderCommit_first {ld : Fin 32} {base size : W64} {ways : Fin 17} {gran : W16} (here : s.hasLd ld.val = true)
    (uncommitted : (Tab.get (fun _ => none) (s.fn ld.val).hdm 0 : Option HdmDecoder) = none)
    (limits : hdmOk base.toNat size.toNat ways.val gran.toNat = true) (inside : base.toNat + size.toNat ≤ 2 ^ 64) :
    exec (.hdmDecoderCommit ld 0 base size ways gran) s = .next (s.updFn ld.val fun f =>
      { f with hdm := Tab.set (fun _ => none) 0 (some { base, size, ways := ways.val, gran := gran.toNat }) f.hdm }) := by
  show execHdmDecoderCommit ld 0 base size ways gran s = _
  simp only [execHdmDecoderCommit, here, uncommitted, limits, Nat.not_lt.mpr inside, Fin.val_zero, Option.isSome_none, decide_true, Bool.true_or,
    Bool.not_true, Bool.false_eq_true, or_self, if_false]

end

/-- Settles O42: one lemma for each command; the end of a hold and an age have one path each. -/
theorem waitsEnd : Obligations.WaitsEnd := by
  refine fun s => ⟨?hold, ?age, fun _ _ _ => exec_pmicPowerGood_waited, fun _ _ => exec_slotSupplySettled_refused, fun _ _ => exec_slotSupplySettled_fit,
    fun _ _ => exec_slotSupplyOff_waited, fun _ _ _ _ => exec_driveLinkUp_fit,
    fun _ _ => exec_backgroundOperationDone_running, fun _ _ _ => exec_changeDeferralTimeout_channel, fun _ => exec_msixVectorUnmask_here,
    fun _ _ _ _ _ => exec_hdmDecoderCommit_first⟩
  case hold =>
    rintro master row t rfl
    rfl
  case age =>
    rintro tag t rfl
    rfl

end Sys2Proof.Machine
end

section
/-! SLAFIN commands that a check turns away, and what an answer changes (14 R339, R343 to R345). -/

namespace Sys2Proof.Machine

/-- A command that a check turns away is answered before its act runs. -/
theorem slafin_turnedAway {s : State} {m : Msg} {g : Gate} {act : State → Result} {st : W16} (turned : s.turned m g st) :
    s.slafin g m act = .next (s.reply m g.op st []) := by
  obtain ⟨arrives, away⟩ := turned
  exact slafin_turned arrives away

/-- The only gate of the range whose fixed body depends on an operand (R345). -/
theorem exec_readRegisters_turned {s : State} {m : Msg} {length : W32} {st : W16} (cap ld : Byte) (offset : W16)
    (turned : s.turned m
      { op := 0xC003, roles := rBmcOwn, sess := false, l0 := false, secure := false, inLen := 8, body := if length.toNat ≤ 4096 then length.toNat else 0 } st) :
    exec (.readRegisters m cap ld offset length) s = .next (s.reply m 0xC003 st []) := by
  show execReadRegisters m cap ld offset length s = _
  unfold execReadRegisters
  exact slafin_turnedAway turned

section
variable {m : Msg} (noEyelet : ∀ ld ch tag, m.path ≠ .eyelet ld ch tag) (s : State) (op : Nat)
include noEyelet

/-- Off the Eyelets an answer of a SLAFIN command is an output alone (R343). -/
theorem reply_of_noEyelet (st : W16) (body : List Byte) : s.reply m op st body = s.emit (.slafin m st (if st = stOk then body else [])) := by
  cases path : m.path with
  | eyelet ld ch tag => exact absurd path (noEyelet ld ch tag)
  | _ => simp only [State.reply, path]

theorem respStd_of_noEyelet (code : W16) (body : List Nat) : s.respStd m op code body = s.emit (.resp m code body) := by
  cases path : m.path with
  | eyelet ld ch tag => exact absurd path (noEyelet ld ch tag)
  | _ => simp only [State.respStd, path]

end

/-- Settles O43: every command of the range runs in one frame, which turns it away before its act; off the Eyelets an answer is an output alone. -/
theorem turnedAway : Obligations.TurnedAway := by
  refine ⟨fun s m st => ?commands, fun s m op st body noEyelet => ⟨reply_of_noEyelet noEyelet s op st body, respStd_of_noEyelet noEyelet s op⟩⟩
  case commands =>
    and_intros
    on_goal 33 => exact fun cap ld offset _ => exec_readRegisters_turned cap ld offset
    all_goals
      intros
      unfold exec
      exact slafin_turnedAway ‹_›

end Sys2Proof.Machine
end

section
/-! Which commands stop: a command whose operands are well formed answers a next state in every state (19 R388; log 18). -/

namespace Sys2Proof.Machine

/-- The outcome is a next state. -/
def Answers (o : Out) : Prop := ∃ t, o = .next t

theorem answers_next (t : State) : Answers (.next t) := ⟨t, rfl⟩

theorem answers_if {c : Prop} [Decidable c] {a b : Out} (ha : Answers a) (hb : Answers b) : Answers (if c then a else b) := by
  split <;> assumption

/-! ### The frames of the commands -/

section
variable (s : State) (op : Nat) (m : Msg)

theorem answers_slafin (g : Gate) (act : State → Result) : Answers (s.slafin g m act) := by
  refine answers_if (answers_next _) ?_
  split
  · exact answers_next _
  · split <;> exact answers_next _

theorem answers_std (ok : Path → Bool) (act : State → StdResult) : Answers (s.std op ok m act) := by
  refine answers_if (answers_next _) (answers_if (answers_next _) (answers_if (answers_next _) ?_))
  split <;> exact answers_next _

theorem answers_dcRun (act : Fin 32 → State → StdResult) : Answers (s.dcRun op m act) := answers_std ..

theorem answers_qosGet (start number : Byte) (f : Master → Nat) : Answers (s.qosGet op m start number f) := answers_std ..

theorem answers_qosSet (start : Byte) (fractions : List W16) (f : Nat → Master → Master) : Answers (s.qosSet op m start fractions f) :=
  answers_std ..

theorem answers_fwRun (act : State → StdResult) : Answers (s.fwRun op m act) := by
  refine answers_if (answers_next _) (answers_if (answers_next _) ?_)
  split <;> exact answers_next _

theorem answers_tspRun (ld : Fin 32) (x : Fin 8) (act : State → State) : Answers (s.tspRun ld x act) :=
  answers_if (answers_next _) (answers_if (answers_next _) (answers_if (answers_next _) (answers_if (answers_next _) (answers_next _))))

theorem answers_spdmRun (act : State → State) : Answers (s.spdmRun m act) := by
  refine answers_if (answers_next _) ?_
  split <;> exact answers_next _

theorem answers_spdmReady (act : State → State) : Answers (s.spdmReady m act) := answers_spdmRun ..

theorem answers_spdmIn (x : Fin 8) (act : Session → State → State) : Answers (s.spdmIn m x act) := answers_spdmReady ..

theorem answers_operate (q : BitVec 20) (id : W16) (act : Nat → Exec → Nat → Nat → Bool → State → PageRes) : Answers (s.operate q id op act) := by
  unfold State.operate
  split <;> exact answers_next _

end

/-! ### Register writes, which reach a doorbell too -/

section
variable (s : State)

theorem execDoorbell_answers (ld : Fin 32) (page : Fin 64) (value : W64) (pasid : Option (BitVec 20)) : Answers (execDoorbell ld page value pasid s) := by
  dsimp only [execDoorbell]
  refine answers_if (answers_next _) ?_
  split
  · exact answers_next _
  · split
    · exact answers_next _
    · exact answers_if (answers_next _) (answers_if (answers_next _) (answers_if (answers_next _) (answers_next _)))

theorem writeLdReg_answers (ld : Fin 32) (off : Nat) (v : W64) : Answers (s.writeLdReg ld off v) := by
  refine answers_if (answers_next _) (answers_if (answers_next _) (answers_if ?_ (answers_if (execDoorbell_answers ..) (answers_next _))))
  dsimp only
  split <;> exact answers_next _

theorem writeReg_answers (fn off : Nat) (v : W64) : Answers (s.writeReg fn off v) :=
  answers_if (answers_next _) (answers_if (answers_next _) (answers_if (answers_next _) (answers_if (answers_if (answers_next _) (answers_next _))
    (answers_if (answers_if (answers_next _) (answers_if (answers_next _) (answers_next _))) (writeLdReg_answers ..)))))

theorem execRegisterWrite_answers (fn : Fin 36) (offset : BitVec 25) (value : W64) (four : Bool) : Answers (execRegisterWrite fn offset value four s) :=
  answers_if (answers_next _) (answers_if (answers_if (answers_next _) (answers_next _)) (writeReg_answers ..))

end

/-- Settles O60: the three commands that can stop, each by its check; the others by their frame, or branch by branch. -/
theorem onlyIllFormedStops : Obligations.OnlyIllFormedStops := by
  intro c s
  cases c
  case coldReset b =>
    cases formed : b.wf
    · exact .inl ⟨formed, if_pos (by rw [formed]; rfl)⟩
    · exact .inr ⟨_, if_neg (by simp [formed])⟩
  case resetNRelease b =>
    cases formed : b.wf
    · exact .inl ⟨formed, if_pos (by rw [formed]; rfl)⟩
    · refine .inr ?_
      show Answers (execResetNRelease b s)
      rw [execResetNRelease, if_neg (by simp [formed])]
      exact answers_if (answers_next _) (answers_next _)
  case bypass code =>
    by_cases another : tapCodes.contains code = true
    · exact .inl ⟨another, if_pos another⟩
    · exact .inr ⟨_, if_neg another⟩
  all_goals
    refine .inr ?_
    change Answers _
    dsimp only [exec]
  case doorbell => exact execDoorbell_answers ..
  case registerWrite => exact execRegisterWrite_answers ..
  case cxlMemRead | cxlMemWrite | partialLineWrite | lastCacheClean | migrationSourceRelease | activationWindowStart | caParityAlert | writeCrcAlert |
      dataFlitReceived | creditFlit | retrainRequest | handover | returnFlit | trainPattern | trainParameters | trainDone | eventArrival | classReturn
      | lockLeaseExpiry | pwrgoodFall | aonSupplyLoss | extest | idcode | samplePreload | clamp | highz =>
    exact answers_next _
  case setWeltPolicy | getRepairTable | compatRemap | compatClear | compatList | setChannelControl | quiesceChannel | rejoinChannel | setLacePoint |
      driveRelease | driveRemove | setShadowPolicy | setRegionDurable | restorePriority | getLossList | reofferExtent | setRestorePolicy |
      retryRestore | setMasters | setRegPolicy | setPortRate | awlArm | awlDisarm | setSource | clearSource | getSources | readInsole | unfreezeInsole
      | createQueue | destroyQueue | setCoalesce | bindDoorbell | setPoqShare | lockCommand | getSlafinInfo | setSlafinVersion | setOwnerKey |
      programKey | destroyKey | queryKey | setDefaultKey | setKeyQuota | grantShare | setTierPolicy | setRangeAttr | setPageOwner | setHostCapacity |
      getMarginReport =>
    exact answers_slafin ..
  case readRegisters =>
    unfold execReadRegisters
    exact answers_slafin ..
  case identifyMemoryDevice | getHealthInfo | getAlertConfiguration | setAlertConfiguration | getShutdownState | setShutdownState | getTimestamp |
      setTimestamp | getEventRecords | clearEventRecords | getEventInterruptPolicy | setEventInterruptPolicy | getSupportedLogs | getLog |
      getPartitionInfo | setPartitionInfo | getPoisonList | injectPoison | clearPoison | sanitize | secureErase | backgroundOperationStatus |
      getLdInfo | getLdAllocations | setLdAllocations | getQosControl | setQosControl | getQosStatus | getMultiHeadedInfo | getHeadInfo | getDcdInfo |
      getHostDcRegionConfiguration | setDcRegionConfiguration | getDcRegionExtentLists | initiateDynamicCapacityAdd | initiateDynamicCapacityRelease |
      getFwInfo =>
    exact answers_std ..
  case getQosAllocatedBw | getQosBwLimit =>
    exact answers_qosGet ..
  case setQosAllocatedBw | setQosBwLimit =>
    exact answers_qosSet ..
  case getDynamicCapacityConfiguration | getDynamicCapacityExtentList | addDynamicCapacityResponse | releaseDynamicCapacity =>
    exact answers_dcRun ..
  case transferFw | activateFw =>
    exact answers_fwRun ..
  case getTargetTspVersion | getTargetCapabilities | setTargetConfiguration | getTargetConfiguration | getTargetConfigurationReport |
      lockTargetConfiguration | setTargetCkidSpecificKey | setTargetCkidRandomKey | clearTargetCkidKey | tspUnsupportedRequest =>
    exact answers_tspRun ..
  case getVersion | getCapabilities | negotiateAlgorithms =>
    exact answers_spdmRun ..
  case getDigests | getCertificate | challenge | getMeasurements | keyExchange | finish | vendorDefinedRequest =>
    exact answers_spdmReady ..
  case keyUpdate | heartbeat | endSession =>
    exact answers_spdmIn ..
  case decompressIn =>
    dsimp only [execDecompressIn]
    repeat' split
    any_goals exact answers_next _
    exact answers_operate ..
  case zeroRange | copyRange | pinHot | unpin | promote | demote =>
    exact answers_operate ..
  -- Their branches are conditions alone.
  case lastEntryReturned | decaySweepVisit | binCompaction | releaseReevaluation | parityCacheClean | candidateExpiry | repairWaitExpiry | rowRetired
      | refreshDue | owedRefreshDrain | periodicTracking | requestAgePromote | pmicPowerGoodTimeout | pmicFault | trainMcuWatchdog | ackDue |
      ctrlFlitDue | replayTimerExpiry | creditLeakDetected | leakRetrainStart | silenceTimeout | retrainTimeout | handoverTimeout | returnAttempt |
      returnSoakEnd | dieRead | dieWrite | channelCommand | dieEvent | lineData | writeDone | commandDone | eventTaken | epochEnd | saveStart |
      gpfPhase1 | gpfPhase2 | gpfTimeout | saveQueueEmpty | saveFlushComplete | parityWritebackDone | pwrfailReturn | resumeInPlace | driveSaveTimeout
      | driveFail | driveRebuildStep | imageCreate | drivePresenceChange | poolInitGroup | imageRead | accountingInterval | priorityHoldEnd |
      arbiterWaitAge | linkTrained | portReset | perstRelease | ldReset | configRequest | mmioBadAccess | msixVectorUnmask | aliveToggle |
      heartbeatLost | insoleExportEnable | freezeAll | cpmuConfigWrite | sampleCfgWrite | dumpRingEnable | periodicDump | eyeletNotice |
      eyeletConfigWrite | eventRingEnable | lockReleaseWrite | slafinUndefinedOpcode | unsupportedCommand | slotDestructionComplete | secureWorldReady
      | secureWatchdogExpiry | normalWatchdogExpiry | coreException | ownerTableChange | gateRequest | cdatTableAccess | warmReset | avsPoll |
      xtalLoss | pllUnlock | channelPllUnlock | thermAlert =>
    repeat' refine answers_if ?_ ?_
    all_goals exact answers_next _
  -- Their branches are matches too; each ends in a next state.
  case mergeOldLineArrived | weltDeltaWrite | rebuildComplete | verifyReadResult | chunkDecodeDone | migrationStart | migrationCopyRoundDone |
      chunkCoded | queuedPromotionStart | backgroundDemotionStart | rebalance | onchipParityError | rowRepairStart | postPackageRepairDone | scrubLine
      | ecsRead | unitRebuildStep | unitMapResolve | moduleTempRead | slotPresenceChange | slotSupplyOff | slotSupplySettled | pmicPowerGood |
      trainingComplete | shadowRecord | driveCommandComplete | epochClose | refreshLapStep | windowRecompute | holdupSample | shadowRepairRecordRead |
      driveLinkUp | restoreIndexBuilt | voidOverwriteStep | restoreRecordRead | restoreExtentDone | linkDown | l0pRequest | upspeedRetry |
      changeDeferralTimeout | hdmDecoderCommit | insoleExportWrite | awlInjection | descriptorFetch | hardenRange | compressOut | heatReport | fence |
      poqCompletion | coalesceTimer | queueDrained | eyeletDequeue | commandBlockRead | lockRegisterRead | ideKmMessage | backgroundOperationDone |
      normalWorldReady | svnRaise | ownerViolation | mctpControlMessage | doeDiscovery | thermalSensorRead =>
    dsimp only [execMergeOldLineArrived, execWeltDeltaWrite, execRebuildComplete, execVerifyReadResult, execChunkDecodeDone, execMigrationStart,
      execMigrationCopyRoundDone, execChunkCoded, execQueuedPromotionStart, execBackgroundDemotionStart, execRebalance, execOnchipParityError,
      execRowRepairStart, execPostPackageRepairDone, execScrubLine, execEcsRead, execUnitRebuildStep, execUnitMapResolve, execModuleTempRead,
      execSlotPresenceChange, execSlotSupplyOff, execSlotSupplySettled, execPmicPowerGood, execTrainingComplete, execShadowRecord,
      execDriveCommandComplete, execEpochClose, execRefreshLapStep, execWindowRecompute, execHoldupSample, execShadowRepairRecordRead,
      execDriveLinkUp, execRestoreIndexBuilt, execVoidOverwriteStep, execRestoreRecordRead, execRestoreExtentDone, execLinkDown, execL0pRequest,
      execUpspeedRetry, execChangeDeferralTimeout, execHdmDecoderCommit, execInsoleExportWrite, execAwlInjection, execDescriptorFetch,
      execHardenRange, execCompressOut, execHeatReport, execFence, execPoqCompletion, execCoalesceTimer, execQueueDrained, execEyeletDequeue,
      execCommandBlockRead, execLockRegisterRead, execIdeKmMessage, execBackgroundOperationDone, execNormalWorldReady, execSvnRaise,
      execOwnerViolation, execMctpControlMessage, execDoeDiscovery, execThermalSensorRead]
    repeat' (first | with_reducible exact answers_next _ | with_reducible refine answers_if ?_ ?_ | split)
end Sys2Proof.Machine
end

section
/-! The commands about SLAFIN itself, registers and locks: what each answers on the hypotheses of O27. -/

namespace Sys2Proof.Machine

section
variable {s : State} {m : Msg}

theorem exec_slafinUndefinedOpcode_undefined {opcode : W16} (arrives : s.arrives m opcode.toNat = true) (inRange : slafinRange opcode.toNat = true)
    (undefinedOp : slafinDefined.contains opcode.toNat = false) :
    exec (.slafinUndefinedOpcode m opcode) s = .next (s.reply m opcode.toNat stInvalidOpcode []) :=
  if_neg (by rw [arrives, inRange, undefinedOp]; decide)

theorem exec_getSlafinInfo_runs
    (runs : s.runs m { op := 0xC000, roles := rAll, sess := false, l0 := false, secure := false, inLen := 0, body := 10 }) :
    exec (.getSlafinInfo m) s =
      .next (s.reply m 0xC000 stOk (leNat 2 1 ++ leNat 2 1 ++ leNat 1 (if s.ev8820 then 1 else 0) ++ zeros 3 ++ leNat 2 0x1FFF)) := by
  show execGetSlafinInfo m s = _
  exact slafin_answers runs rfl

section
variable (runs : s.runs m { op := 0xC001, roles := rAll, sess := false, l0 := false, secure := false, inLen := 2, body := 2 })
include runs

theorem exec_setSlafinVersion_bmc (bmc : s.role m = .bmc) :
    exec (.setSlafinVersion m 1) s = .next ((s.mapCmd fun c => { c with bmcVersion := 1 }).reply m 0xC001 stOk (leNat 2 1)) := by
  show execSetSlafinVersion m 1 s = _
  refine slafin_answers runs ?_
  simp only [bmc, ne_eq, not_true_eq_false, if_false]

theorem exec_setSlafinVersion_two : exec (.setSlafinVersion m 2) s = .next (s.reply m 0xC001 stUnsupportedVersion []) := by
  show execSetSlafinVersion m 2 s = _
  exact slafin_answers runs (if_pos (by decide))

end

theorem exec_setOwnerKey_runs (hash : BitVec 384)
    (runs : s.runs m { op := 0xC002, roles := s.mayOwn, sess := false, l0 := false, secure := true, inLen := 48, body := 0 }) :
    exec (.setOwnerKey m hash) s =
      .next ((s.mapCmd fun c => { c with owner := if hash = 0 then none else some hash }).reply m 0xC002 stOk []) := by
  show execSetOwnerKey m hash s = _
  exact slafin_answers runs rfl

/-- A run that ends inside the 4 KiB of its capability fits the fixed body of the command (R345). -/
theorem exec_readRegisters_inside {cap ld : Byte} {offset : W16} {length : W32}
    (runs : s.runs m { op := 0xC003, roles := rBmcOwn, sess := false, l0 := false, secure := false, inLen := 8, body := length.toNat })
    (least : 1 ≤ cap.toNat) (most : cap.toNat ≤ 11) (here : s.hasLd ld.toNat = true) (nonempty : 8 ≤ length.toNat)
    (inside : offset.toNat + length.toNat ≤ 4096) (alignedOffset : offset.toNat % 8 = 0) (alignedLength : length.toNat % 8 = 0) :
    exec (.readRegisters m cap ld offset length) s =
      .next (s.reply m 0xC003 stOk
        ((List.range (length.toNat / 8)).flatMap fun i => leBytes 8 (s.capReg ld.toNat cap.toNat (offset.toNat + 8 * i)))) := by
  have short : length.toNat ≤ 4096 := by omega
  have notZero : cap ≠ 0 := by rintro rfl; exact absurd least (by decide)
  show execReadRegisters m cap ld offset length s = _
  simp only [execReadRegisters, short, if_true]
  refine slafin_answers runs ?_
  simp only [notZero, Nat.not_lt.mpr most, here, Nat.not_lt.mpr nonempty, Nat.not_lt.mpr short, Nat.not_lt.mpr inside, alignedOffset, alignedLength,
    Bool.not_true, Bool.false_eq_true, ne_eq, not_true_eq_false, or_self, if_false]

/-- The BMC reads a lock by the command as a host does by its register (R355). -/
theorem exec_lockCommand_read {lock : Byte} {t : State}
    (runs : s.runs m { op := 0xC004, roles := rBmc, sess := false, l0 := false, secure := false, inLen := 2, body := 8 }) (known : lock.toNat ≤ 7)
    (ht : t = s.readLock lock.toNat [.bmc]) :
    exec (.lockCommand m lock 0) s =
      .next (t.reply m 0xC004 stOk (leBytes 8 (lockValue (t.lock lock.toNat) t.time (decide ((t.lock lock.toNat).holder = some 32))))) := by
  subst ht
  show execLockCommand m lock 0 s = _
  refine slafin_answers runs ?_
  rw [if_neg (not_or.mpr ⟨Nat.not_lt.mpr known, by decide⟩), if_pos rfl]

end

/-- Settles O27: one lemma for each clause, two for the two versions. -/
theorem slafinItself : Obligations.SlafinItself := fun _ _ =>
  ⟨fun _ => exec_slafinUndefinedOpcode_undefined, exec_getSlafinInfo_runs,
    fun runs bmc => ⟨exec_setSlafinVersion_bmc runs bmc, exec_setSlafinVersion_two runs⟩, fun runs hash => exec_setOwnerKey_runs hash runs,
    fun _ _ _ _ => exec_readRegisters_inside, fun _ runs known _ => exec_lockCommand_read runs known⟩

end Sys2Proof.Machine
end

section
/-! The SLAFIN commands of the queues: what each answers on the hypotheses of O30. -/

namespace Sys2Proof.Machine

section
variable {s : State} {m : Msg}

theorem exec_createQueue_taken {sqBase cqBase : W64} {pasid : W32} {log2 : Byte} {vector coalCount coalTime : W16} {index q : BitVec 20} {ld : Nat}
    (hld : ld = roleLd (s.role m)) (runs : s.runs m { op := 0xC040, roles := rLd, sess := false, l0 := false, secure := false, inLen := 28, body := 4 })
    (least : 4 ≤ log2.toNat) (most : log2.toNat ≤ 16) (coalesce : coalesceOk vector coalCount coalTime = true) (sqAligned : sqBase.toNat % 4096 = 0)
    (cqAligned : cqBase.toNat % 4096 = 0) (room : (s.poqLd ld).queues < (s.poqLd ld).quota) (free : s.newIndex index = some q) :
    exec (.createQueue m sqBase cqBase pasid log2 vector coalCount coalTime index) s =
      .next ((((s.useCtx q ld true).setCtx q.toNat (some
        { sqBase, cqBase, pasid := if pasid.getLsbD 31 then some (pasid.extractLsb' 0 20) else none, ld := Fin.ofNat 32 ld
          log2 := log2.toNat, state := .active, sqTail := 0, sqFetch := 0, cqTail := 0, cqPhase := true, vector
          coalCount := coalCount.toNat, coalTime := coalTime.toNat, done := 0, opened := 0, pendingInts := 0, execs := [], nextId := 0
          failed := false, destroyer := none })).updPoqLd ld fun x => { x with queues := x.queues + 1 }).reply m 0xC040 stOk (leNat 4 q.toNat)) := by
  show execCreateQueue m sqBase cqBase pasid log2 vector coalCount coalTime index s = _
  refine slafin_answers runs ?_
  simp only [← hld, Nat.not_lt.mpr least, Nat.not_lt.mpr most, coalesce, sqAligned, cqAligned, Nat.not_le.mpr room, free, Bool.not_true,
    Bool.false_eq_true, ne_eq, not_true_eq_false, or_self, if_false]

theorem exec_destroyQueue_active {q : W32} {c : QueueCtx}
    (runs : s.runs m { op := 0xC041, roles := rLd, sess := false, l0 := false, secure := false, inLen := 4, body := 0 }) (own : s.ownQueue m q = .ok c)
    (active : c.state ≠ .draining) :
    exec (.destroyQueue m q) s =
      .next ((s.useCtx (BitVec.ofNat 20 q.toNat) c.ld.val true).setCtx q.toNat (some { c with state := .draining, destroyer := some m })) := by
  show execDestroyQueue m q s = _
  refine slafin_waits runs ?_
  simp only [own, active, if_false]

/-- Completions that pend already meet the new limits at once (R333). -/
theorem exec_setCoalesce_own {q : W32} {c d : QueueCtx} {vector count time : W16} {t : State}
    (runs : s.runs m { op := 0xC042, roles := rLd, sess := false, l0 := false, secure := false, inLen := 10, body := 0 }) (own : s.ownQueue m q = .ok c)
    (coalesce : coalesceOk vector count time = true) (hd : d = { c with vector, coalCount := count.toNat, coalTime := time.toNat })
    (ht : t = (s.useCtx (BitVec.ofNat 20 q.toNat) c.ld.val true).setCtx q.toNat (some d)) :
    exec (.setCoalesce m q vector count time) s =
      .next ((if vector ≠ 0xFFFF ∧ c.pendingInts > 0 ∧ (time.toNat = 0 ∨ c.pendingInts ≥ count.toNat) then
        t.queueInterrupt (BitVec.ofNat 20 q.toNat) d else t).reply m 0xC042 stOk []) := by
  subst ht hd
  show execSetCoalesce m q vector count time s = _
  refine slafin_answers runs ?_
  simp only [own, coalesce, Bool.not_true, Bool.false_eq_true, if_false]

theorem exec_bindDoorbell_inRange {page mode : Byte} {ld : Nat} (pasid : W32) (hld : ld = roleLd (s.role m))
    (runs : s.runs m { op := 0xC043, roles := rLd, sess := false, l0 := false, secure := false, inLen := 8, body := 0 }) (lastPage : page.toNat ≤ 63)
    (lastMode : mode.toNat ≤ 3) :
    exec (.bindDoorbell m page mode pasid) s =
      .next ((s.updPoqLd ld fun x => { x with
        binds := Tab.set (fun _ => (0, 0)) page.toNat (Fin.ofNat 4 mode.toNat, if mode.toNat = 1 then pasid.extractLsb' 0 20 else 0) x.binds }).reply
          m 0xC043 stOk []) := by
  subst hld
  show execBindDoorbell m page mode pasid s = _
  exact slafin_answers runs (if_neg (by omega))

/-- A quota inside the whole of the LDs' quotas lies inside its own range too (R334). -/
theorem exec_setPoqShare_inside {n weight : Byte} {quota : W32}
    (runs : s.runs m { op := 0xC044, roles := rFm, sess := false, l0 := false, secure := false, inLen := 8, body := 0 })
    (here : s.hasLd n.toNat = true) (nonzero : weight ≠ 0)
    (inside : (((List.range s.nLds).filter (· ≠ n.toNat)).map fun k => (s.poqLd k).quota).sum + quota.toNat ≤ 2 ^ 20) :
    exec (.setPoqShare m n weight quota) s =
      .next ((s.updPoqLd n.toNat fun x => { x with weight := weight.toNat, quota := quota.toNat }).slots.reply m 0xC044 stOk []) := by
  have most : ¬ quota.toNat > 2 ^ 20 := by omega
  show execSetPoqShare m n weight quota s = _
  refine slafin_answers runs ?_
  simp only [here, nonzero, most, Nat.not_lt.mpr inside, Bool.not_true, Bool.false_eq_true, or_self, if_false]

end

/-- Settles O30: one lemma for each of the five commands. -/
theorem queueCommands : Obligations.QueueCommands := fun _ _ _ hld =>
  ⟨fun runs _ _ _ _ _ _ _ _ _ => exec_createQueue_taken hld runs, fun runs _ _ => exec_destroyQueue_active runs,
    fun runs _ _ _ _ _ _ _ => exec_setCoalesce_own runs, fun runs _ _ pasid => exec_bindDoorbell_inRange pasid hld runs,
    fun runs _ _ _ => exec_setPoqShare_inside runs⟩

end Sys2Proof.Machine
end

section
/-! The counting of events (16 R390, R394, R395): what one event does to its source, and that a number without source has none. -/

namespace Sys2Proof.Machine

/-! ### One event at a source -/

section
variable {x : Source} {tick now : Nat}

theorem countSource_noEscalation (unset : x.escN = 0) :
    countSource x tick now = ({ x with count := min (x.count + 1) 16777215, lastTime := now }, false) := if_pos unset

/-- With escalation set: the event opens a window or counts in the one that is open, and the event that fills it closes it (R394). -/
theorem countSource_escalation {n : Nat} (hn : n = if x.winCount = 0 ∨ tick - x.winStart ≥ x.escW then 1 else x.winCount + 1) (set : x.escN ≠ 0) :
    countSource x tick now =
      ({ x with count := min (x.count + 1) 16777215, lastTime := now, winCount := if n = x.escN then 0 else n
                winStart := if x.winCount = 0 ∨ tick - x.winStart ≥ x.escW then tick else x.winStart
                cls := if n = x.escN ∧ x.cls.code < x.escLimit then x.cls.up else x.cls },
        decide (n = x.escN) && decide (x.cls.code < x.escLimit)) := by
  subst hn
  by_cases opens : x.winCount = 0 ∨ tick - x.winStart ≥ x.escW
  all_goals
    simp only [countSource, set, opens, if_true, if_false, Nat.zero_add]
    split
    · split <;> simp_all
    · simp_all

end

/-- Settles O57: the two forms of counting, without and with escalation. -/
theorem eventsAreCounted : Obligations.EventsAreCounted := by
  intro x tick now n hn
  by_cases unset : x.escN = 0
  · rw [countSource_noEscalation unset]
    exact ⟨rfl, rfl, fun _ => rfl, fun set => absurd unset set, rfl, rfl, rfl, rfl, rfl⟩
  · rw [countSource_escalation hn unset]
    exact ⟨rfl, rfl, fun none => absurd none unset, fun _ => ⟨rfl, rfl, rfl, rfl⟩, rfl, rfl, rfl, rfl, rfl⟩

/-! ### A number that no table assigns -/

section
variable {n : Nat} (unassigned : baseClass n = none) (s : State)
include unassigned

theorem firesHere_unassigned : firesHere s n = false := by
  rw [firesHere, unassigned]
  rfl

theorem sourceBytes_unassigned : s.sourceBytes n = zeros 16 := by
  simp [State.sourceBytes, firesHere_unassigned unassigned s]

end

theorem raise_unassigned {e : Ev} (s : State) (unassigned : baseClass e.source = none) : raise e s = s := by
  simp [raise, firesHere_unassigned unassigned s]

theorem exec_setSource_unassigned {s : State} {m : Msg} {n : W16} (config : W64) (unassigned : baseClass n.toNat = none) (inRange : n.toNat < 2048)
    (runs : s.runs m { op := 0xC060, roles := rBmcOwn, sess := false, l0 := false, secure := false, inLen := 16, body := 0 }) :
    exec (.setSource m n config) s = .next (s.reply m 0xC060 stOk []) := by
  show execSetSource m n config s = _
  refine slafin_answers runs ?_
  simp [Nat.not_le.mpr inRange, firesHere_unassigned unassigned s]

/-- The class handled is the higher one of the class that the cause states, or else its source's base class, and the source's class (R390). -/
theorem countEvent_cls (e : Ev) (s : State) : (countEvent e s).1.cls = Class.max (e.cls.getD (baseOf e.source)) (countEvent e s).1.after := by
  unfold countEvent
  split <;> rfl

/-- Settles O58: an unassigned number has no base class, so nothing fires for it here; the class of a counted event. -/
theorem unassignedSourcesAreSilent : Obligations.UnassignedSourcesAreSilent :=
  ⟨fun _ s => raise_unassigned s, fun _ s unassigned => sourceBytes_unassigned unassigned s,
    fun _ _ _ config unassigned inRange => exec_setSource_unassigned config unassigned inRange, fun e s _ => countEvent_cls e s⟩

end Sys2Proof.Machine
end

section
/-! The step of the machine, the restart measurement and the registers at reset. -/

namespace Sys2Proof.Machine

theorem step_front {c : Instr} {rest : List Instr} {s : State} (front : s.pending = c :: rest) : step s = exec c { s with pending := rest } := by
  rw [step, front]

theorem step_empty {s : State} (empty : s.pending = []) : step s = .next s.passTime.settleRemovals.settleLines := by
  rw [step, empty]

/-- Settles O44: the two forms of the queue. -/
theorem stepRunsTheFront : Obligations.StepRunsTheFront := ⟨fun _ _ _ => step_front, fun _ => step_empty⟩

/-! ### The restart measurement (15 R377) -/

theorem State.clearPerf_world (s : State) (n : Nat) : (s.clearPerf n).world = s.world := rfl

theorem State.foldl_clearPerf_world (l : List Nat) (s : State) : (l.foldl (fun (s : State) n => s.clearPerf n) s).world = s.world := by
  induction l generalizing s with
  | nil => rfl
  | cons n l ih => rw [List.foldl_cons, ih, State.clearPerf_world]

/-- A warm reset keeps the measurement. -/
theorem State.warmLoss_m (s : State) : s.warmLoss.world.m = s.world.m := by
  unfold State.warmLoss
  rw [State.foldl_clearPerf_world]
  rfl

theorem State.coldLoss_m (s : State) : s.coldLoss.world.m = 0 := rfl

/-- Settles O59: the fields that an extension sets, and what the losses of a reset leave of the measurement. -/
theorem restartMeasurement : Obligations.RestartMeasurement :=
  ⟨fun s b => ⟨rfl, rfl, settings_extendM s b⟩, rfl, fun s => ⟨s.coldLoss_m, s.warmLoss_m⟩⟩

/-! ### Registers at reset -/

/-- Entry 3 holds the registers of channel c from 0x100 + 0x40 c on. -/
theorem State.capReg_channel (s : State) (ld : Nat) {c off : Nat} (hc : c < 12) (hoff : off < 0x40) :
    s.capReg ld 3 (0x100 + 0x40 * c + off) = s.chanReg c off := by
  have place : (0x100 + 0x40 * c + off - 0x100) / 0x40 = c := by omega
  have within : (0x100 + 0x40 * c + off) % 0x40 = off := by omega
  have entry : s.capReg ld 3 (0x100 + 0x40 * c + off) = s.entry3Reg (0x100 + 0x40 * c + off) := by
    unfold State.capReg
    split
    · omega
    · omega
    · rfl
  rw [entry, State.entry3Reg, if_neg (by omega), if_pos (by omega), place, within]

theorem chanReg_control_reset (ch : Fin 12) :
    State.reset.chanReg ch.val 0x08 = put 0 3 7 ||| put 8 8 4 ||| put 16 16 2048 ||| put 32 16 4096 ||| put 48 16 7200 := by
  revert ch
  decide

theorem chanReg_status_reset (ch : Fin 12) : State.reset.chanReg ch.val 0x10 = put 0 3 4 := by
  revert ch
  decide

theorem poqLd_reset (ld : Nat) : State.reset.poqReg ld 0x18 = put 0 21 32768 ||| put 42 8 16 := by
  show put 0 21 32768 ||| put 21 21 0 ||| put 42 8 16 = _
  decide

theorem eventRing_reset : cmdLdReset.ringWord = put 0 4 4 := by decide

theorem eventCtrl_reset : cmdLdReset.ctrlWord = put 0 16 0xFFFF := by decide

theorem insoleExport_reset : State.reset.insoleReg 0x20 = put 0 4 4 := by decide

theorem ageStatus_reset : State.reset.ageReg 0x10 = put 0 11 950 := by decide

theorem pwrStatus_reset : State.reset.ageReg 0x20 = put 0 2 3 := by decide

/-- Settles O48: each register evaluates at reset; those of a channel stand at its place in entry 3. -/
theorem registersAtReset : Obligations.RegistersAtReset := by
  intro ld ch
  have control := (State.reset.capReg_channel ld.val ch.isLt (by decide : 0x08 < 0x40)).trans (chanReg_control_reset ch)
  have status := (State.reset.capReg_channel ld.val ch.isLt (by decide : 0x10 < 0x40)).trans (chanReg_status_reset ch)
  rw [Nat.add_right_comm] at control status
  exact ⟨rfl, rfl, rfl, rfl, rfl, rfl, control, status, rfl, rfl, rfl, rfl, rfl, poqLd_reset ld.val, rfl, eventRing_reset, eventCtrl_reset,
    insoleExport_reset, ageStatus_reset, pwrStatus_reset⟩

end Sys2Proof.Machine
end

section
/-! The SLAFIN commands of sources, Awl and Insole: what each answers on the hypotheses of O32. -/

namespace Sys2Proof.Machine

section
variable {s : State} {m : Msg}

theorem exec_setSource_inRange {source : W16} {config : W64}
    (runs : s.runs m { op := 0xC060, roles := rBmcOwn, sess := false, l0 := false, secure := false, inLen := 16, body := 0 })
    (known : source.toNat < 2048) (fires : firesHere s source.toNat = true) (settable : fixedSource source.toNat = false)
    (limit : fld config 43 2 ≠ 0) (window : fld config 16 27 ≠ 0) (windowMost : fld config 16 27 ≤ 86400000) :
    exec (.setSource m source config) s =
      .next ((insoleOther .config [] none (s.updSrc source.toNat fun x =>
        { x with escN := fld config 0 16, escW := fld config 16 27, escLimit := fld config 43 2, notify := config.getLsbD 45
                 fence := config.getLsbD 46 })).reply m 0xC060 stOk []) := by
  show execSetSource m source config s = _
  refine slafin_answers runs ?_
  simp only [Nat.not_le.mpr known, fires, settable, limit, window, Nat.not_lt.mpr windowMost, Bool.not_true, Bool.false_eq_true, or_self, if_false]

theorem exec_clearSource_inRange {source count : W16}
    (runs : s.runs m { op := 0xC061, roles := rBmcOwn, sess := false, l0 := false, secure := false, inLen := 4, body := 0 }) (nonempty : count ≠ 0)
    (inside : source.toNat + count.toNat ≤ 2048) :
    exec (.clearSource m source count) s =
      .next (((s.fault.sources.filter fun p => decide (source.toNat ≤ p.1) && decide (p.1 < source.toNat + count.toNat)).foldl
        (fun s p => s.updSrc p.1 fun x => x.clear p.1) s).reply m 0xC061 stOk []) := by
  show execClearSource m source count s = _
  refine slafin_answers runs ?_
  rw [if_neg nonempty, if_neg (by omega)]

theorem exec_getSources_inRange {first max : W16} {n : Nat}
    (runs : s.runs m { op := 0xC062, roles := rAll, sess := false, l0 := false, secure := false, inLen := 4, body := 8 }) (known : first.toNat < 2048)
    (hn : n = fits m 8 16 max.toNat (2048 - first.toNat)) :
    exec (.getSources m first max) s =
      .next (s.reply m 0xC062 stOk (leNat 2 n ++ zeros 2 ++ leNat 4 (nextCursor first.toNat n 2048)
        ++ (List.range n).flatMap fun i => s.sourceBytes (first.toNat + i))) := by
  subst hn
  show execGetSources m first max s = _
  exact slafin_answers runs (if_neg (Nat.not_le.mpr known))

theorem exec_awlArm_free {d : AwlDesc} {n : Nat}
    (runs : s.runs m { op := 0xC063, roles := rBmcOwn, sess := false, l0 := true, secure := false, inLen := 32, body := 4 }) (awake : s.inSave = false)
    (resumed : s.inResume = false) (inRange : s.awlRangeOk d = true) (allowed : s.awlRefused d (s.role m) = none)
    (free : ((List.range 16).find? fun n => (s.inj n).isNone) = some n) :
    exec (.awlArm m d) s =
      .next ((insoleOther .config [] none ((s.setInj n (some { d, number := s.fault.awlNext, left := d.count.toNat, due := false, marked := false })).mapFault
        fun f => { f with awlNext := f.awlNext + 1 })).reply m 0xC063 stOk (leNat 4 s.fault.awlNext.toNat)) := by
  show execAwlArm m d s = _
  refine slafin_answers runs ?_
  simp only [awake, resumed, inRange, allowed, free, Bool.not_true, Bool.false_eq_true, or_self, if_false]

/-- An injection that no line is marked by leaves its slot at once (R400). -/
theorem exec_awlDisarm_unmarked {i : W32} {n : Nat} {x : Injection}
    (runs : s.runs m { op := 0xC064, roles := rBmcOwn, sess := false, l0 := false, secure := false, inLen := 4, body := 0 }) (one : i ≠ 0xFFFFFFFF)
    (only : (s.injs.filter fun p => decide (p.1 < 16)).filter (fun p => decide (p.2.number = i)) = [(n, x)]) (unmarked : x.marked = false) :
    exec (.awlDisarm m i) s = .next ((insoleOther .config [] none (s.setInj n none)).reply m 0xC064 stOk []) := by
  show execAwlDisarm m i s = _
  refine slafin_answers runs ?_
  simp only [if_neg one, only, unmarked, List.isEmpty_cons, List.foldl_cons, List.foldl_nil, Bool.false_eq_true, and_false, if_false]

/-- The cursor names the only record, and no record follows it (R404). -/
theorem exec_readInsole_single {r : InsoleRec} {max : W32}
    (runs : s.runs m { op := 0xC070, roles := rFmBmcOwn, sess := false, l0 := false, secure := false, inLen := 8, body := 8 })
    (single : s.fault.insole = [r]) (room : fits m 8 64 max.toNat 1 = 1) :
    exec (.readInsole m r.seq max) s = .next (s.reply m 0xC070 stOk (leNat 4 1 ++ leNat 4 0xFFFFFFFF ++ r.bytes)) := by
  show execReadInsole m r.seq max s = _
  refine slafin_answers runs ?_
  simp [single, room]

theorem exec_unfreezeInsole_runs
    (runs : s.runs m { op := 0xC071, roles := rBmcOwn, sess := false, l0 := false, secure := false, inLen := 0, body := 0 }) :
    exec (.unfreezeInsole m) s = .next ((insoleOther .config [] none (s.mapFault fun f => { f with frozen := false, first := none })).reply m 0xC071 stOk []) := by
  show execUnfreezeInsole m s = _
  exact slafin_answers runs rfl

end

/-- Settles O32: one lemma for each of the seven commands. -/
theorem faultCommands : Obligations.FaultCommands := fun _ _ =>
  ⟨fun runs _ _ => exec_setSource_inRange runs, fun runs _ _ => exec_clearSource_inRange runs, fun runs _ _ known _ => exec_getSources_inRange runs known,
    fun runs _ _ => exec_awlArm_free runs, fun runs _ _ _ => exec_awlDisarm_unmarked runs, fun runs _ _ => exec_readInsole_single runs,
    exec_unfreezeInsole_runs⟩

end Sys2Proof.Machine
end

section
/-! The test port (19 R388, R455) and the counters (17 R410, R413, R414, R416, R418): what each command answers on the hypotheses of O38 and O40. -/

namespace Sys2Proof.Machine

/-- While RESET_N is low a boundary instruction acts (R455). -/
theorem State.boundaryTap_low {s : State} (low : s.power.resetNLow = true) (code : Byte) (act : State → State) :
    s.boundaryTap code act = act (s.mapWorld fun w => { w with tap := code }) := if_pos low

/-- Settles O38: IDCODE and SAMPLE/PRELOAD answer by definition, the boundary instructions while RESET_N is low, and BYPASS by its code. -/
theorem tapInstructions : Obligations.TapInstructions := fun _ =>
  ⟨rfl, fun _ => rfl,
    fun low => ⟨fun _ => congrArg Host.Outcome.next (State.boundaryTap_low low ..), congrArg Host.Outcome.next (State.boundaryTap_low low ..),
      congrArg Host.Outcome.next (State.boundaryTap_low low ..)⟩,
    fun _ => rfl⟩

/-! ### Counters -/

section
variable {s : State} {fn : Fin 36} (here : s.hasFn fn.val = true)
include here

theorem exec_freezeAll_here (value : W64) : exec (.freezeAll fn value) s = .next (s.setFreeze fn.val (value.getLsbD 0)) := if_pos here

theorem exec_cpmuConfigWrite_here (u : Fin 21) (c : Fin 8) (cfg : CounterCfg) (unitHere : s.pmHas u.val = true) :
    exec (.cpmuConfigWrite fn u c cfg) s = .next (s.updPerfFn fn.val fun f =>
      { f with cfg := Tab.set (fun _ => counterReset) (pmKey u.val c.val) { cfg with enable := cfg.enable && cfgAccepted c.val cfg } f.cfg }) :=
  if_neg (by simp [here, unitHere])

theorem exec_sampleCfgWrite_here (p : Fin 2) (value : W64) (headHere : s.hasHead (2 * p.val) = true) :
    exec (.sampleCfgWrite fn p value) s = .next (s.writeSampleCfg fn.val p.val value) := if_pos (by rw [here, headHere]; rfl)

theorem exec_dumpRingEnable_here (value : W64) : exec (.dumpRingEnable fn value) s = .next (s.writeDumpRing fn.val value) := if_pos here

/-- A dump meets no other, and its ring has room (R416). -/
theorem exec_periodicDump_room {f : PerfFn} (hf : f = s.perfFn fn.val) (period : f.periodUs ≠ 0) (enabled : f.ringEnable = true)
    (alone : s.exporting = false) (room : ringFull f.ringLog2 f.dumpHead f.dumpTail = false) :
    exec (.periodicDump fn) s =
      .next ((s.emit (.dma fn.val none (f.ringBase.toNat + 2048 * (f.dumpTail % 2 ^ f.ringLog2)) (s.dumpSlot fn.val))).updPerfFn fn.val fun g =>
        { g with dumpTail := nextIdx g.ringLog2 (f.dumpTail % 2 ^ f.ringLog2), dumpSeq := g.dumpSeq + 1 }) := by
  show execPeriodicDump fn s = _
  simp only [execPeriodicDump, here, ← hf, period, enabled, alone, room, Bool.not_true, Bool.false_eq_true, or_self, if_false]

end

/-- Settles O40: one lemma for each of the five commands. -/
theorem perfEvents : Obligations.PerfEvents := fun _ _ here =>
  ⟨exec_freezeAll_here here, exec_cpmuConfigWrite_here here, exec_sampleCfgWrite_here here, exec_dumpRingEnable_here here,
    fun _ => exec_periodicDump_room here⟩

end Sys2Proof.Machine
end

section
/-! Events of one cycle, the ring of Insole, ALIVE and injections: what each command answers on the hypotheses of O39. -/

namespace Sys2Proof.Machine

section
variable {s : State}

/-- The fences of the events of one cycle are found before any of them is raised (R395). -/
theorem exec_eventArrival_flagged {events : List (BitVec 11 × Fin 4 × Option (Fin 32))} {es : List Ev} {us : List FenceUnit}
    (flagged : s.flagFences (events.map fun e => { Ev.of e.1.toNat with cls := some (eventClass e.1.toNat e.2.1.val), ld := e.2.2 }) = (es, us)) :
    exec (.eventArrival events) s = .next (us.foldl (fun s u => s.doFence none u) (raiseCycle es s)).wake := by
  show execEventArrival events s = _
  rw [execEventArrival, flagged]

/-- The oldest record that waits leaves its queue and goes to the tail of the ring (R405). -/
theorem exec_insoleExportWrite_room {q : W32} {rest : List W32} {r : InsoleRec} (oldest : s.fault.expWaiting = q :: rest)
    (running : s.fault.frozen = false) (enabled : s.fault.expEnable = true)
    (room : ringFull s.fault.expLog2 s.fault.expHead.toNat s.fault.expTail.toNat = false)
    (record : (s.mapFault fun f => { f with expWaiting := rest }).insoleRec q = some r) :
    exec .insoleExportWrite s =
      .next (((s.mapFault fun f => { f with expWaiting := rest }).emit
        (.dma (s.mapFault fun f => { f with expWaiting := rest }).exportFn none
          (s.fault.expBase.toNat + 64 * (s.fault.expTail.toNat % 2 ^ s.fault.expLog2)) r.bytes)).mapFault fun f =>
        { f with expTail := BitVec.ofNat 16 (nextIdx s.fault.expLog2 (s.fault.expTail.toNat % 2 ^ s.fault.expLog2)) }) := by
  show execInsoleExportWrite s = _
  simp only [execInsoleExportWrite, oldest, running, enabled, room, record, Bool.not_true, Bool.false_eq_true, or_self, if_false]
  rfl

theorem exec_aliveToggle_well (well : s.aliveStatus = 0) :
    exec .aliveToggle s = .next ((s.mapFault fun f => { f with alive := !f.alive }).emit (.pin "ALIVE" !s.fault.alive)) := if_pos well

theorem exec_heartbeatLost_seen (beats : s.fault.heartbeat = true) :
    exec .heartbeatLost s = .next (fire 6 (s.mapFault fun f => { f with heartbeat := false })) := if_pos beats

/-- An injection into Lace waits for the flit that it spoils (R400). -/
theorem exec_awlInjection_due {n : Fin 16} {x : Injection} (armed : s.inj n.val = some x) (left : x.left ≠ 0) (notDue : x.due = false)
    (kind : x.d.kind = 5) : exec (.awlInjection n) s = .next (s.setInj n.val (some { x with left := x.left - 1, due := true })) := by
  show execAwlInjection n s = _
  simp [execAwlInjection, armed, left, notDue, kind]

theorem exec_insoleExportEnable_here {head : Fin 4} (value : W64) (here : s.hasFn (32 + head.val) = true) :
    exec (.insoleExportEnable head value) s = .next (s.writeExport value) := if_pos here

end

/-- Settles O39: one lemma for each command but the return of classes, which answers by definition. -/
theorem faultEvents : Obligations.FaultEvents := fun _ =>
  ⟨fun _ _ _ => exec_eventArrival_flagged, fun _ _ _ => exec_insoleExportWrite_room, rfl, exec_aliveToggle_well, exec_heartbeatLost_seen,
    fun _ _ => exec_awlInjection_due, fun _ => exec_insoleExportEnable_here⟩

end Sys2Proof.Machine
end

section
/-! The resets (18 R420, R426, R427, R429): what each answers on the hypotheses of O15. -/

namespace Sys2Proof.Machine

section
variable {s : State}

theorem exec_coldReset_formed {b : BringUp} (formed : b.wf = true) :
    exec (.coldReset b) s = .next ((s.coldLoss.mapPower fun p => { p with pwrgood := true, resetNLow := false }).bringUp b true) :=
  if_neg (by simp [formed])

theorem exec_pwrgoodFall (s : State) : exec .pwrgoodFall s = .next (s.coldLoss.mapPower fun p => { p with pwrgood := false }) := rfl

theorem exec_warmReset_unsaved (powered : s.power.pwrgood = true) (high : s.power.resetNLow = false) (unsaved : s.shank.saveDone = false) :
    exec .warmReset s = .next (s.warmLoss.mapPower fun p => { p with resetNLow := true }) := by
  show execWarmReset s = _
  simp only [execWarmReset, powered, high, unsaved, Bool.not_true, Bool.false_eq_true, or_self, if_false]

section
variable {p : Fin 2} (here : s.hasHead (2 * p.val) = true)
include here

theorem exec_perstRelease_low (low : s.port.perstLow.getLsbD p.val = true) :
    exec (.perstRelease p) s =
      .next (([2 * p.val, 2 * p.val + 1].filter (s.mapPort fun x => { x with perstLow := x.perstLow &&& ~~~(1#2 <<< p.val) }).headHere).foldl
        (fun (s : State) h => s.emit (.port (Fin.ofNat 4 h) "train" 0)) (s.mapPort fun x => { x with perstLow := x.perstLow &&& ~~~(1#2 <<< p.val) })) :=
  if_neg (by simp [here, low])

/-- The heads of the port go down before its functions are reset (R427, R429). -/
theorem exec_portReset_high {a b : State} (high : s.port.perstLow.getLsbD p.val = false)
    (ha : a = [2 * p.val, 2 * p.val + 1].foldl (fun (s : State) h =>
      if (s.headOf h).up then (raise { Ev.of (srcPort p.val 0) with detail := [h] } s).headDown h else s)
      (s.mapPort fun x => { x with perstLow := x.perstLow ||| (1#2 <<< p.val) }))
    (hb : b = [2 * p.val, 2 * p.val + 1].foldl (fun (s : State) h => s.updHeadOf h fun x =>
      { headReset with maxRate := x.maxRate, rateWait := x.rateWait }) a) :
    exec (.portReset p) s =
      .next ([2 * p.val, 2 * p.val + 1].foldl (fun (s : State) h => s.resetFn (32 + h))
        (((List.range b.nLds).filter fun n => portOfLd n == p.val).foldl State.resetFn b)).wake := by
  subst hb ha
  exact if_neg (by simp [here, high])

end

end

/-- Settles O15: one lemma for each of the five resets. -/
theorem resets : Obligations.Resets := fun s =>
  ⟨fun _ => exec_coldReset_formed, exec_pwrgoodFall s, exec_warmReset_unsaved, fun _ => exec_perstRelease_low, fun _ _ _ here => exec_portReset_high here⟩

end Sys2Proof.Machine
end

section
/-! Supplies, clocks, pins and temperature (18 R421, R423, R425, R426, R439; 05 R118): what each command answers on the hypotheses of O41. -/

namespace Sys2Proof.Machine

section
variable {s : State}

/-! ### Pins and supplies -/

theorem exec_drivePresenceChange_enters {n : Fin 4} (here : s.hasDrive n.val = true) :
    exec (.drivePresenceChange n true) s = .next ((s.updDrive n.val fun x => { x with prsnt := true, perst := true }).emit (.drive n "perst" 1)) := by
  show execDrivePresenceChange n true s = _
  simp only [execDrivePresenceChange, here, Bool.not_true, Bool.false_eq_true, if_false, if_true]

/-- A drive that no write is under way to leaves without an event of its own (R237). -/
theorem exec_drivePresenceChange_leaves {n : Fin 4} {p : State} (here : s.hasDrive n.val = true)
    (hp : p = (s.updDrive n.val fun x => { x with prsnt := false, perst := false }).emit (.drive n "perst" 0)) (idle : p.driveWrites n.val = false) :
    exec (.drivePresenceChange n false) s = .next (p.failDrive n 0).wake := by
  show execDrivePresenceChange n false s = _
  simp only [execDrivePresenceChange, here, Bool.not_true, Bool.false_eq_true, if_false, ← hp, idle, false_and]

/-- The always-on island holds Insole and the key-encryption key; the queue is the model's own and stays (R118, R426). -/
theorem exec_aonSupplyLoss_loses (s : State) : ∃ t, exec .aonSupplyLoss s = .next t ∧ t.fault.insole = [] ∧ t.fault.insoleLost = true
    ∧ t.keys.kekValid = false ∧ t.power.pwrgood = false ∧ t.pending = s.pending :=
  have pending : s.coldLoss.pending = s.pending := congrArg Settings.pending (settings_coldLoss s)
  ⟨_, rfl, rfl, rfl, rfl, rfl, pending⟩

section
variable (powered : s.power.pwrgood = true)
include powered

theorem exec_xtalLoss_first (crystal : s.power.xtalFallback = false) :
    exec .xtalLoss s = .next (fire 900 (s.mapPower fun p => { p with xtalFallback := true })) := if_neg (by simp [crystal, powered])

theorem exec_pllUnlock_powered : exec .pllUnlock s = .next (fire 901 s) := if_pos powered

theorem exec_channelPllUnlock_here {pair : Fin 6} (here : s.hasChannel (2 * pair.val) = true) :
    exec (.channelPllUnlock pair) s =
      .next (([2 * pair.val, 2 * pair.val + 1].foldl (fun (s : State) c => s.unitOut { channel := c, whole := true, ranksel := 0 } 0 none)
        (raise { Ev.of 907 with detail := [2 * pair.val, 2 * pair.val + 1] } s)).wake) := if_neg (by simp [here, powered])

theorem exec_thermAlert_assigned (assigned : (s.pinOf 3).isSome = true) : exec .thermAlert s = .next (fire 904 s) := if_pos ⟨assigned, powered⟩

theorem exec_resetNRelease_formed {b : BringUp} (formed : b.wf = true) (low : s.power.resetNLow = true) :
    exec (.resetNRelease b) s = .next ((s.mapPower fun p => { p with resetNLow := false }).bringUp b false) := by
  show execResetNRelease b s = _
  simp only [execResetNRelease, formed, powered, low, Bool.not_true, Bool.false_eq_true, or_self, if_false]

/-! ### The regulator (R421) -/

section
variable {mv icore : W16}

theorem exec_avsPoll_inTolerance
    (near : 40 * (mv.toNat - s.power.vcoreMv + (s.power.vcoreMv - mv.toNat)) ≤ s.power.vcoreMv) :
    exec (.avsPoll true mv icore) s = .next (s.mapPower fun p =>
      { p with avsTries := 0, vcoreReadMv := mv.toNat, icore := icore.toNat, railBad := false, railFault := p.railFault || false }) := by
  show execAvsPoll true mv icore s = _
  simp only [execAvsPoll, powered, Nat.not_lt.mpr near, Bool.not_true, Bool.false_and, Bool.false_eq_true, decide_false, if_false]

theorem exec_avsPoll_outOfTolerance (good : s.power.railBad = false)
    (far : s.power.vcoreMv < 40 * (mv.toNat - s.power.vcoreMv + (s.power.vcoreMv - mv.toNat))) :
    exec (.avsPoll true mv icore) s = .next (fire 897 (s.mapPower fun p =>
      { p with avsTries := 0, vcoreReadMv := mv.toNat, icore := icore.toNat, railBad := true, railFault := p.railFault || true })) := by
  show execAvsPoll true mv icore s = _
  simp only [execAvsPoll, powered, good, gt_iff_lt, far, Bool.not_true, Bool.not_false, Bool.and_self, Bool.false_eq_true, decide_true, if_false, if_true]

theorem exec_avsPoll_unanswered (tries : s.power.avsTries < 2) :
    exec (.avsPoll false mv icore) s = .next (s.mapPower fun p => { p with avsTries := s.power.avsTries + 1 }) := by
  have again : s.power.avsTries + 1 < 3 := by omega
  show execAvsPoll false mv icore s = _
  simp only [execAvsPoll, powered, again, Bool.not_true, Bool.not_false, Bool.false_eq_true, if_false, if_true]

/-- After the third poll the last voltage read becomes the target (R421). -/
theorem exec_avsPoll_thirdUnanswered (tries : s.power.avsTries = 2) :
    exec (.avsPoll false mv icore) s = .next (fire 896 (s.mapPower fun p =>
      { p with avsTries := 0, avsFail := true, vcoreMv := if p.vcoreReadMv = 0 then p.vcoreMv else p.vcoreReadMv })) := by
  show execAvsPoll false mv icore s = _
  simp only [execAvsPoll, powered, tries, Bool.not_true, Bool.not_false, Bool.false_eq_true, if_false, if_true, Nat.reduceAdd, lt_self_iff_false]

end

/-! ### The temperature (R425) -/

section
variable {tj : Int}

theorem exec_thermalSensorRead_hot (hot : 100 ≤ tj) (notCritical : tj < 110) (unthrottled : s.power.throttle = false) :
    exec (.thermalSensorRead tj) s =
      .next ((fire 898 ((s.mapPower fun p => { p with tj := tj }).mapPower fun p => { p with throttle := true })).mapPower fun p =>
        { p with tjCritSince := none }) := by
  show execThermalSensorRead tj s = _
  simp [execThermalSensorRead, powered, hot, notCritical, unthrottled]

theorem exec_thermalSensorRead_cool (cool : tj < 95) :
    exec (.thermalSensorRead tj) s =
      .next (((s.mapPower fun p => { p with tj := tj }).mapPower fun p => { p with throttle := false }).mapPower fun p =>
        { p with tjCritSince := none }) := by
  have notHot : ¬ tj ≥ 100 := by omega
  have notCritical : tj < 110 := by omega
  show execThermalSensorRead tj s = _
  simp only [execThermalSensorRead, powered, notHot, cool, notCritical, Bool.not_true, Bool.false_eq_true, false_and, if_false, if_true]

/-- Between the two limits throttling stays as it is. -/
theorem exec_thermalSensorRead_between (least : 95 ≤ tj) (most : tj < 100) :
    exec (.thermalSensorRead tj) s = .next ((s.mapPower fun p => { p with tj := tj }).mapPower fun p => { p with tjCritSince := none }) := by
  have notHot : ¬ tj ≥ 100 := by omega
  have notCool : ¬ tj < 95 := by omega
  have notCritical : tj < 110 := by omega
  show execThermalSensorRead tj s = _
  simp only [execThermalSensorRead, powered, notHot, notCool, notCritical, Bool.not_true, Bool.false_eq_true, false_and, if_false, if_true]

theorem exec_thermalSensorRead_critical (critical : 110 ≤ tj) (throttled : s.power.throttle = true) (first : s.power.tjCritSince = none) :
    exec (.thermalSensorRead tj) s =
      .next ((s.mapPower fun p => { p with tj := tj }).mapPower fun p => { p with tjCritSince := some (s.time, false) }) := by
  have notCool : ¬ tj < 95 := by omega
  have notBelow : ¬ tj < 110 := by omega
  show execThermalSensorRead tj s = _
  simp [execThermalSensorRead, powered, throttled, first, notCool, notBelow]

end

end

end

/-- Settles O41: one lemma for each clause. -/
theorem powerEvents : Obligations.PowerEvents :=
  ⟨fun s => ⟨fun powered => exec_xtalLoss_first powered, fun powered => exec_pllUnlock_powered powered,
    fun _ powered => exec_channelPllUnlock_here powered, fun powered => exec_thermAlert_assigned powered,
    fun _ here _ => ⟨exec_drivePresenceChange_enters here, exec_drivePresenceChange_leaves here⟩, exec_aonSupplyLoss_loses s,
    fun _ formed powered => exec_resetNRelease_formed powered formed⟩,
    fun _ _ _ powered => ⟨fun _ => exec_avsPoll_inTolerance powered, exec_avsPoll_outOfTolerance powered, exec_avsPoll_unanswered powered,
      exec_avsPoll_thirdUnanswered powered⟩,
    fun _ _ powered => ⟨exec_thermalSensorRead_hot powered, exec_thermalSensorRead_cool powered, exec_thermalSensorRead_between powered,
      exec_thermalSensorRead_critical powered⟩⟩

end Sys2Proof.Machine
end

section
/-! The links of the heads (12 R269, R293, R299): what each command answers on the hypotheses of O17. -/

namespace Sys2Proof.Machine

section
variable {s : State} {head : Fin 4}

/-- A link at its full width that comes up anew raises nothing and binds the LD of its head (R293). -/
theorem exec_linkTrained_fullWidth {l k : LinkState} {t : State} (may : s.mayTrain head.val = true) (lanes : l.width ≠ 0)
    (down : (s.headOf head.val).up = false) (hk : k = s.reached head.val l) (single : k.mld = false)
    (full : k.width.val = (s.setLink head.val k).fullWidth head.val)
    (ht : t = (((s.setLink head.val k).checkHeadMargin head.val k).rateWaitEnds head.val).mapResume (fun r =>
      { r with upspeed := Tab.set (fun _ => 0) head.val 0 r.upspeed })) :
    exec (.linkTrained head l) s = .next ((t.attachSld head.val).bindPort (portOfHead head.val)) := by
  show execLinkTrained head l s = _
  simp only [execLinkTrained, may, lanes, down, ← hk, single, Nat.lt_irrefl, ← full, ← ht, Bool.not_true, Bool.not_false, Bool.false_eq_true, or_self,
    if_false, if_true]

/-- With no rate change that waits, the head goes down at once (R299). -/
theorem exec_linkDown_noWait (up : (s.headOf head.val).up = true)
    (noWait : (raise { Ev.of (srcPort (portOfHead head.val) 0) with detail := [head.val] } s).headOf head.val =
      { s.headOf head.val with rateWait := none }) :
    exec (.linkDown head) s =
      .next ((raise { Ev.of (srcPort (portOfHead head.val) 0) with detail := [head.val] } s).headDown head.val).wake := by
  show execLinkDown head s = _
  simp only [execLinkDown, up, noWait, Bool.not_true, Bool.false_eq_true, if_false]

theorem exec_upspeedRetry_success {l : LinkState} (link : (s.headOf head.val).link = some l) (resuming : s.resume.level ≠ 0) (awake : s.inSave = false)
    (tries : Tab.get (fun _ => 0) s.resume.upspeed head.val < 3) (slow : l.rate ≠ 3) (flit : l.flit256 = true) (fit : s.headCap head.val ≥ 3)
    (noWait : (s.headOf head.val).rateWait = none) :
    exec (.upspeedRetry head true) s =
      .next (((s.mapResume fun r => { r with upspeed := Tab.set (fun _ => 0) head.val (Tab.get (fun _ => 0) s.resume.upspeed head.val + 1) r.upspeed }).emit
        (.port head "recovery" 64)).setLink head.val { l with rate := 3 }) := by
  show execUpspeedRetry head true s = _
  simp only [execUpspeedRetry, link, resuming, awake, Nat.not_le.mpr tries, slow, flit, Nat.not_lt.mpr fit, noWait, Option.isSome_none, Bool.not_true,
    Bool.false_eq_true, or_self, if_false, if_true]

end

/-- Settles O17: one lemma for each of the three commands. -/
theorem linkEvents : Obligations.LinkEvents := fun _ _ =>
  ⟨fun _ _ _ => exec_linkTrained_fullWidth, exec_linkDown_noWait, fun _ => exec_upspeedRetry_success⟩

end Sys2Proof.Machine
end

section
/-! Requests to a function, MCTP control and the data object exchange (12 R297, R301, R303, R305; 14 R360): what each command answers on the hypotheses
of O18. -/

namespace Sys2Proof.Machine

section
variable {s : State}

theorem exec_l0pRequest_granted {head : Fin 4} {width : Fin 17} {l : LinkState} (link : (s.headOf head.val).link = some l) (flit : l.flit256 = true)
    (fast : l.rate.val ≥ 2) (fits : width.val = l.width.val ∨ (width.val < l.width.val ∧ [2, 4, 8].contains width.val = true)) :
    exec (.l0pRequest head width) s =
      .next ((s.updHeadOf head.val fun x => { x with l0p := width.val }).emit (.port head "L0p granted" width.val)) := by
  show execL0pRequest head width s = _
  rw [execL0pRequest, link]
  exact if_pos ⟨flit, fast, fits⟩

section
variable {fn : Fin 36} (here : s.hasFn fn.val = true)
include here

theorem exec_ldReset_here :
    exec (.ldReset fn) s =
      .next (if fn.val < 32 ∧ ((s.resetFn fn.val).fn fn.val).bound then (s.resetFn fn.val).sendOffers fn.val else s.resetFn fn.val) :=
  if_neg (by simp [here])

section
variable {head : Fin 4} (up : (s.headOf head.val).up = true) (offset : BitVec 12)
include up

theorem exec_configRequest_answered (ready : 6 ≤ s.power.bringup) :
    exec (.configRequest head fn offset) s =
      .next ((s.configDword fn.val offset.toNat).2.emit (.port head "configuration read" (s.configDword fn.val offset.toNat).1)) := by
  show execConfigRequest head fn offset s = _
  simp only [execConfigRequest, up, here, Nat.not_lt.mpr ready, Bool.not_true, Bool.false_eq_true, or_self, if_false]

theorem exec_configRequest_retry (notReady : s.power.bringup < 6) :
    exec (.configRequest head fn offset) s = .next (s.emit (.port head "request retry status" 0)) := by
  show execConfigRequest head fn offset s = _
  simp only [execConfigRequest, up, here, notReady, Bool.not_true, Bool.false_eq_true, or_self, if_false, if_true]

end

theorem exec_mmioBadAccess_here {offset : BitVec 25} {t : State} (read : Bool)
    (ht : t = (if registerRegion offset.toNat = true then
        raise { Ev.of (srcPort (portOfHead (s.fnHead fn.val)) 2) with
          ld := (if h : fn.val < 32 then some ⟨fn.val, h⟩ else none), detail := [s.fnHead fn.val] } s
      else s)) :
    exec (.mmioBadAccess fn offset read) s = .next (if read then t.emit (.mmio fn.val offset.toNat 0) else t) := by
  subst ht
  exact if_neg (by simp [here])

/-! ### Register writes (R305) -/

section
variable (bound : fn.val < 32 → (s.fn fn.val).bound = true) (offset : BitVec 25) (value : W64)
include bound

theorem functionServed : ¬(!s.hasFn fn.val ∨ (fn.val < 32 ∧ !(s.fn fn.val).bound)) := by
  simp only [here, Bool.not_true, Bool.false_eq_true, false_or]
  rintro ⟨ld, unbound⟩
  simp [bound ld] at unbound

theorem exec_registerWrite_whole (aligned : offset.toNat % 8 = 0) :
    exec (.registerWrite fn offset value false) s = s.writeReg fn.val (offset.toNat / 8 * 8) value := by
  show execRegisterWrite fn offset value false s = _
  simp only [execRegisterWrite, if_neg (functionServed here bound)]
  simp [aligned]

theorem exec_registerWrite_half {v : W64} (aligned : offset.toNat % 4 = 0) (halves : only64 offset.toNat = false)
    (hv : v = (if offset.toNat % 8 = 0
      then (s.regOld fn.val (offset.toNat / 8 * 8) &&& 0xFFFFFFFF00000000) ||| (value &&& 0xFFFFFFFF)
      else (s.regOld fn.val (offset.toNat / 8 * 8) &&& 0xFFFFFFFF) ||| (value <<< 32))) :
    exec (.registerWrite fn offset value true) s = s.writeReg fn.val (offset.toNat / 8 * 8) v := by
  subst hv
  show execRegisterWrite fn offset value true s = _
  simp only [execRegisterWrite, if_neg (functionServed here bound)]
  simp [aligned, halves]

/-- A write of a wrong size or alignment is a bad access. -/
theorem exec_registerWrite_bad {four : Bool}
    (bad : (four = false ∧ offset.toNat % 8 ≠ 0) ∨ (four = true ∧ (offset.toNat % 4 ≠ 0 ∨ only64 offset.toNat = true))) :
    exec (.registerWrite fn offset value four) s = exec (.mmioBadAccess fn offset false) s := by
  show execRegisterWrite fn offset value four s = execMmioBadAccess fn offset false s
  simp only [execRegisterWrite, if_neg (functionServed here bound)]
  refine if_pos ?_
  rcases bad with ⟨rfl, unaligned⟩ | ⟨rfl, unaligned | whole⟩
  · simp [unaligned]
  · simp [unaligned]
  · simp [whole]

end

end

/-! ### MCTP control and data objects -/

theorem State.freeLock_eid (s : State) (k : Nat) : (s.freeLock k).cmd.eid = s.cmd.eid := rfl

/-- Freeing the locks of the BMC leaves its endpoint identifier. -/
theorem State.foldl_freeLock_eid (l : List Nat) (s : State) :
    (l.foldl (fun (s : State) k => if (s.lock k).holder.map (·.val) = some 32 then s.freeLock k else s) s).cmd.eid = s.cmd.eid := by
  induction l generalizing s with
  | nil => rfl
  | cons k l ih =>
    rw [List.foldl_cons, ih]
    split
    · exact s.freeLock_eid k
    · rfl

/-- A reset of the negotiation leaves the endpoint identifier. -/
theorem negotiationReset_eid (reset : Bool) (u : State) :
    (if reset then
        (List.range 8).foldl (fun (s : State) k => if (s.lock k).holder.map (·.val) = some 32 then s.freeLock k else s)
          (u.mapCmd fun c => { c with bmcVersion := 1 })
      else u).cmd.eid = u.cmd.eid := by
  split
  · rw [State.foldl_freeLock_eid, State.mapCmd_cmd]
  · rfl

theorem exec_mctpControlMessage_eq {e : Option Byte} {reset : Bool} {u v : State}
    (hu : u = match e with | some e => s.mapCmd fun c => { c with eid := e } | none => s)
    (hv : v = if reset then
        (List.range 8).foldl (fun (s : State) k => if (s.lock k).holder.map (·.val) = some 32 then s.freeLock k else s)
          (u.mapCmd fun c => { c with bmcVersion := 1 })
      else u) :
    exec (.mctpControlMessage e reset) s = .next (v.emit (.mctp [(match e with | some e => e | none => s.cmd.eid).toNat])) := by
  have kept : v.cmd.eid = u.cmd.eid := hv ▸ negotiationReset_eid reset u
  cases e
  all_goals
    subst hv hu
    exact congrArg (fun x : Byte => Host.Outcome.next (State.emit _ (.mctp [x.toNat]))) kept

section
variable {ld : Fin 32} (here : s.hasLd ld.val = true) (running : s.world.normal = .up)
include here running

theorem exec_doeDiscovery_entry {i : Byte} {v t : Nat} (entry : doeProtocols[i.toNat]? = some (v, t)) :
    exec (.doeDiscovery ld i) s = .next (s.emit (.doe ld [v, t, if i.toNat + 1 < doeProtocols.length then i.toNat + 1 else 0])) := by
  show execDoeDiscovery ld i s = _
  simp only [execDoeDiscovery, here, running, entry, Bool.not_true, Bool.false_eq_true, ne_eq, not_true_eq_false, or_self, if_false]

theorem exec_doeDiscovery_end {i : Byte} (past : doeProtocols.length ≤ i.toNat) :
    exec (.doeDiscovery ld i) s = .next (s.emit (.doe ld [0xFFFF, 0, 0])) := by
  have entry : doeProtocols[i.toNat]? = none := List.getElem?_eq_none past
  show execDoeDiscovery ld i s = _
  simp only [execDoeDiscovery, here, running, entry, Bool.not_true, Bool.false_eq_true, ne_eq, not_true_eq_false, or_self, if_false]

theorem exec_cdatTableAccess_here (e : W16) :
    exec (.cdatTableAccess ld e) s =
      .next (s.emit (.doe ld ((if e.toNat + 1 < (s.cdat ld).length then e.toNat + 1 else 0xFFFF) :: (s.fn ld.val).cdatSeq
        :: (s.cdat ld).getD e.toNat []))) :=
  if_neg (by simp [here, running])

end

end

/-- Settles O18: one lemma for each form; a register write answers what its register's write answers. -/
theorem functionEvents : Obligations.FunctionEvents := by
  refine ⟨fun s => ⟨fun _ _ _ => exec_l0pRequest_granted, fun _ => exec_ldReset_here,
      fun _ _ offset up here => ⟨exec_configRequest_answered here up offset, exec_configRequest_retry here up offset⟩,
      fun _ _ read _ here => exec_mmioBadAccess_here here read, ?writes⟩,
    fun s => ⟨fun _ _ _ _ => exec_mctpControlMessage_eq,
      fun _ _ here running => ⟨fun _ _ => exec_doeDiscovery_entry here running, exec_doeDiscovery_end here running⟩,
      fun _ e here running => exec_cdatTableAccess_here here running e⟩⟩
  case writes =>
    intro fn offset value here bound
    refine ⟨fun aligned => ?_, fun aligned halves v hv => ?_, fun four bad => ?_⟩
    · obtain ⟨t, writes⟩ := writeReg_answers s fn.val (offset.toNat / 8 * 8) value
      exact ⟨t, (exec_registerWrite_whole here bound offset value aligned).trans writes, writes⟩
    · obtain ⟨t, writes⟩ := writeReg_answers s fn.val (offset.toNat / 8 * 8) v
      exact ⟨t, (exec_registerWrite_half here bound offset value aligned halves hv).trans writes, writes⟩
    · have refused := exec_mmioBadAccess_here (offset := offset) here false rfl
      exact ⟨_, (exec_registerWrite_bad here bound offset value bad).trans refused, refused⟩

end Sys2Proof.Machine
end

section
/-! The queues on their own time (13 R316, R319, R322, R323, R331, R333): what each command answers on the hypotheses of O19. -/

namespace Sys2Proof.Machine

section
variable {s : State}

/-- The doorbell's value names its queue and the new tail; what lies between the tails is opened (R319). -/
theorem exec_doorbell_opens {ld : Fin 32} {page : Fin 64} {value : W64} {pasid stamp : Option (BitVec 20)} {c : QueueCtx} {t : State}
    (unfenced : s.path.fenced = false) (here : s.hasLd ld.val = true) (bound : (s.fn ld.val).bound = true)
    (stamped : stampOf (s.bindOf ld.val page.val) pasid = some stamp) (ht : t = s.useCtx (BitVec.ofNat 20 (fld value 44 20)) ld.val false)
    (queue : t.ctx (BitVec.ofNat 20 (fld value 44 20)).toNat = some c) (active : c.state = .active) (sameLd : c.ld = ld) (samePasid : c.pasid = stamp)
    (inRing : fld value 0 16 < 2 ^ c.log2) (moves : (fld value 0 16 + 2 ^ c.log2 - c.sqTail) % 2 ^ c.log2 ≠ 0)
    (room : c.opened + (fld value 0 16 + 2 ^ c.log2 - c.sqTail) % 2 ^ c.log2 < 2 ^ c.log2) :
    exec (.doorbell ld page value pasid) s =
      .next (((t.useCtx (BitVec.ofNat 20 (fld value 44 20)) ld.val true).setCtx (BitVec.ofNat 20 (fld value 44 20)).toNat
        (some { c with sqTail := fld value 0 16, opened := c.opened + (fld value 0 16 + 2 ^ c.log2 - c.sqTail) % 2 ^ c.log2 })).pmPoq 0 ld.val) := by
  subst sameLd samePasid
  show execDoorbell c.ld page value pasid s = _
  simp only [execDoorbell, unfenced, here, bound, stamped, ← ht, queue, active, Nat.not_le.mpr inRing, Nat.not_le.mpr room, moves, Bool.not_true,
    Bool.false_eq_true, ne_eq, not_true_eq_false, false_and, reduceCtorEq, or_self, if_false]

section
variable {q : BitVec 20} {c : QueueCtx} (queue : s.ctx q.toNat = some c) (unfenced : s.path.fenced = false)
include queue unfenced

/-- A descriptor that a check refuses is finished when it joins (R323). -/
theorem exec_descriptorFetch_joins {ds : List Descriptor} {t : State} (active : c.state = .active) (nonempty : ds.length ≠ 0)
    (opened : ds.length ≤ (c.sqTail + 2 ^ c.log2 - c.sqFetch) % 2 ^ c.log2) (ht : t = s.useCtx q c.ld.val true) :
    exec (.descriptorFetch q (some ds)) s =
      .next (t.setCtx q.toNat (some { c with
        sqFetch := (c.sqFetch + ds.length) % 2 ^ c.log2
        execs := c.execs ++ ds.zipIdx.map (fun p =>
            ({ id := c.nextId + BitVec.ofNat 16 p.2, d := p.1, started := false, held := false, pos := 0, bufPos := 0, acting := false
               dataLost := false, waits := false, passed := [], out := []
               finished := (t.checkDescriptor c.ld.val p.1).map fun st => (st, 0) } : Exec))
        nextId := c.nextId + BitVec.ofNat 16 ds.length })).slots := by
  have waiting : (c.sqTail + 2 ^ c.log2 - c.sqFetch) % 2 ^ c.log2 ≠ 0 := by omega
  show execDescriptorFetch q (some ds) s = _
  simp only [execDescriptorFetch, queue, unfenced, active, waiting, nonempty, Nat.not_lt.mpr opened, ← ht, Bool.false_eq_true, ne_eq, not_true_eq_false,
    or_self, if_false]

theorem exec_fence_head {x : Exec} {xs : List Exec} (head : c.execs = x :: xs) (fence : x.isFence = true) (unfinished : x.finished = none) :
    exec (.fence q x.id) s = .next (s.finishExec q x.id stOk 0) := by
  show execFence q x.id s = _
  simp [execFence, queue, head, unfenced, fence, unfinished]

theorem exec_poqCompletion_writes {id st : W16} {x : Exec} {bytes : BitVec 32} (found : (c.execs.find? fun x => decide (x.id = id)) = some x)
    (finished : x.finished = some (st, bytes)) (sound : c.failed = false) :
    exec (.poqCompletion q id true) s =
      .next ((s.useCtx q c.ld.val true).writeCompletion q { c with execs := c.execs.filter fun y => decide (y.id ≠ id) } x st bytes).slots := by
  show execPoqCompletion q id true s = _
  simp only [execPoqCompletion, queue, found, finished, unfenced, sound, Bool.not_true, Bool.false_eq_true, if_false]

theorem exec_coalesceTimer_pending (pending : c.pendingInts > 0) : exec (.coalesceTimer q) s = .next (s.queueInterrupt q c) := by
  show execCoalesceTimer q s = _
  simp [execCoalesceTimer, queue, unfenced, pending]

theorem exec_queueDrained_answers {m : Msg} (draining : c.state = .draining) (empty : c.execs = []) (destroyer : c.destroyer = some m) :
    exec (.queueDrained q) s = .next ((s.freeCtx q c.ld.val).reply m 0xC041 stOk []) := by
  show execQueueDrained q s = _
  simp [execQueueDrained, queue, draining, empty, unfenced, destroyer]

end

end

/-- Settles O19: one lemma for each of the six commands. -/
theorem queueEvents : Obligations.QueueEvents := fun _ _ =>
  ⟨fun _ _ _ _ _ _ _ => exec_doorbell_opens, fun _ _ _ queue unfenced => exec_descriptorFetch_joins queue unfenced,
    fun _ _ _ queue head unfenced => exec_fence_head queue unfenced head,
    fun _ _ _ _ _ queue found finished unfenced => exec_poqCompletion_writes queue unfenced found finished,
    fun _ queue pending unfenced => exec_coalesceTimer_pending queue unfenced pending,
    fun _ _ queue draining empty unfenced => exec_queueDrained_answers queue unfenced draining empty⟩

end Sys2Proof.Machine
end

section
/-! ## An operation on a range of one page -/

namespace Sys2Proof.Machine

theorem operate_of_running {s : State} {q : BitVec 20} {id : W16} {op ld : Nat} {x : Exec} (act : Nat → Exec → Nat → Nat → Bool → State → PageRes)
    (run : s.running q id op = some (ld, x)) :
    s.operate q id op act = .next (State.runPieces q ld x (act ld x) (x.d.len / 2048 + 4) x.pos x.bufPos x.acting x.dataLost s).wake := by
  simp only [State.operate, run]

/-- A page whose target stands and whose checks have been passed, or pass now, is acted on. -/
theorem onPage_of_checks_pass {s : State} {ld : Nat} {x : Exec} {t : Target} {fresh : Bool} (act : Target → State → PageRes) (start : x.pos = 0)
    (target : s.poqTarget ld x.d.dpa.toNat = some t) (check : x.passed = [] → s.poqCheck ld t.dpn true = (none, s))
    (out : fresh = true → (s.entry t.dpn).state ≠ .unwritten) :
    s.onPage ld (x.d.dpa.toNat + 0) (x.checkedAt 0) true fresh act = act t s := by
  cases hp : x.passed with
  | nil =>
    have fresh' : ¬(fresh = true ∧ (s.entry t.dpn).state = .unwritten ∧ (!s.keyUsable ld (s.defKey ld)) = true) := fun ⟨f, st, _⟩ => out f st
    simp [State.onPage, target, Exec.checkedAt, hp, check hp]
    exact fun f st _ => absurd st (out f)
  | cons k ks => simp [State.onPage, target, Exec.checkedAt, hp, start]

/-- A page that is done at once ends an operation on it with OK and 4,096 bytes. -/
theorem runPieces_of_page_done {s t : State} {q : BitVec 20} {ld bufPos buf : Nat} {x : Exec} {acting : Bool} {act : Nat → Nat → Bool → State → PageRes}
    (one : x.d.len = 4096) (done : act 0 bufPos acting s = .ok 4096 buf false t) :
    State.runPieces q ld x act (x.d.len / 2048 + 4) 0 bufPos acting false s = (t.countPoq ld 5).finishExec q x.id stOk 4096 := by
  simp [State.runPieces, one, done]

/-- A page that is waited for keeps the operation at its start. -/
theorem runPieces_of_page_waits {s t : State} {q : BitVec 20} {ld bufPos : Nat} {x : Exec} {acting a lost : Bool} {act : Nat → Nat → Bool → State → PageRes}
    (one : x.d.len = 4096) (waits : act 0 bufPos acting s = .wait a t) :
    State.runPieces q ld x act (x.d.len / 2048 + 4) 0 bufPos acting lost s = t.updExec q x.id fun y =>
      { y with held := false, pos := 0, bufPos := bufPos, dataLost := lost, acting := a, passed := t.pieceKeys ld x.d 0 } := by
  simp [State.runPieces, one, waits]

theorem operate_of_page_done {s t : State} {q : BitVec 20} {id : W16} {op ld buf : Nat} {x : Exec} {act : Nat → Exec → Nat → Nat → Bool → State → PageRes}
    (run : s.running q id op = some (ld, x)) (one : x.d.len = 4096) (start : x.pos = 0) (kept : x.dataLost = false)
    (done : act ld x 0 x.bufPos x.acting s = .ok 4096 buf false t) :
    s.operate q id op act = .next ((t.countPoq ld 5).finishExec q x.id stOk 4096).wake := by
  rw [operate_of_running act run, start, kept, runPieces_of_page_done one done]

theorem operate_of_page_waits {s t : State} {q : BitVec 20} {id : W16} {op ld : Nat} {x : Exec} {a : Bool}
    {act : Nat → Exec → Nat → Nat → Bool → State → PageRes} (run : s.running q id op = some (ld, x)) (one : x.d.len = 4096) (start : x.pos = 0)
    (waits : act ld x 0 x.bufPos x.acting s = .wait a t) :
    s.operate q id op act = .next (t.updExec q x.id fun y =>
      { y with held := false, pos := 0, bufPos := x.bufPos, dataLost := x.dataLost, acting := a, passed := t.pieceKeys ld x.d 0 }).wake := by
  rw [operate_of_running act run, start, runPieces_of_page_waits one waits]

/-! ## ZERO_RANGE, COPY_RANGE, PIN_HOT, UNPIN, PROMOTE and DEMOTE -/

section
variable {s : State} {q : BitVec 20} {id : W16} {ld : Nat} {x : Exec} {t : Target}

theorem exec_pinHot_hot (hint : Frame) (run : s.running q id 3 = some (ld, x)) (one : x.d.len = 4096) (start : x.pos = 0) (kept : x.dataLost = false)
    (target : s.poqTarget ld x.d.dpa.toNat = some t) (check : x.passed = [] → s.poqCheck ld t.dpn true = (none, s))
    (hot : (s.entry t.dpn).state = .hot) (free : (s.entry t.dpn).pinned = false) (room : s.tier.pinnedPages + 1 ≤ s.tier.pinMax) :
    exec (.pinHot q id hint) s = .next (((s.setPinned t.dpn true).countPoq ld 5).finishExec q x.id stOk 4096).wake := by
  show execPinHot q id hint s = _
  refine operate_of_page_done run one start kept (buf := 0) ?_
  refine (onPage_of_checks_pass (fresh := false) _ start target check nofun).trans ?_
  simp only [hot, free, Nat.not_lt.mpr room, decide_false, Bool.false_eq_true, if_false]

theorem exec_unpin_hot (run : s.running q id 4 = some (ld, x)) (one : x.d.len = 4096) (start : x.pos = 0) (kept : x.dataLost = false)
    (target : s.poqTarget ld x.d.dpa.toNat = some t) (check : x.passed = [] → s.poqCheck ld t.dpn true = (none, s))
    (hot : (s.entry t.dpn).state = .hot) :
    exec (.unpin q id) s = .next (((s.setPinned t.dpn false).countPoq ld 5).finishExec q x.id stOk 4096).wake := by
  show execUnpin q id s = _
  refine operate_of_page_done run one start kept (buf := 0) ?_
  refine (onPage_of_checks_pass (fresh := false) _ start target check nofun).trans ?_
  simp only [hot]

theorem poqPromote_starts {u : State} {dpn : Dpn} {hint : Frame} (room : s.tier.freeFrames > s.reserveFrames)
    (starts : s.startMigration .poqPromotion dpn hint = some u) : s.poqPromote dpn hint = .wait true u := by
  simp only [State.poqPromote, if_neg (Nat.not_le.mpr room), starts]

theorem exec_promote_warm {u : State} {hint : Frame} (run : s.running q id 5 = some (ld, x)) (one : x.d.len = 4096) (start : x.pos = 0)
    (first : x.acting = false) (target : s.poqTarget ld x.d.dpa.toNat = some t) (check : x.passed = [] → s.poqCheck ld t.dpn true = (none, s))
    (warm : (s.entry t.dpn).state = .warm) (room : s.tier.freeFrames > s.reserveFrames)
    (starts : s.startMigration .poqPromotion t.dpn hint = some u) :
    exec (.promote q id hint) s = .next (u.updExec q x.id fun y =>
      { y with held := false, pos := 0, bufPos := x.bufPos, dataLost := x.dataLost, acting := true, passed := u.pieceKeys ld x.d 0 }).wake := by
  show execPromote q id hint s = _
  refine operate_of_page_waits run one start ?_
  refine (onPage_of_checks_pass (fresh := false) _ start target check nofun).trans ?_
  simp only [first, Bool.false_eq_true, if_false, warm, if_true, poqPromote_starts room starts]

theorem exec_demote_hot {u : State} {hint : Frame} (run : s.running q id 6 = some (ld, x)) (one : x.d.len = 4096) (start : x.pos = 0)
    (first : x.acting = false) (target : s.poqTarget ld x.d.dpa.toNat = some t) (check : x.passed = [] → s.poqCheck ld t.dpn true = (none, s))
    (hot : (s.entry t.dpn).state = .hot) (free : (s.entry t.dpn).pinned = false) (engine : s.allFenced 0 = false)
    (starts : s.startMigration .demotion t.dpn hint = some u) :
    exec (.demote q id hint) s = .next (u.updExec q x.id fun y =>
      { y with held := false, pos := 0, bufPos := x.bufPos, dataLost := x.dataLost, acting := true, passed := u.pieceKeys ld x.d 0 }).wake := by
  show execDemote q id hint s = _
  refine operate_of_page_waits run one start ?_
  refine (onPage_of_checks_pass (fresh := false) _ start target check nofun).trans ?_
  simp only [first, Bool.false_eq_true, if_false, hot, free, Bool.not_false, and_self, if_true, engine, starts]

end

/-- Settles O20: a range is its pieces; one page of a range is done at once, or its migration starts and is waited for. -/
theorem queueOperations : Obligations.QueueOperations := fun _ _ _ hint _ _ =>
  ⟨operate_of_running _, operate_of_running _,
   fun run one start kept _ target check hot free room => exec_pinHot_hot hint run one start kept target check hot free room,
   fun run one start kept _ target check hot => exec_unpin_hot run one start kept target check hot,
   fun run one start first _ _ target check warm room starts => exec_promote_warm run one start first target check warm room starts,
   fun run one start first _ _ target check hot free engine starts => exec_demote_hot run one start first target check hot free engine starts⟩

end Sys2Proof.Machine
end

section
/-! ## COMPRESS_OUT, HEAT_REPORT, DECOMPRESS_IN and HARDEN_RANGE -/

namespace Sys2Proof.Machine

section
variable {s : State} {q : BitVec 20} {id : W16} {ld : Nat} {x : Exec}

theorem deliverFrames_of_dma {st : W16} {n : Nat} {b : Byte} {bs : List Byte} :
    s.deliverFrames q id ld x true (st, n, b :: bs) = (s.emit (.dma ld (s.pasidOf q) x.d.hostAddr.toNat (b :: bs))).finishExec q id st n := rfl

theorem exec_compressOut_whole {st : W16} {n : Nat} {b : Byte} {bs : List Byte} {t : State} (run : s.running q id 8 = some (ld, x))
    (quiet : s.rangeBusy ld x.d = false) (whole : x.d.level = 0 ∨ s.allFenced 2 = true)
    (coder : x.d.level = 0 → s.coderReady false (.compressOut q id) = true)
    (coded : State.compressAll ld x.d (x.d.pages + 1) 0 [] s = ((st, n, b :: bs), t)) :
    exec (.compressOut q id true) s = .next ((t.emit (.dma ld (t.pasidOf q) x.d.hostAddr.toNat (b :: bs))).finishExec q id st n).wake := by
  have shallow : (decide (x.d.level ≠ 0) && !s.allFenced 2) = false := by
    rcases whole with h | h <;> simp [h]
  have ready : (decide (x.d.level = 0) && !s.coderReady false (.compressOut q id)) = false := by
    by_cases h : x.d.level = 0
    · simp [coder h]
    · simp [h]
  show execCompressOut q id true s = _
  simp only [execCompressOut, run, shallow, quiet, ready, Bool.or_self, Bool.false_eq_true, if_false, coded, deliverFrames_of_dma]

theorem exec_compressOut_deep {t : State} {ok : Bool} (run : s.running q id 8 = some (ld, x)) (level : x.d.level ≠ 0)
    (engines : s.allFenced 2 = false) (taken : t = s.takeDeep (.compressOut q id) ld) (coder : t.coderReady true (.compressOut q id) = true)
    (quiet : x.pos % 4096 = 0 → t.rangeBusy ld x.d = false) :
    exec (.compressOut q id ok) s = .next (t.compressChunk q id ld x ok).wake := by
  have busy : ¬(x.pos % 4096 = 0 ∧ t.rangeBusy ld x.d = true) := fun ⟨page, h⟩ => by simp [quiet page] at h
  show execCompressOut q id ok s = _
  subst taken
  simp only [execCompressOut, run, ne_eq, level, not_false_iff, decide_true, engines, Bool.not_false, Bool.and_self, if_true, coder, Bool.not_true,
    Bool.false_eq_true, if_false, if_neg busy]

theorem exec_heatReport_dma {st : W16} {n : Nat} {b : Byte} {bs : List Byte} {t : State} (run : s.running q id 10 = some (ld, x))
    (read : State.heatAll ld x.d (x.d.pages + 1) 0 [] s = ((st, n, b :: bs), t)) :
    exec (.heatReport q id true) s = .next ((t.emit (.dma ld (t.pasidOf q) x.d.hostAddr.toNat (b :: bs))).finishExec q id st n) := by
  show execHeatReport q id true s = _
  simp only [execHeatReport, run, read, List.isEmpty_cons, Bool.not_true, Bool.false_eq_true, if_false]

theorem zeroPage_of_zero {t : Target} {step buf : Nat} (zero : (s.entry t.dpn).state = .zero) : s.zeroPage ld t step buf = .ok step buf false s := by
  rw [State.zeroPage, if_pos zero]

theorem exec_decompressIn_zero {t : Target} {bs : List Byte} {lines : List Line} {used : Nat} (hint : Frame) (run : s.running q id 9 = some (ld, x))
    (one : x.d.len = 4096) (start : x.pos = 0) (buffer : x.bufPos = 0) (kept : x.dataLost = false) (target : s.poqTarget ld x.d.dpa.toNat = some t)
    (check : x.passed = [] → s.poqCheck ld t.dpn true = (none, s)) (zero : (s.entry t.dpn).state = .zero) (engine : (s.idleEngine 1).isSome = true)
    (read : readPage (bs.take x.d.bufLen.toNat) = .ok (lines, true, used)) :
    exec (.decompressIn q id (some bs) hint) s = .next ((((s.heatSample t.dpn).pmCodec 0 4).countPoq ld 5).finishExec q x.id stOk 4096).wake := by
  have written : true = true → (s.entry t.dpn).state ≠ .unwritten := fun _ => by simp [zero]
  have idle : (s.idleEngine 1).isNone = false := Option.isNone_eq_false_iff.mpr engine
  show execDecompressIn q id (some bs) hint s = _
  simp only [execDecompressIn, run]
  refine operate_of_page_done run one start kept (buf := used) ?_
  refine (onPage_of_checks_pass _ start target check written).trans ?_
  simp only [idle, Bool.false_eq_true, if_false, buffer, List.drop_zero, read, if_true, zeroPage_of_zero zero]

end

/-- HARDEN_RANGE of one page that can be recorded: what its pieces leave. -/
theorem runPieces_of_harden_page {s : State} {q : BitVec 20} {ld : Nat} {x : Exec} {t : Target} (one : x.d.len = 4096) (start : x.pos = 0)
    (target : s.poqTarget ld x.d.dpa.toNat = some t) (check : x.passed = [] → s.poqCheck ld t.dpn true = (none, s))
    (hot : (s.entry t.dpn).state = .hot) (durable : (s.entry t.dpn).durable = true) (ready : s.hardenWaits t.dpn = false) :
    State.runPieces q ld x (fun pos _ _ s => s.onPage ld (x.d.dpa.toNat + pos) (x.checkedAt pos) true false fun t s =>
        if (s.entry t.dpn).state = .unwritten ∨ !(s.entry t.dpn).durable then .ok 4096 0 false s
        else if s.hardenWaits t.dpn then .wait false s
        else .ok 4096 0 false (s.hardenPage t.dpn x.d.level)) (x.d.len / 2048 + 4) 0 0 false false s =
      ((s.hardenPage t.dpn x.d.level).countPoq ld 5).finishExec q x.id stOk 4096 := by
  refine runPieces_of_page_done one (buf := 0) ((onPage_of_checks_pass (fresh := false) _ start target check nofun).trans ?_)
  simp [hot, durable, ready]

theorem exec_hardenRange_page {s u v : State} {q : BitVec 20} {id : W16} {ld : Nat} {x : Exec} {t : Target} (run : s.running q id 7 = some (ld, x))
    (one : x.d.len = 4096) (start : x.pos = 0)
    (taken : u = if x.d.level ≠ 0 ∧ s.allFenced 2 = false then s.takeDeep (.harden q id) ld else s)
    (coder : u.coderReady (decide (x.d.level ≠ 0) && !s.allFenced 2) (.harden q id) = true) (target : u.poqTarget ld x.d.dpa.toNat = some t)
    (check : x.passed = [] → u.poqCheck ld t.dpn true = (none, u)) (hot : (u.entry t.dpn).state = .hot) (durable : (u.entry t.dpn).durable = true)
    (ready : u.hardenWaits t.dpn = false)
    (ended : v = (((u.hardenPage t.dpn x.d.level).countPoq ld 5).finishExec q x.id stOk 4096).endJobs (fun j => decide (j.user = .harden q id))) :
    exec (.hardenRange q id) s = .next (match (v.ctx q.toNat).bind fun c => c.execs.find? fun y => decide (y.id = id) with
      | some y =>
        if y.finished = some (stOk, x.d.length) then
          ((v.updExec q id fun y => { y with finished := none, waits := true }).endEpoch.mapShank fun k =>
            { k with harden := k.harden ++ [(q, id, v.shank.epoch)] }).slotQueuePassed.wake
        else v.slotQueuePassed.wake
      | none => v) := by
  have engine : (if (decide (x.d.level ≠ 0) && !s.allFenced 2) = true then s.takeDeep (.harden q id) ld else s) = u := by simp [taken]
  have pieces := runPieces_of_harden_page (q := q) one start target check hot durable ready
  show execHardenRange q id s = _
  simp only [execHardenRange, run, engine, coder, Bool.not_true, Bool.false_eq_true, if_false, start, pieces, ← ended]
  cases (v.ctx q.toNat).bind fun c => c.execs.find? fun y => decide (y.id = id) with
  | none => rfl
  | some y => exact (apply_ite _ _ _ _).symm

/-- Settles O21: COMPRESS_OUT in its two forms, and one lemma for each of the others. -/
theorem queueTransfers : Obligations.QueueTransfers := fun _ _ _ _ _ =>
  ⟨fun _ _ _ _ _ run quiet whole coder coded => exec_compressOut_whole run quiet whole coder coded,
   fun _ _ run level engines taken coder quiet => exec_compressOut_deep run level engines taken coder quiet,
   fun _ _ _ _ _ run read => exec_heatReport_dma run read,
   fun _ hint run one start buffer kept _ _ _ target check zero engine read =>
    exec_decompressIn_zero hint run one start buffer kept target check zero engine read,
   fun run one start _ _ _ _ taken coder target check hot durable ready ended =>
    exec_hardenRange_page run one start taken coder target check hot durable ready ended⟩

end Sys2Proof.Machine
end

section
/-! ## Eyelet channels, the event ring and the management locks -/

namespace Sys2Proof.Machine

section
variable {s : State} {ld : Fin 32} {ch : Fin 16}

theorem exec_eyeletNotice_reached {value : W64} {pasid : Option (BitVec 20)} (reach : s.reach ld.val = true) :
    exec (.eyeletNotice ld ch value pasid) s = .next (s.postEyelet ld ch value pasid) := if_pos reach

theorem exec_eyeletDequeue_room {n : W64 × Option (BitVec 20)} (notice : (s.eye (eyeKey ld ch)).notice = some n) (here : s.hasLd ld.val = true)
    (room : (s.eye (eyeKey ld ch)).running.length + (s.eye (eyeKey ld ch)).reading.length < 8) :
    exec (.eyeletDequeue ld ch) s =
      .next ((s.updEye (eyeKey ld ch) fun e => { e with notice := none, reading := e.reading ++ [n] }).raiseVector ld.val
        (s.eye (eyeKey ld ch)).taken.toNat) := by
  show execEyeletDequeue ld ch s = _
  simp only [execEyeletDequeue, notice, here, Bool.not_true, Bool.false_eq_true, false_or, ge_iff_le, Nat.not_le.mpr room, if_false]

theorem exec_commandBlockRead_ok {addr : W64} {pasid : Option (BitVec 20)} {rest : List (W64 × Option (BitVec 20))} {b : CmdBlock}
    (oldest : (s.eye (eyeKey ld ch)).reading = (addr, pasid) :: rest) (up : s.world.normal = .up) (ok : blockOk b = true) :
    exec (.commandBlockRead ld ch (some b)) s =
      .next ((s.updEye (eyeKey ld ch) fun e => { e with reading := rest }).updEye (eyeKey ld ch) fun e =>
        { e with running := e.running ++ [(b, addr, pasid)] }) := by
  show execCommandBlockRead ld ch (some b) s = _
  simp only [execCommandBlockRead, oldest, up, ne_eq, not_true, if_false, ok, if_true]

theorem exec_eyeletConfigWrite_reached {value : W64} (reach : s.reach ld.val = true) :
    exec (.eyeletConfigWrite ld ch value) s = .next (s.writeEyeConfig (eyeKey ld ch) value) := if_pos reach

theorem exec_eventRingEnable_reached {value : W64} (reach : s.reach ld.val = true) :
    exec (.eventRingEnable ld value) s = .next (s.writeEventRing ld.val value) := if_pos reach

/-- The outputs of a fold leave what the hub keeps of the commands. -/
theorem cmd_foldl_emits {α : Type} (f : State → α → State) (keeps : ∀ s x, (f s x).cmd = s.cmd) (l : List α) (s : State) : (l.foldl f s).cmd = s.cmd := by
  induction l generalizing s with
  | nil => rfl
  | cons x xs ih => exact (ih (f s x)).trans (keeps s x)

theorem exec_lockRegisterRead (lock : Fin 8) (readers : List Party) : ∃ t, exec (.lockRegisterRead lock readers) s = .next t
    ∧ t.settings = s.settings ∧ t.cmd = (s.readLock lock.val (readers.filter s.partyHere)).cmd :=
  ⟨_, rfl, keepsSettings_next.mp (execLockRegisterRead_keepsSettings lock readers),
   cmd_foldl_emits _ (fun _ r => by cases r <;> rfl) _ _⟩

theorem exec_lockReleaseWrite_bit {lock : Fin 8} {p : Party} {value : W64} (bit : value.getLsbD 0 = true) (here : s.partyHere p = true) :
    exec (.lockReleaseWrite lock p value) s = .next (s.releaseLock lock.val (partyPos p)) := if_pos ⟨bit, here⟩

end

/-- Settles O22: one lemma for each clause; the end of a lease answers by definition. -/
theorem eyeletEvents : Obligations.EyeletEvents := fun _ _ _ =>
  ⟨fun _ _ reach => exec_eyeletNotice_reached reach,
   fun _ notice here room => exec_eyeletDequeue_room notice here room,
   fun _ _ _ _ oldest up ok => exec_commandBlockRead_ok oldest up ok,
   fun _ reach => ⟨exec_eyeletConfigWrite_reached reach, exec_eventRingEnable_reached reach⟩,
   exec_lockRegisterRead,
   fun _ _ _ bit here => exec_lockReleaseWrite_bit bit here,
   fun _ => rfl⟩

end Sys2Proof.Machine
end

section
/-! ## The standard and FM-API commands that report -/

namespace Sys2Proof.Machine

/-- A standard command that is taken is answered as its act ends. -/
theorem std_answers {s t : State} {op : Nat} {ok : Path → Bool} {m : Msg} {act : State → StdResult} {code : W16} {body : List Nat}
    (taken : s.taken m op ok) (h : act s = .done code body t) : s.std op ok m act = .next (t.respStd m op code body) := by
  obtain ⟨arrives, path, free⟩ := taken
  exact std_done arrives path free h

/-- A standard command that is taken and does not end now answers nothing yet. -/
theorem std_waits {s t : State} {op : Nat} {ok : Path → Bool} {m : Msg} {act : State → StdResult}
    (taken : s.taken m op ok) (h : act s = .later t) : s.std op ok m act = .next t := by
  obtain ⟨arrives, path, free⟩ := taken
  exact std_later arrives path free h

section
variable {s : State} {m : Msg}

theorem exec_identifyMemoryDevice_ld {ld : Fin 32} (taken : s.taken m 0x4000 onMailboxOrBmc) (path : pathLd m.path = some ld) :
    exec (.identifyMemoryDevice m) s = .next (s.respStd m 0x4000 rcSuccess
      [((s.partition ld.val).1 + (s.partition ld.val).2) * 4096, (s.partition ld.val).1 * 4096, (s.partition ld.val).2 * 4096, block * 4096, 256,
       4096]) := by
  show execIdentifyMemoryDevice m s = _
  refine std_answers taken ?_
  simp only [path]

theorem exec_getEventRecords_log {log : Byte} (taken : s.taken m 0x0100 onMailboxOrBmc) (known : log.toNat ≤ 3) :
    exec (.getEventRecords m log) s =
      .next (s.respStd m 0x0100 rcSuccess ((s.log log.toNat).length :: (s.log log.toNat).flatMap fun r => [r.1, r.2])) := by
  show execGetEventRecords m log s = _
  refine std_answers taken ?_
  exact if_neg (Nat.not_lt.mpr known)

theorem exec_getLog_cel {offset length : W32} (taken : s.taken m 0x0401 onMailboxOrBmc)
    (inside : offset.toNat + length.toNat ≤ 4 * (stdOpcodes.length + slafinDefined.length)) :
    exec (.getLog m true offset length) s =
      .next (s.respStd m 0x0401 rcSuccess (((celBytes.drop offset.toNat).take length.toNat).map (·.toNat))) := by
  show execGetLog m true offset length s = _
  refine std_answers taken ?_
  exact if_neg (Nat.not_lt.mpr inside)

theorem exec_backgroundOperationStatus_some {op : W16} {ended : Bool} (taken : s.taken m 0x0002 onMailbox)
    (runs : (s.cmdLd (pathFn m.path)).background = some (op, ended)) :
    exec (.backgroundOperationStatus m) s = .next (s.respStd m 0x0002 rcSuccess [op.toNat, if ended then 100 else 0]) := by
  show execBackgroundOperationStatus m s = _
  refine std_answers taken ?_
  simp only [runs]

theorem exec_getPartitionInfo_ld {ld : Fin 32} (taken : s.taken m 0x4100 onMailbox) (path : pathLd m.path = some ld) :
    exec (.getPartitionInfo m) s = .next (s.respStd m 0x4100 rcSuccess [(s.partition ld.val).1 / block, (s.partition ld.val).2 / block]) := by
  show execGetPartitionInfo m s = _
  refine std_answers taken ?_
  simp only [path]

theorem exec_getLdInfo_taken (taken : s.taken m 0x5400 onFmApi) :
    exec (.getLdInfo m) s = .next (s.respStd m 0x5400 rcSuccess [s.last.hostPages * 4096, s.nLds]) := by
  show execGetLdInfo m s = _
  exact std_answers taken rfl

theorem exec_getDcdInfo_taken (taken : s.taken m 0x5600 onFmApi) :
    exec (.getDcdInfo m) s = .next (s.respStd m 0x5600 rcSuccess [s.nLds, 8, s.last.hostPages * 4096, block * 4096]) := by
  show execGetDcdInfo m s = _
  exact std_answers taken rfl

theorem exec_getLdAllocations_in {start limit : Byte} (taken : s.taken m 0x5401 onFmApi) (inside : start.toNat < s.nLds) :
    exec (.getLdAllocations m start limit) s = .next (s.respStd m 0x5401 rcSuccess
      ([s.nLds, block * 4096, start.toNat, (((List.range s.nLds).drop start.toNat).take limit.toNat).length]
        ++ (((List.range s.nLds).drop start.toNat).take limit.toNat).map fun n => (s.fn n).allocation)) := by
  show execGetLdAllocations m start limit s = _
  refine std_answers taken ?_
  exact if_neg (Nat.not_le.mpr inside)

theorem exec_getQosControl_ld {ld : Byte} (taken : s.taken m 0x5403 onFmApi) (here : s.hasLd ld.toNat = true) :
    exec (.getQosControl m ld) s = .next (s.respStd m 0x5403 rcSuccess [(Tab.get (fun _ => (3 : Byte)) s.reg.telemetry ld.toNat).toNat]) := by
  show execGetQosControl m ld s = _
  refine std_answers taken ?_
  exact if_neg (by simp [here])

theorem exec_getQosStatus_ld {ld : Byte} (taken : s.taken m 0x5405 onFmApi) (here : s.hasLd ld.toNat = true) :
    exec (.getQosStatus m ld) s = .next (s.draw.2.respStd m 0x5405 rcSuccess [(Config.freeByte s.free).toNat]) := by
  show execGetQosStatus m ld s = _
  refine std_answers taken ?_
  exact if_neg (by simp [here])

/-- The fractions of a range of LDs answer what their settings give. -/
theorem qosGet_answers {op : Nat} {start number : Byte} (f : Master → Nat) (taken : s.taken m op onFmApi) (inside : start.toNat < s.nLds) :
    s.qosGet op m start number f = .next (s.respStd m op rcSuccess
      ([(s.fractions start.toNat number.toNat f).length, start.toNat] ++ s.fractions start.toNat number.toNat f)) :=
  std_answers taken (if_neg (Nat.not_le.mpr inside))

theorem exec_getHeadInfo_in {start number : Byte} {l : List Nat} (taken : s.taken m 0x5501 onFmApi) (inside : start.toNat < s.nHeads)
    (heads : l = ((List.range s.nHeads).drop start.toNat).take number.toNat) :
    exec (.getHeadInfo m start number) s = .next (s.respStd m 0x5501 rcSuccess (l.length :: l.flatMap s.headInfo)) := by
  subst heads
  show execGetHeadInfo m start number s = _
  refine std_answers taken ?_
  exact if_neg (Nat.not_le.mpr inside)

theorem exec_getHostDcRegionConfiguration_ld {ld start number : Byte} (taken : s.taken m 0x5601 onFmApi) (here : s.hasLd ld.toNat = true)
    (region : start.toNat ≤ 7) :
    exec (.getHostDcRegionConfiguration m ld start number) s =
      .next (s.respStd m 0x5601 rcSuccess ([8, s.extentRoom ld.toNat] ++ s.regionInfo start.toNat number.toNat)) := by
  show execGetHostDcRegionConfiguration m ld start number s = _
  refine std_answers taken ?_
  exact if_neg (by simp [here, region])

theorem exec_getDcRegionExtentLists_ld {ld : Byte} {start count : W32} (taken : s.taken m 0x5603 onFmApi) (here : s.hasLd ld.toNat = true)
    (inside : start.toNat ≤ (s.extents ld.toNat).length) :
    exec (.getDcRegionExtentLists m ld start count) s =
      .next (s.respStd m 0x5603 rcSuccess (s.extentList ld.toNat start.toNat count.toNat)) := by
  show execGetDcRegionExtentLists m ld start count s = _
  refine std_answers taken ?_
  exact if_neg (by simp [here, inside])

end

/-- Settles O23: a report that has no condition is answered as it is taken; the others have one lemma each. -/
theorem standardReports : Obligations.StandardReports := by
  refine ⟨fun s m fn hfn => ?_, fun s m => ?_⟩
  · subst hfn
    exact ⟨fun taken _ path => exec_identifyMemoryDevice_ld taken path, fun taken => std_answers taken rfl, fun taken => std_answers taken rfl,
      fun taken => std_answers taken rfl, fun taken => std_answers taken rfl, fun taken _ known => exec_getEventRecords_log taken known,
      fun taken => std_answers taken rfl, fun taken => std_answers taken rfl, fun taken _ _ inside => exec_getLog_cel taken inside,
      fun taken => std_answers taken rfl, fun taken _ _ runs => exec_backgroundOperationStatus_some taken runs,
      fun taken _ path => exec_getPartitionInfo_ld taken path⟩
  · exact ⟨fun taken => exec_getLdInfo_taken taken, fun taken _ _ inside => exec_getLdAllocations_in taken inside,
      fun taken _ here => exec_getQosControl_ld taken here, fun taken _ here => exec_getQosStatus_ld taken here,
      fun taken _ _ inside _ read => by subst read; exact qosGet_answers _ taken inside,
      fun taken _ _ inside _ read => by subst read; exact qosGet_answers _ taken inside, fun taken => std_answers taken rfl,
      fun taken _ _ inside _ heads => exec_getHeadInfo_in taken inside heads, fun taken => exec_getDcdInfo_taken taken,
      fun taken _ _ _ here region => exec_getHostDcRegionConfiguration_ld taken here region,
      fun taken _ _ _ here inside => exec_getDcRegionExtentLists_ld taken here inside⟩

end Sys2Proof.Machine
end

section
/-! ## The standard commands that set, the firmware commands and the undefined opcode -/

namespace Sys2Proof.Machine

section
variable {s : State} {m : Msg}

theorem exec_setAlertConfiguration_taken {cfg : BitVec 96} (taken : s.taken m 0x4202 onMailbox) :
    exec (.setAlertConfiguration m cfg) s =
      .next ((s.updCmdLd (pathFn m.path) fun c => { c with alert := cfg }).respStd m 0x4202 rcSuccess []) := by
  show execSetAlertConfiguration m cfg s = _
  exact std_answers taken rfl

theorem exec_setTimestamp_taken {t : W64} (taken : s.taken m 0x0301 onMailbox) :
    exec (.setTimestamp m t) s =
      .next ((s.updCmdLd (pathFn m.path) fun c => { c with timeOffset := t - BitVec.ofNat 64 s.time }).respStd m 0x0301 rcSuccess []) := by
  show execSetTimestamp m t s = _
  exact std_answers taken rfl

theorem exec_setEventInterruptPolicy_taken {p : W32} (taken : s.taken m 0x0103 onMailbox) :
    exec (.setEventInterruptPolicy m p) s =
      .next ((s.updCmdLd (pathFn m.path) fun c => { c with policy := p }).respStd m 0x0103 rcSuccess []) := by
  show execSetEventInterruptPolicy m p s = _
  exact std_answers taken rfl

theorem exec_setShutdownState_unclean {st : Byte} (taken : s.taken m 0x4204 onMailbox) (image : s.image.supB = none) :
    exec (.setShutdownState m st) s =
      .next (((s.mapShank fun k => { k with shutdownState := st }).refreshSupers false).respStd m 0x4204 rcSuccess []) := by
  have none' : (s.mapShank fun k => { k with shutdownState := st }).image.supB = none := image
  show execSetShutdownState m st s = _
  refine std_answers taken ?_
  simp only [none']

theorem exec_clearEventRecords_all {log : Byte} {hs : List W16} (taken : s.taken m 0x0101 onMailbox) (known : log.toNat ≤ 3) :
    exec (.clearEventRecords m log true hs) s = .next ((s.setLog log.toNat []).respStd m 0x0101 rcSuccess []) := by
  show execClearEventRecords m log true hs s = _
  refine std_answers taken ?_
  exact if_neg (Nat.not_lt.mpr known)

theorem exec_unsupportedCommand_undefined {opcode : W16} (arrives : s.arrives m opcode.toNat = true) (slafin : slafinRange opcode.toNat = false)
    (std : stdOpcodes.contains opcode.toNat = false) :
    exec (.unsupportedCommand m opcode) s = .next (s.respStd m opcode.toNat rcUnsupported []) := by
  show execUnsupportedCommand m opcode s = _
  simp only [execUnsupportedCommand, arrives, slafin, std, Bool.not_true, Bool.false_eq_true, or_self, if_false]

/-! ### Firmware -/

/-- A firmware command that firmware takes is answered as its act ends. -/
theorem fwRun_answers {t : State} {op : Nat} {act : State → StdResult} {code : W16} {body : List Nat} (taken : s.fwTaken m op = true)
    (firmware : s.world.noFirmware = false) (path : onMailbox m.path = true) (h : act s = .done code body t) :
    s.fwRun op m act = .next (t.respStd m op code body) := by
  simp only [State.fwRun, taken, firmware, path, Bool.not_true, Bool.false_eq_true, and_false, if_false, h]

theorem fwRun_waits {t : State} {op : Nat} {act : State → StdResult} (taken : s.fwTaken m op = true)
    (firmware : s.world.noFirmware = false) (path : onMailbox m.path = true) (h : act s = .later t) : s.fwRun op m act = .next t := by
  simp only [State.fwRun, taken, firmware, path, Bool.not_true, Bool.false_eq_true, and_false, if_false, h]

theorem exec_transferFw_inactive {p : FwPackage} (taken : s.fwTaken m 0x0201 = true) (firmware : s.world.noFirmware = false)
    (path : onMailbox m.path = true) (judge : s.judgeAway = none) (active : s.world.activeB = false) (staged : s.world.staged = none) :
    exec (.transferFw m 2 p) s =
      .next (if s.fwOk p then (s.mapWorld fun w => { w with fwB := some p }).respStd m 0x0201 rcSuccess [] else s.respStd m 0x0201 rcVerifyFailed []) := by
  show execTransferFw m 2 p s = _
  cases ok : s.fwOk p
  · refine fwRun_answers taken firmware path ?_
    simp [judge, active, staged, ok]
  · refine fwRun_answers taken firmware path ?_
    simp [judge, active, staged, ok]

theorem exec_activateFw_offline {p : FwPackage} (taken : s.fwTaken m 0x0202 = true) (firmware : s.world.noFirmware = false)
    (path : onMailbox m.path = true) (slot : s.slotFw true = some p) :
    exec (.activateFw m false 2) s = .next ((s.mapWorld fun w => { w with nextB := true }).respStd m 0x0202 rcSuccess []) := by
  show execActivateFw m false 2 s = _
  refine fwRun_answers taken firmware path ?_
  simp [slot]

theorem exec_activateFw_online {p : FwPackage} (taken : s.fwTaken m 0x0202 = true) (firmware : s.world.noFirmware = false)
    (path : onMailbox m.path = true) (slot : s.slotFw true = some p) (judge : s.judgeAway = none) (free : s.activationBusy = false)
    (manifest : p.manifest = s.world.manifest)
    (other : p.secureDigest ≠ (s.mapWorld fun w => { w with staged := some true, activatedBy := some m }).secureDigest
      (s.mapWorld fun w => { w with staged := some true, activatedBy := some m }).world.secureB) :
    exec (.activateFw m true 2) s =
      .next (if s.fwOk p then (s.mapWorld fun w => { w with staged := some true, activatedBy := some m }).secureRestart 4
        else s.respStd m 0x0202 rcVerifyFailed []) := by
  show execActivateFw m true 2 s = _
  cases ok : s.fwOk p
  · refine fwRun_answers taken firmware path ?_
    simp [slot, judge, firmware, free, ok]
  · refine fwRun_waits taken firmware path ?_
    simp [slot, judge, firmware, free, ok, manifest]
    exact fun same => absurd same other

/-! ### Partitions -/

/-- Capacity that was not durable and stays so returns no page. -/
theorem filter_durableChange_eq_nil {es news : List MapEntry} (before : es.filter (·.durable) = []) (after : news.filter (·.durable) = [])
    (pages : List Dpn) :
    (pages.filter fun d => (es.any fun e => e.durable && e.holdsDev d.toNat) != (news.filter (·.durable)).any fun e => e.holdsDev d.toNat) = [] := by
  rw [List.filter_eq_nil_iff] at before
  have was (d : Dpn) : (es.any fun e => e.durable && e.holdsDev d.toNat) = false := by
    rw [List.any_eq_false]
    intro e he h
    exact before e he (Bool.and_elim_left h)
  simp [after, was]

theorem exec_setPartitionInfo_volatile {ld : Fin 32} {volatile : W64} {es news dc : List MapEntry} (taken : s.taken m 0x4101 onMailbox)
    (path : pathLd m.path = some ld) (entries : es = (s.ldMap ld.val).filter (fun e => e.valid && !e.dc))
    (extents : dc = (s.map ld.val).filter (fun e => e.valid && e.dc))
    (split : news = splitStatic (volatile.toNat * block) (sortBy (fun a b => decide (a.ldBase.toNat < b.ldBase.toNat)) es))
    (inside : volatile.toNat * block ≤ pagesOf es) (after : news.filter (·.durable) = []) (before : es.filter (·.durable) = [])
    (room : news.length + dc.length ≤ 256) :
    exec (.setPartitionInfo m volatile) s =
      .next (((s.setMap ld.val (news ++ dc)).mapShank fun k => { k with regionDirty := true }).respStd m 0x4101 rcSuccess []) := by
  show execSetPartitionInfo m volatile s = _
  refine std_answers taken ?_
  simp only [path, ← entries, ← extents, ← split]
  have fits : ¬(volatile.toNat * block > pagesOf es ∨ ((news.filter (·.durable)).any fun e => decide (e.ldBase ≠ e.devBase)) = true
      ∨ news.length + dc.length > 256) := by
    rw [after, List.any_nil]; simp [inside, room]
  have image : ¬((!(news.filter (·.durable)).isEmpty) = true ∧ s.shadowState = 0) := by simp [after]
  rw [if_neg fits, if_neg image]
  rw [filter_durableChange_eq_nil before after (es.flatMap s.extentPages), List.foldl_nil]

end

/-- Settles O24: one lemma for each command, two for the two forms of an activation. -/
theorem standardSettings : Obligations.StandardSettings := by
  refine ⟨fun s m fn hfn => ?_, fun s m => ?_⟩
  · subst hfn
    exact ⟨fun taken _ => exec_setAlertConfiguration_taken taken, fun taken image _ => exec_setShutdownState_unclean taken image, fun taken _ => exec_setTimestamp_taken taken,
      fun taken _ known _ => exec_clearEventRecords_all taken known, fun taken _ => exec_setEventInterruptPolicy_taken taken,
      fun _ arrives slafin std => exec_unsupportedCommand_undefined arrives slafin std⟩
  · exact ⟨fun _ taken firmware path judge active staged => exec_transferFw_inactive taken firmware path judge active staged,
      fun _ taken firmware path slot => exec_activateFw_offline taken firmware path slot,
      fun _ taken firmware path slot judge free manifest other => exec_activateFw_online taken firmware path slot judge free manifest other,
      fun _ _ _ _ _ taken path entries extents split inside after before room =>
        exec_setPartitionInfo_volatile taken path entries extents split inside after before room⟩

end Sys2Proof.Machine
end

section
/-! ## Dynamic capacity, poison, sanitize and erase of a mailbox -/

namespace Sys2Proof.Machine

section
variable {s : State} {m : Msg} {ld : Fin 32}

/-- A dynamic-capacity command of a mailbox whose head exposes it is answered as its act ends. -/
theorem dcRun_answers {t : State} {op : Nat} {act : Fin 32 → State → StdResult} {code : W16} {body : List Nat} (path : pathLd m.path = some ld)
    (taken : s.taken m op onMailbox) (exposes : s.exposesDc ld.val = true) (h : act ld s = .done code body t) :
    s.dcRun op m act = .next (t.respStd m op code body) := by
  refine std_answers taken ?_
  simp only [path, exposes, if_true, h]

theorem dcRun_waits {t : State} {op : Nat} {act : Fin 32 → State → StdResult} (path : pathLd m.path = some ld)
    (taken : s.taken m op onMailbox) (exposes : s.exposesDc ld.val = true) (h : act ld s = .later t) : s.dcRun op m act = .next t := by
  refine std_waits taken ?_
  simp only [path, exposes, if_true, h]

theorem exec_getDynamicCapacityConfiguration_ld (path : pathLd m.path = some ld) (taken : s.taken m 0x4800 onMailbox)
    (exposes : s.exposesDc ld.val = true) :
    exec (.getDynamicCapacityConfiguration m) s = .next (s.respStd m 0x4800 rcSuccess
      ([8, 256 - ((s.map ld.val).filter fun e => !e.dc).length, s.extentRoom ld.val] ++ s.regionInfo 0 8)) := by
  show execGetDynamicCapacityConfiguration m s = _
  exact dcRun_answers path taken exposes rfl

theorem exec_getDynamicCapacityExtentList_in {start count : W32} (path : pathLd m.path = some ld) (taken : s.taken m 0x4801 onMailbox)
    (exposes : s.exposesDc ld.val = true) (inside : start.toNat ≤ (s.extents ld.val).length) :
    exec (.getDynamicCapacityExtentList m start count) s = .next (s.respStd m 0x4801 rcSuccess (s.extentList ld.val start.toNat count.toNat)) := by
  show execGetDynamicCapacityExtentList m start count s = _
  refine dcRun_answers path taken exposes ?_
  exact if_neg (Nat.not_lt.mpr inside)

theorem exec_addDynamicCapacityResponse_offer {tag : BitVec 128} {o : Fin 32 × RegionEntry} (path : pathLd m.path = some ld)
    (taken : s.taken m 0x4802 onMailbox) (exposes : s.exposesDc ld.val = true)
    (offer : (s.cmd.offers.find? fun o => decide (o.1 = ld) && decide (o.2.tag = tag)) = some o) (room : s.extentRoom ld.val ≠ 0)
    (joins : s.joins ld.val (offeredEntry o.2) = true) :
    exec (.addDynamicCapacityResponse m tag true) s =
      .next (((s.mapCmd fun c => { c with offers := c.offers.erase o }).addEntry ld.val (offeredEntry o.2)).respStd m 0x4802 rcSuccess []) := by
  show execAddDynamicCapacityResponse m tag true s = _
  refine dcRun_answers path taken exposes ?_
  simp only [offer, if_true, if_neg room, joins, Bool.not_true, Bool.false_eq_true, if_false]

theorem exec_releaseDynamicCapacity_extents {dpa length : W64} {more : Bool} {es : List MapEntry} (path : pathLd m.path = some ld)
    (taken : s.taken m 0x4803 onMailbox) (exposes : s.exposesDc ld.val = true) (inside : es = ((s.extents ld.val).filter fun e =>
      decide (dpa.toNat ≤ e.ldBase.toNat * 4096) && decide ((e.ldBase.toNat + e.pages.toNat) * 4096 ≤ dpa.toNat + length.toNat)))
    (some' : es ≠ []) (fills : pagesOf es * 4096 = length.toNat) :
    exec (.releaseDynamicCapacity m dpa length more) s =
      .next ((if more then s else s.declineRest ld es).removeEntries m 0x4803 (es.map fun e => (ld, e))) := by
  show execReleaseDynamicCapacity m dpa length s more = _
  refine dcRun_waits path taken exposes ?_
  have whole : ¬(es.isEmpty = true ∨ pagesOf es * 4096 ≠ length.toNat) := by simp [some', fills]
  simp only [← inside, if_neg whole]

theorem exec_getPoisonList_ld {dpa length : W64} (path : pathLd m.path = some ld) (taken : s.taken m 0x4300 onMailbox) :
    ∃ l, exec (.getPoisonList m dpa length) s = .next (s.respStd m 0x4300 rcSuccess l)
      ∧ l.length ≤ 4096 ∧ ∀ a ∈ l, dpa.toNat ≤ a ∧ a < dpa.toNat + 64 * length.toNat := by
  refine ⟨((((s.ldMap ld.val).flatMap fun e => (s.extentPages e).flatMap fun d =>
    (s.poisonLines d).map fun l => (e.ldBase.toNat + (d.toNat - e.devBase.toNat)) * 4096 + l * 64).filter fun a =>
      decide (dpa.toNat ≤ a) && decide (a < dpa.toNat + 64 * length.toNat)).take 4096), ?_, List.length_take_le _ _, fun a ha => ?_⟩
  · show execGetPoisonList m dpa length s = _
    refine std_answers taken ?_
    simp only [path]
  · have listed := (List.mem_filter.mp (List.mem_of_mem_take ha)).2
    simpa only [Bool.and_eq_true, decide_eq_true_eq] using listed

/-- A line job of an LD at the start of a line is queued, and what can be written is written. -/
theorem startLine_of_aligned {op : Nat} {dpa : W64} {data : Option Line} (path : pathLd m.path = some ld) (aligned : dpa.toNat % 64 = 0) :
    s.startLine m op dpa data =
      .later (s.mapCmd fun c => { c with lineJobs := c.lineJobs ++ [{ m, op, ld, dpa := dpa.toNat, data }] }).settleLines := by
  simp only [State.startLine, path, aligned, ne_eq, not_true, if_false]

theorem exec_injectPoison_aligned {dpa : W64} (path : pathLd m.path = some ld) (taken : s.taken m 0x4301 onMailbox) (aligned : dpa.toNat % 64 = 0) :
    exec (.injectPoison m dpa) s =
      .next (s.mapCmd fun c => { c with lineJobs := c.lineJobs ++ [{ m, op := 0x4301, ld, dpa := dpa.toNat, data := none }] }).settleLines := by
  show execInjectPoison m dpa s = _
  exact std_waits taken (startLine_of_aligned path aligned)

theorem exec_clearPoison_aligned {dpa : W64} {data : Line} (path : pathLd m.path = some ld) (taken : s.taken m 0x4302 onMailbox)
    (aligned : dpa.toNat % 64 = 0) :
    exec (.clearPoison m dpa data) s =
      .next (s.mapCmd fun c => { c with lineJobs := c.lineJobs ++ [{ m, op := 0x4302, ld, dpa := dpa.toNat, data := some data }] }).settleLines := by
  show execClearPoison m dpa data s = _
  exact std_waits taken (startLine_of_aligned path aligned)

/-- An erasure of an LD, with no background operation of its function, starts. -/
theorem erase_of_ld {op : W16} (path : pathLd m.path = some ld) (free : s.backgroundRuns (pathFn m.path) = false) :
    s.erase m op = .done rcBackground []
      ((s.sanitizeLd ld.val).updCmdLd (pathFn m.path) fun c => { c with background := some (op, false) }).wake := by
  simp only [State.erase, free, Bool.false_eq_true, if_false, path]

theorem exec_sanitize_ld (path : pathLd m.path = some ld) (taken : s.taken m 0x4400 onMailbox) (free : s.backgroundRuns (pathFn m.path) = false) :
    exec (.sanitize m) s =
      .next (((s.sanitizeLd ld.val).updCmdLd (pathFn m.path) fun c => { c with background := some (0x4400, false) }).wake.respStd m 0x4400 rcBackground
        []) := by
  show execSanitize m s = _
  exact std_answers taken (erase_of_ld path free)

theorem exec_secureErase_ld (path : pathLd m.path = some ld) (taken : s.taken m 0x4401 onMailbox)
    (free : s.backgroundRuns (pathFn m.path) = false) :
    exec (.secureErase m) s =
      .next (((s.sanitizeLd ld.val).updCmdLd (pathFn m.path) fun c => { c with background := some (0x4401, false) }).wake.respStd m 0x4401 rcBackground
        []) := by
  show execSecureErase m s = _
  exact std_answers taken (erase_of_ld path free)

end

/-- Settles O25: one lemma for each of the nine commands. -/
theorem mediaCommands : Obligations.MediaCommands := fun _ _ _ path =>
  ⟨fun taken exposes => exec_getDynamicCapacityConfiguration_ld path taken exposes,
   fun taken exposes _ _ inside => exec_getDynamicCapacityExtentList_in path taken exposes inside,
   fun taken exposes _ _ offer room joins => exec_addDynamicCapacityResponse_offer path taken exposes offer room joins,
   fun taken exposes _ _ _ _ inside some' fills => exec_releaseDynamicCapacity_extents path taken exposes inside some' fills,
   fun taken _ _ => exec_getPoisonList_ld path taken,
   fun taken _ aligned => exec_injectPoison_aligned path taken aligned,
   fun taken _ _ aligned => exec_clearPoison_aligned path taken aligned,
   fun taken free => exec_sanitize_ld path taken free,
   fun taken free => exec_secureErase_ld path taken free⟩

end Sys2Proof.Machine
end

section
/-! ## The FM-API commands that change allocations, QoS and dynamic capacity -/

namespace Sys2Proof.Machine

section
variable {s : State} {m : Msg}

theorem exec_setLdAllocations_ok {start : Byte} {allocs : List (Nat × Option (List Extent))} {l : List (Nat × Nat × Option (List Extent))}
    {news : List (Nat × List MapEntry)} (taken : s.taken m 0x5402 onFmApi) (named : l = allocs.zipIdx.map (fun p => (start.toNat + p.2, p.1)))
    (maps : news = l.map (fun p => (p.1, s.allocMap p.1 p.2.2))) (here : l.all (fun p => s.hasLd p.1) = true) (ok : s.allocOk news = true) :
    exec (.setLdAllocations m start allocs) s = .next (if s.poolHolds news
      then ((s.setMaps news).allocate (l.map fun p => (p.1, p.2.1))).removeEntries m 0x5402 (s.allocGone news) (s.allocWait news)
      else s.respStd m 0x5402 rcNoResource []) := by
  have noneAway : (l.any fun p => !s.hasLd p.1) = false := by rw [List.all_eq_not_any_not] at here; simpa using here
  show execSetLdAllocations m start allocs s = _
  cases holds : s.poolHolds news
  · refine std_answers taken ?_
    simp only [← named, ← maps, noneAway, ok, holds, Bool.not_true, Bool.not_false, Bool.false_eq_true, if_false, if_true]
  · refine std_waits taken ?_
    simp only [← named, ← maps, noneAway, ok, holds, Bool.not_true, Bool.false_eq_true, if_false, if_true]

theorem exec_setQosControl_ld {ld ctl : Byte} (taken : s.taken m 0x5404 onFmApi) (here : s.hasLd ld.toNat = true) :
    exec (.setQosControl m ld ctl) s =
      .next ((s.mapReg fun r => { r with telemetry := Tab.set (fun _ => (3 : Byte)) ld.toNat ctl r.telemetry }).respStd m 0x5404 rcSuccess []) := by
  show execSetQosControl m ld ctl s = _
  refine std_answers taken ?_
  exact if_neg (by simp [here])

/-- Settings from fractions that stand and are admitted as one become pending. -/
theorem qosSet_answers {op : Nat} {start : Byte} {fractions : List W16} {f : Nat → Master → Master} {news : List (Nat × Master)}
    (taken : s.taken m op onFmApi) (settings : news = fractions.zipIdx.map fun p => (start.toNat + p.2, f p.1.toNat (s.configured (start.toNat + p.2))))
    (stand : news.all (fun p => s.hasLd p.1 && settingOk p.1 p.2) = true) (whole : fractions.all (fun x => decide (x.toNat ≤ 256)) = true)
    (admits : s.admits news = true) :
    s.qosSet op m start fractions f = .next ((s.setPending news).respStd m op rcSuccess []) := by
  have fit : ¬((news.any fun p => !s.hasLd p.1 || !settingOk p.1 p.2) = true ∨ (fractions.any fun x => decide (x.toNat > 256)) = true) := by
    rw [List.any_eq_true, List.any_eq_true]
    rintro (⟨p, hp, bad⟩ | ⟨x, hx, big⟩)
    · have good := List.all_eq_true.mp stand p hp
      rw [Bool.and_eq_true] at good
      simp [good] at bad
    · have small := of_decide_eq_true (List.all_eq_true.mp whole x hx)
      exact absurd (of_decide_eq_true big) (Nat.not_lt.mpr small)
  refine std_answers taken ?_
  simp only [← settings, if_neg fit, admits, Bool.not_true, Bool.false_eq_true, if_false]

theorem exec_setQosAllocatedBw_admitted {start : Byte} {fractions : List W16} {news : List (Nat × Master)} (taken : s.taken m 0x5407 onFmApi)
    (settings : news = fractions.zipIdx.map fun p => (start.toNat + p.2,
      { s.configured (start.toNat + p.2) with minRead := qosMinRead p.1.toNat s.reg.usable, minWrite := 0 }))
    (stand : news.all (fun p => s.hasLd p.1 && settingOk p.1 p.2) = true) (whole : fractions.all (fun x => decide (x.toNat ≤ 256)) = true)
    (admits : s.admits news = true) :
    exec (.setQosAllocatedBw m start fractions) s = .next ((s.setPending news).respStd m 0x5407 rcSuccess []) := by
  show execSetQosAllocatedBw m start fractions s = _
  exact qosSet_answers taken settings stand whole admits

theorem exec_setQosBwLimit_admitted {start : Byte} {fractions : List W16} {news : List (Nat × Master)} (taken : s.taken m 0x5409 onFmApi)
    (settings : news = fractions.zipIdx.map fun p =>
      (start.toNat + p.2, { s.configured (start.toNat + p.2) with budget := qosBudget p.1.toNat s.reg.usable }))
    (stand : news.all (fun p => s.hasLd p.1 && settingOk p.1 p.2) = true) (whole : fractions.all (fun x => decide (x.toNat ≤ 256)) = true)
    (admits : s.admits news = true) :
    exec (.setQosBwLimit m start fractions) s = .next ((s.setPending news).respStd m 0x5409 rcSuccess []) := by
  show execSetQosBwLimit m start fractions s = _
  exact qosSet_answers taken settings stand whole admits

theorem exec_setDcRegionConfiguration_empty {region : Byte} {size : W64} {z : Bool} (taken : s.taken m 0x5602 onFmApi) (known : region.toNat ≤ 7)
    (granule : size.toNat = block * 4096) (empty : s.regionHolds region.toNat = false) :
    exec (.setDcRegionConfiguration m region size z) s =
      .next ((s.updRegion region.toNat fun x => { x with blockSize := size, sanitize := z }).respStd m 0x5602 rcSuccess []) := by
  show execSetDcRegionConfiguration m region size z s = _
  refine std_answers taken ?_
  simp only [Nat.not_lt.mpr known, granule, ne_eq, not_true, empty, Bool.false_eq_true, or_self, if_false]

theorem exec_initiateDynamicCapacityAdd_offer {ld : Byte} {e : Extent} (taken : s.taken m 0x5604 onFmApi) (here : s.hasLd ld.toNat = true)
    (frames : s.tier.freeFrames > s.pressureFrames) (volatile : (s.addedEntry e).durable = false)
    (room : (s.map ld.toNat).length + (s.cmd.adds.filter fun a => decide (a.1.val = ld.toNat)).length < 256)
    (ok : s.addOk ld.toNat (s.addedEntry e) = true) (free : s.leaving (s.addedEntry e) = false) (reach : s.offersReach ld.toNat = true) :
    exec (.initiateDynamicCapacityAdd m ld e) s =
      .next (((s.mapCmd fun c => { c with adds := c.adds ++ [(Fin.ofNat 32 ld.toNat, e)] }).emit
        (.offer (Fin.ofNat 32 ld.toNat) (e.ldDpn.toNat * 4096) (e.pages.toNat * 4096) e.tag e.region.val)).respStd m 0x5604 rcSuccess []) := by
  have reach' : (s.mapCmd fun c => { c with adds := c.adds ++ [(Fin.ofNat 32 ld.toNat, e)] }).offersReach ld.toNat = true := reach
  show execInitiateDynamicCapacityAdd m ld e s = _
  refine std_answers taken ?_
  simp only [here, Nat.not_le.mpr frames, volatile, Nat.not_le.mpr room, ok, free, reach', Bool.not_true, Bool.false_eq_true, false_and,
    or_self, if_false, if_true]

theorem exec_initiateDynamicCapacityRelease_extents {ld : Byte} {tag : BitVec 128} (taken : s.taken m 0x5605 onFmApi)
    (here : s.hasLd ld.toNat = true) (offers : s.cmd.offers = []) (declined : s.cmd.declined = []) (adds : s.cmd.adds = [])
    (some' : ((s.extents ld.toNat).filter fun e => decide (e.tag = tag)) ≠ []) :
    exec (.initiateDynamicCapacityRelease m ld tag) s =
      .next ((s.mapCmd fun c => { c with offers := [], declined := [], adds := [] }).removeEntries m 0x5605
        (((s.extents ld.toNat).filter fun e => decide (e.tag = tag)).map fun e => (Fin.ofNat 32 ld.toNat, e))) := by
  have found : ((s.extents ld.toNat).filter fun e => decide (e.tag = tag)).isEmpty = false := List.isEmpty_eq_false_iff.mpr some'
  show execInitiateDynamicCapacityRelease m ld tag s = _
  refine std_waits taken ?_
  simp only [here, found, offers, declined, adds, List.append_nil, List.filter_nil, List.map_nil, State.mapCmd, Bool.not_true, Bool.false_eq_true,
    false_and, or_self, if_false]

end

/-- Settles O26: one lemma for each command; one rule for the two bandwidth settings. -/
theorem fmApiChanges : Obligations.FmApiChanges := fun _ _ =>
  ⟨fun taken _ _ _ _ named maps here ok => exec_setLdAllocations_ok taken named maps here ok,
   fun taken _ _ here => exec_setQosControl_ld taken here,
   fun taken _ _ _ settings stand whole admits => exec_setQosAllocatedBw_admitted taken settings stand whole admits,
   fun taken _ _ _ settings stand whole admits => exec_setQosBwLimit_admitted taken settings stand whole admits,
   fun taken _ _ _ known granule empty => exec_setDcRegionConfiguration_empty taken known granule empty,
   fun taken _ _ here frames volatile room ok free reach => exec_initiateDynamicCapacityAdd_offer taken here frames volatile room ok free reach,
   fun taken _ _ here offers declined adds some' => exec_initiateDynamicCapacityRelease_extents taken here offers declined adds some'⟩

end Sys2Proof.Machine
end

section
/-! ## The SPDM requests -/

namespace Sys2Proof.Machine

/-- A path that carries SPDM is here, and both worlds run: an SPDM request on it is answered. -/
def State.spdmOpen (s : State) (m : Msg) : Prop :=
  spdmPath m.path = true ∧ s.pathHere m.path = true ∧ s.world.normal = .up ∧ s.world.secure = .up

section
variable {s : State} {m : Msg}

theorem spdmRun_of_open {act : State → State} (up : s.spdmOpen m) : s.spdmRun m act = .next (act s) := by
  obtain ⟨path, here, normal, secure⟩ := up
  simp only [State.spdmRun, path, here, normal, secure, ne_eq, not_true, Bool.not_true, Bool.false_eq_true, or_self, if_false]

theorem spdmReady_of_open {act : State → State} (up : s.spdmOpen m) (negotiated : s.world.negotiated.contains m.path = true) :
    s.spdmReady m act = .next (act s) := by
  rw [State.spdmReady, spdmRun_of_open up, if_pos negotiated]

theorem spdmIn_of_open {act : Session → State → State} {i : Fin 8} {x : Session} (up : s.spdmOpen m)
    (negotiated : s.world.negotiated.contains m.path = true) (inside : s.msgSession m = some x) (named : m.session = some i) :
    s.spdmIn m i act = .next (act x s) := by
  rw [State.spdmIn, spdmReady_of_open up negotiated]
  simp only [inside, named, if_true]

/-! ### Outside a session -/

theorem exec_getVersion_open (up : s.spdmOpen m) : exec (.getVersion m) s =
    .next ((s.mapWorld fun w => { w with negotiated := w.negotiated.filter (· ≠ m.path) }).emit (.spdm m.path "versions" [0x12, 0x13])) := by
  show execGetVersion m s = _
  exact spdmRun_of_open up

theorem exec_getCapabilities_open (up : s.spdmOpen m) : exec (.getCapabilities m) s = .next (s.emit (.spdm m.path "capabilities" [])) := by
  show execGetCapabilities m s = _
  exact spdmRun_of_open up

theorem exec_negotiateAlgorithms_open (up : s.spdmOpen m) : exec (.negotiateAlgorithms m true) s =
    .next ((s.mapWorld fun w => { w with negotiated := m.path :: w.negotiated.filter (· ≠ m.path) }).emit (.spdm m.path "algorithms" [])) := by
  show execNegotiateAlgorithms m true s = _
  exact spdmRun_of_open up

theorem exec_getDigests_ready (up : s.spdmOpen m) (negotiated : s.world.negotiated.contains m.path = true) :
    exec (.getDigests m) s = .next (s.emit (.spdm m.path "digests" [0])) := by
  show execGetDigests m s = _
  exact spdmReady_of_open up negotiated

theorem exec_getCertificate_ready (up : s.spdmOpen m) (negotiated : s.world.negotiated.contains m.path = true) :
    exec (.getCertificate m 0) s = .next (s.emit (.spdm m.path "certificate" [0])) := by
  show execGetCertificate m 0 s = _
  exact spdmReady_of_open up negotiated

theorem exec_challenge_ready {nonce : BitVec 256} (up : s.spdmOpen m) (negotiated : s.world.negotiated.contains m.path = true) :
    exec (.challenge m 0 nonce) s = .next (s.emit (.spdm m.path "challenge authenticated" [0, nonce.toNat])) := by
  show execChallenge m 0 nonce s = _
  exact spdmReady_of_open up negotiated

theorem exec_getMeasurements_one {i : Byte} {sign : Bool} (up : s.spdmOpen m) (negotiated : s.world.negotiated.contains m.path = true)
    (first : 1 ≤ i.toNat) (last : i.toNat ≤ 9) :
    exec (.getMeasurements m i sign) s =
      .next (s.emit (.spdm m.path "measurements" ((if sign then 1 else 0) :: 1 :: i.toNat :: s.measurement i.toNat))) := by
  have notNumber : ¬i.toNat = 0 := by omega
  have notAll : ¬i.toNat = 0xFF := by omega
  show execGetMeasurements m i sign s = _
  rw [execGetMeasurements, spdmReady_of_open up negotiated]
  simp only [if_neg notNumber, if_neg notAll, if_pos last]

theorem exec_keyExchange_free {h : BitVec 384} {k : Nat} (up : s.spdmOpen m) (negotiated : s.world.negotiated.contains m.path = true)
    (free : ((List.range 8).find? fun k => (s.sessionOf k).isNone) = some k) :
    exec (.keyExchange m h) s =
      .next ((s.setSessionOf k (some { ld := pathLd m.path, owner := false, keyHash := h, finished := false, keys := 0 })).emit
        (.spdm m.path "key exchange" [k])) := by
  show execKeyExchange m h s = _
  rw [execKeyExchange, spdmReady_of_open up negotiated]
  simp only [free]

theorem exec_finish_session {i : Fin 8} {a : Bool} {x : Session} (up : s.spdmOpen m) (negotiated : s.world.negotiated.contains m.path = true)
    (begun : s.sessionOf i.val = some x) (first : x.finished = false) (mine : x.ld = pathLd m.path) :
    exec (.finish m i a) s = .next ((s.setSessionOf i.val (some { x with finished := true, owner := a })).emit (.spdm m.path "finish" [i.val])) := by
  show execFinish m i a s = _
  rw [execFinish, spdmReady_of_open up negotiated]
  simp only [begun, first, mine, ne_eq, not_true, Bool.false_eq_true, or_self, if_false]

/-! ### Inside a session -/

section
variable {i : Fin 8} {x : Session} (up : s.spdmOpen m) (negotiated : s.world.negotiated.contains m.path = true) (inside : s.msgSession m = some x)
include up negotiated inside

theorem exec_keyUpdate_in (named : m.session = some i) :
    exec (.keyUpdate m i) s = .next ((s.setSessionOf i.val (some { x with keys := x.keys + 1 })).emit (.spdm m.path "key update" [i.val])) := by
  show execKeyUpdate m i s = _
  exact spdmIn_of_open up negotiated inside named

theorem exec_heartbeat_in (named : m.session = some i) : exec (.heartbeat m i) s = .next (s.emit (.spdm m.path "heartbeat" [i.val])) := by
  show execHeartbeat m i s = _
  exact spdmIn_of_open up negotiated inside named

theorem exec_endSession_in (named : m.session = some i) :
    exec (.endSession m i) s = .next ((s.setSessionOf i.val none).emit (.spdm m.path "end session" [i.val])) := by
  show execEndSession m i s = _
  exact spdmIn_of_open up negotiated inside named

theorem exec_vendorDefinedRequest_owner {serial : BitVec 512} {nonce : BitVec 256} {sig : List Byte} {t : State} (own : s.ownerSession x = true)
    (recorded : t = securityRecord (match pathLd m.path with | some ld => ld.val | none => 0xFF) 0 0xFE 0 0 s) :
    exec (.vendorDefinedRequest m serial nonce sig) s =
      .next (if s.tokenOk serial nonce sig then
          (((s.zeroizeAll.mapKeys fun k => { k with dke := k.dke + 1 }).mapWorld fun w => { w with life := { w.life with rma := true } }).emit
            (.spdm m.path "RMA" [])).coldLoss
        else (t.draw.2.mapWorld fun w => { w with nonce := some (Config.nonce t.draw.1) }).emit
          (.spdm m.path "nonce" [(Config.nonce t.draw.1).toNat])) := by
  show execVendorDefinedRequest m serial nonce sig s = _
  rw [execVendorDefinedRequest, spdmReady_of_open up negotiated]
  subst recorded
  simp only [inside, own, true_and, if_true] <;> rfl

end

/-! ### The keys of the IDE streams -/

theorem exec_ideKmMessage_session {i : Fin 8} {p : Fin 2} {stream : Fin 6} {set : Bool} {km : IdeKm} {x : Session} {ld : Fin 32} {y : IdeStream}
    (normal : s.world.normal = .up) (secure : s.world.secure = .up) (begun : s.sessionOf i.val = some x) (onLd : x.ld = some ld)
    (finished : x.finished = true) (port : portOfLd ld.val = p.val) (taken : y = (s.ideStream (6 * p.val + stream.val)).take set km) :
    exec (.ideKmMessage p i stream set km) s =
      .next ((s.setIdeStream (6 * p.val + stream.val) y).emit
        (.spdm (.doe ld) "IDE" [stream.val, match y.active with | none => 0 | some false => 1 | some true => 2])) := by
  show execIdeKmMessage p i stream set km s = _
  simp only [execIdeKmMessage, begun, onLd, finished, port, normal, secure, ← taken, ne_eq, not_true, Bool.not_true, Bool.false_eq_true, or_self,
    if_false] <;> rfl

end

section
variable (y : IdeStream) (set : Bool)

theorem IdeStream.keyOf_setKey (k : Option (BitVec 256)) : (y.setKey set k).keyOf set = k := by cases set <;> rfl

theorem IdeStream.active_setKey (k : Option (BitVec 256)) : (y.setKey set k).active = y.active := by cases set <;> rfl

theorem IdeStream.take_setGo_of_key {containment : Bool} (key : (y.keyOf set).isSome = true) :
    y.take set (.setGo containment) = { y with active := some set, containment } := if_pos key

theorem IdeStream.take_setStop : (y.take set .setStop).keyOf set = none ∧ (y.take set .setStop).active ≠ some set := by
  rw [IdeStream.take]
  by_cases active : y.active = some set
  · rw [if_pos active]
    exact ⟨IdeStream.keyOf_setKey y set none, nofun⟩
  · rw [if_neg active, IdeStream.active_setKey]
    exact ⟨IdeStream.keyOf_setKey y set none, active⟩

end

/-- Settles O36: one lemma for each request in the frame that its order asks for, and what a key message does to a stream. -/
theorem spdmRequests : Obligations.SpdmRequests := by
  refine ⟨fun s m path here normal secure => ?_, fun s m path here normal secure negotiated => ?_⟩
  · have up : s.spdmOpen m := ⟨path, here, normal, secure⟩
    exact ⟨exec_getVersion_open up, exec_getCapabilities_open up, exec_negotiateAlgorithms_open up, fun negotiated =>
      ⟨exec_getDigests_ready up negotiated, exec_getCertificate_ready up negotiated, fun _ => exec_challenge_ready up negotiated,
       fun _ _ first last => exec_getMeasurements_one up negotiated first last, fun _ _ free => exec_keyExchange_free up negotiated free,
       fun _ _ _ begun first mine => exec_finish_session up negotiated begun first mine⟩⟩
  · have up : s.spdmOpen m := ⟨path, here, normal, secure⟩
    exact ⟨fun _ _ inside named =>
        ⟨exec_keyUpdate_in up negotiated inside named, exec_heartbeat_in up negotiated inside named, exec_endSession_in up negotiated inside named⟩,
      fun _ _ _ _ _ inside own recorded => exec_vendorDefinedRequest_owner up negotiated inside own recorded,
      fun _ _ _ _ _ _ _ _ begun onLd finished port taken => exec_ideKmMessage_session normal secure begun onLd finished port taken,
      fun y set key _ => ⟨IdeStream.keyOf_setKey y set (some key), IdeStream.active_setKey y set (some key),
        fun hasKey => ⟨congrArg (·.active) (IdeStream.take_setGo_of_key y set hasKey), congrArg (·.containment) (IdeStream.take_setGo_of_key y set hasKey)⟩,
        IdeStream.take_setStop y set⟩⟩

end Sys2Proof.Machine
end

section
/-! ## World restarts, readiness, version raise, page owners and gates -/

namespace Sys2Proof.Machine

section
variable {s : State}

/-! ### Restarts and readiness -/

theorem exec_secureWatchdogExpiry_up (secure : s.world.secure = .up) : exec .secureWatchdogExpiry s = .next (s.secureRestart 1) := if_pos secure

theorem exec_normalWatchdogExpiry_up (secure : s.world.secure = .up) (normal : s.world.normal = .up) :
    exec .normalWatchdogExpiry s = .next s.normalRestart := if_pos ⟨secure, normal⟩

theorem exec_coreException_secure {core : Fin 8} (running : (s.core core.val).1 = false) (own : core.val ≥ 6) (secure : s.world.secure = .up) :
    exec (.coreException core) s = .next (s.secureRestart 2) := by
  show execCoreException core s = _
  rw [execCoreException, if_neg (Bool.eq_false_iff.mp running), if_pos own, if_pos secure]

theorem exec_coreException_normal {core : Fin 8} (running : (s.core core.val).1 = false) (own : core.val < 6) (normal : s.world.normal = .up) :
    exec (.coreException core) s = .next s.normalRestart := by
  show execCoreException core s = _
  rw [execCoreException, if_neg (Bool.eq_false_iff.mp running), if_neg (Nat.not_le.mpr own), if_pos normal]

theorem exec_secureWorldReady_bringup {a o t : Bool} (step : s.power.bringup = 2) :
    exec (.secureWorldReady a o t) s = .next (s.secureBringup a o t).wake := if_pos step

theorem exec_secureWorldReady_restart {a o t : Bool} (step : s.power.bringup = 6) (secure : s.world.secure = .restarting) :
    exec (.secureWorldReady a o t) s = .next (s.secureRestarted a o t).wake := by
  show execSecureWorldReady a o t s = _
  rw [execSecureWorldReady, if_neg (by omega), if_pos ⟨secure, by omega⟩]

theorem activationWaits_of_unstaged (staged : s.world.staged = none) : s.activationWaits = false := by
  rw [State.activationWaits, staged]; rfl

theorem exec_normalWorldReady_restart (normal : s.world.normal = .restarting) (step : s.power.bringup = 6) (recovery : s.world.recovery = false)
    (staged : s.world.staged = none) :
    exec .normalWorldReady s =
      .next ((s.mapWorld fun w => { w with normal := .up }).mapFault fun f => { f with heartbeat := true, aliveSeen := true }).wake := by
  show execNormalWorldReady s = _
  simp [execNormalWorldReady, normal, step, activationWaits_of_unstaged staged, State.mapWorld, State.mapFault, recovery, staged]

theorem exec_svnRaise_secure {p : FwPackage} (secure : s.world.secure = .up) (image : s.slotFw s.world.secureB = some p)
    (day : s.time ≥ max s.world.secureStart (s.world.faultTimes.head?.getD 0) + Config.nsDay) :
    exec (.svnRaise .secure) s =
      .next (s.mapWorld fun w => { w with svnSecure := if w.svnSecure.toNat < p.secureSvn.toNat then p.secureSvn else w.svnSecure }) := by
  show execSvnRaise .secure s = _
  simp only [execSvnRaise, secure, ne_eq, not_true, if_false, image, day, decide_true, if_true]

/-! ### Pages and gates -/

theorem exec_ownerTableChange_shared {page : BitVec 21} {o : PageOwner} (secure : s.world.secure = .up) (inside : page.toNat < internalPages)
    (other : o ≠ .secure) : exec (.ownerTableChange page o) s = .next ((s.l2Page page).setPageOwner page.toNat o) := by
  show execOwnerTableChange page o s = _
  simp only [execOwnerTableChange, secure, Nat.not_le.mpr inside, other, ne_eq, not_true, or_self, false_and, if_false]

theorem exec_ownerTableChange_full {page : BitVec 21} (secure : s.world.secure = .up) (sram : page.toNat < 4096)
    (new : s.pageOwner page.toNat ≠ .secure) (full : s.securePages false ≥ 2048) : exec (.ownerTableChange page .secure) s = .next s := by
  have notDram : ¬page.toNat ≥ 4096 := Nat.not_le.mpr sram
  have inside : ¬page.toNat ≥ internalPages := by rw [internalPages]; omega
  show execOwnerTableChange page .secure s = _
  simp only [execOwnerTableChange, secure, inside, notDram, new, full, decide_false, ne_eq, not_true, not_false_iff, or_self, and_self, if_false, if_true]

theorem exec_gateRequest_own {core : Fin 8} {b : HubBlock} {gated : Bool} (running : (s.core core.val).1 = false)
    (own : blockWorld b = some (coreWorld core.val)) : exec (.gateRequest core b gated) s = .next (s.setGate (blockNo b) gated) := by
  show execGateRequest core b gated s = _
  rw [execGateRequest, if_neg (Bool.eq_false_iff.mp running), if_pos own]

theorem exec_gateRequest_other {core : Fin 8} {b : HubBlock} {gated : Bool} (running : (s.core core.val).1 = false)
    (other : blockWorld b ≠ some (coreWorld core.val)) :
    exec (.gateRequest core b gated) s =
      .next (fire 1 (securityRecord core.val (worldNo (coreWorld core.val)) (blockNo b) 0 (if gated then 1 else 0) s)) := by
  show execGateRequest core b gated s = _
  rw [execGateRequest, if_neg (Bool.eq_false_iff.mp running), if_neg other]

theorem exec_ownerViolation_refused {r : Requester} {page : BitVec 21} {line : Fin 64} {write : Bool} (inside : page.toNat < internalPages) :
    pageAllows r (s.pageOwner page.toNat) write = false → exec (.ownerViolation r page write line) s =
      .next (fire 2 (securityRecord (requesterNo r) (match r with | .secureCore _ | .secureFor _ => 1 | _ => 0) 0 page.toNat (if write then 1 else 0) s)) := by
  intro refused
  show execOwnerViolation r page write s line = _
  unfold execOwnerViolation
  refine (if_neg (Nat.not_le.mpr inside)).trans ((if_neg (Bool.eq_false_iff.mp refused)).trans ?_)
  cases r <;> rfl

theorem exec_ownerViolation_allowed {r : Requester} {page : BitVec 21} {line : Fin 64} {write : Bool} (inside : page.toNat < internalPages)
    (allowed : pageAllows r (s.pageOwner page.toNat) write = true) :
    exec (.ownerViolation r page write line) s = .next (if r = .engine then s else s.l2Access page line write) := by
  show execOwnerViolation r page write s line = _
  unfold execOwnerViolation
  rw [if_neg (Nat.not_le.mpr inside), if_pos allowed]
  exact (apply_ite _ _ _ _).symm

end

/-- Settles O37: one lemma for each clause. -/
theorem worldEvents : Obligations.WorldEvents :=
  ⟨fun _ => ⟨exec_secureWatchdogExpiry_up, exec_normalWatchdogExpiry_up, fun _ => exec_coreException_secure, fun _ => exec_coreException_normal,
     fun _ _ _ => exec_secureWorldReady_bringup, fun _ _ _ => exec_secureWorldReady_restart, exec_normalWorldReady_restart, fun _ => exec_svnRaise_secure⟩,
   fun _ => ⟨fun _ _ => exec_ownerTableChange_shared, fun _ => exec_ownerTableChange_full, fun _ _ _ => exec_gateRequest_own,
     fun _ _ _ => exec_gateRequest_other, fun r _ _ _ inside refused => (exec_ownerViolation_refused inside refused).trans (by cases r <;> rfl),
     fun _ _ _ _ => exec_ownerViolation_allowed⟩⟩

end Sys2Proof.Machine
end
